-- ==== Sys2Proof/Word.lean ====
section
/-!
DEFINITION. The word types of the KD9128 model: 64-bit words, bytes, and the bit range [h:l] of R4. Their operations are in
Machine/Bits.lean.
-/
namespace Sys2Proof

abbrev Word := BitVec 64
abbrev Byte := BitVec 8

/-- A bit field [hi:lo] of a register or a descriptor (R4). -/
structure Fld where
  hi : Nat
  lo : Nat
  deriving DecidableEq, Repr

end Sys2Proof
end

