-- ==== Sys2Proof/Syntax.lean ====
section
/-!
DEFINITION. The commands of the block: one constructor per row of spec/opcode_table.json, with the row's operands. Core
instructions carry their core and their raw fields (R104); events carry the unit they happen at and what the outside
world supplies with them.
-/
namespace Sys2Proof

/-- A core number (R36). -/
abbrev CoreId := Fin 128
/-- The number of a home slice, channel, lane group, cluster or teller (R36). -/
abbrev Idx16 := Fin 16
/-- A peer port number (R36). -/
abbrev PortId := Fin 7

/-- The agents that answer fence markers (R88). -/
inductive FenceAgent where
  | cluster (n : Fin 16)
  | teller (n : Fin 16)
  | guards
  | peer (n : Fin 7)
  deriving DecidableEq, Repr
/-- What a commit from a peer's lead teller says of its posting beside the cell line: the INFO, POSTID, REF and VDATE of the lead's record,
and the legs whose cells lie in this socket, in the descriptor's order, each with its local address and AMOUNT (R328). -/
structure PostNote where
  info : Word
  postid : Word
  ref : Word
  vdate : BitVec 32
  legs : List (Nat × BitVec 128)
  deriving DecidableEq, Repr
/-- What a patrol scrub read finds (R283): a clean line, a correctable error, an uncorrectable one in the line, or one in its
tag line. -/
inductive ScrubFind where
  | clean | corrected | uncorrectable | tagLine
  deriving DecidableEq, Repr
/-- Where a plain register write goes: control space, by initiating unit, key (unit × 2^24 + offset) and width in bytes, or a core
state register. `eft` is an access of the eft, whose memory and lane windows no other command reaches (R359, R415): address, width,
and whether it writes. -/
inductive RegPlace where
  /-- byte `off` of the eft's own data SRAM, which its program reads or writes (R415) -/
  | eftSram (off len : Nat) (write : Bool)
  | eft (pa len : Nat) (write : Bool)
  | ctl (init key len : Nat)
  | core (k : CoreId) (idx : Nat)
  deriving DecidableEq, Repr
/-- What MEMTRAIN finds on a channel (R265, R266, R413): DIMMs and their kind, whether the record in the training area carries the
identities and the rate in force, whether the pattern test passes on it, and whether full training succeeds. -/
structure ChanFind where
  dimms : Nat
  ranks : Nat
  x8 : Bool
  density : Nat
  /-- channel capacity in GiB -/
  cap : Nat
  cached : Bool
  patternOk : Bool
  trained : Bool
  deriving DecidableEq, Repr
/-- The class a detector gives its event (R283, R444). -/
inductive ErrSev where
  | corrected | deferred | fatal
  deriving DecidableEq, Repr
/-- The TAP instructions that select no control-space access (R447). -/
inductive TapInsn where
  | extest | samplePreload | idcode | bypass
  deriving DecidableEq, Repr
/-- What a PLDM type 2 request asks for (R417). -/
inductive PldmSensor where
  /-- the hottest diode -/
  | temperature
  /-- a rail monitor, by the order of R453 -/
  | supply (rail : Fin 10)
  | power
  | mode
  | unit (u : Nat)
  deriving DecidableEq, Repr

/-- DESIGN CHOICE, log entry 1. -/
inductive Instr where
  /-- REGISTER_WRITE, R9 -/
  | registerWrite (place : RegPlace) (v : Word)
  /-- CONTROL_STORE_ACCEPT, R27 -/
  | controlStoreAccept (k : CoreId) (idx : Nat)
  /-- PWR_GOOD_RISE, R394 -/
  | pwrGoodRise
  /-- DEVICE_RESET_EXIT, R394 -/
  | deviceResetExit (failLow : Bool)
  /-- PWR_GOOD_FALL, R455 -/
  | pwrGoodFall (ns : Nat)
  /-- SUPPLY_INVALID, R454 -/
  | supplyInvalid (rail : Fin 10)
  /-- PWR_FAIL, R30 -/
  | pwrFail (ns : Nat)
  /-- REFCLK_LOSS, R459 -/
  | refclkLoss
  /-- THERMAL_READ, R463 -/
  | thermalRead (temps : List (Nat × Int))
  /-- THERMTRIP_ASSERT, R464 -/
  | thermtripAssert
  /-- POWER_EVALUATION, R462 -/
  | powerEvaluation (pwr : Nat)
  /-- WAKE_LATCH_EDGE, R231 -/
  | wakeLatchEdge (latch : Fin 33) (rising : Bool)
  /-- TIME_PPS_EDGE, R436 -/
  | timePpsEdge
  /-- PPS_TIMEOUT, R436 -/
  | ppsTimeout
  /-- TIME_ADJ_WRITE, R435 -/
  | timeAdjWrite (v : Word)
  /-- STAGE_FLASH, R396 -/
  | stageFlash (answers : Bool) (octal : Bool) (size : Nat)
  /-- STAGE_VERIFY, R399 -/
  | stageVerify
  /-- STAGE_APPLY, R405 -/
  | stageApply (trimsOk : Bool)
  /-- STAGE_MEMTRAIN, R413 -/
  | stageMemtrain (found : List ChanFind)
  /-- STAGE_TAGCLEAR, R272 -/
  | stageTagclear
  /-- STAGE_LANES, R407: `ends` says whether the stage ends now or its ports are left training -/
  | stageLanes (ends : Bool := true)
  /-- STAGE_BOOTSPAN, R411 -/
  | stageBootspan
  /-- STAGE_EFT, R415 -/
  | stageEft
  /-- STAGE_RELEASE, R412 -/
  | stageRelease
  /-- IMG_APPLY_GO, R434 -/
  | imgApplyGo (v : Word)
  /-- FLASH_ERASE, R414 -/
  | flashErase (v : Word)
  /-- FLASH_PROGRAM, R414 -/
  | flashProgram (v : Word)
  /-- FLASH_COMMAND_DONE, R414 -/
  | flashCommandDone (ok : Bool)
  /-- EFT_WATCHDOG_EXPIRY, R418 -/
  | eftWatchdogExpiry
  /-- EFT_KICK, R418 -/
  | eftKick
  /-- EFT_SWAP, R418 -/
  | eftSwap
  /-- PLDM_DISCOVERY, R417 -/
  | pldmDiscovery
  /-- PLDM_PLATFORM, R417 -/
  | pldmPlatform (sensor : PldmSensor)
  /-- PLDM_FRU, R417 -/
  | pldmFru
  /-- PLDM_FIRMWARE_UPDATE, R417 -/
  | pldmFirmwareUpdate (slot : Bool) (image : List Byte)
  /-- MODE_REQ_BRUMATION, R426 -/
  | modeReqBrumation (chg : BitVec 2)
  /-- MODE_REQ_DIAGNOSTIC, R426 -/
  | modeReqDiagnostic
  /-- MODE_REQ_LEAVE, R426 -/
  | modeReqLeave
  /-- BRUMATION_QUIESCED, R427 -/
  | brumationQuiesced
  /-- BRUMATION_QUIESCE_TIMEOUT, R427 -/
  | brumationQuiesceTimeout
  /-- BRUMATION_CHANGE_COMPLETE, R427 -/
  | brumationChangeComplete
  /-- BRUMATION_TIMEOUT, R31 -/
  | brumationTimeout
  /-- UNIT_FENCE, R422 -/
  | unitFence (u : Nat)
  /-- UNIT_UNFENCE, R420 -/
  | unitUnfence (u : Nat)
  /-- UNIT_OFFLINE, R420 -/
  | unitOffline (u : Nat)
  /-- UNIT_ONLINE, R425 -/
  | unitOnline (u : Nat)
  /-- UNIT_RETIRE, R287 -/
  | unitRetire (u : Nat)
  /-- UNIT_HANDOVER, R431 -/
  | unitHandover (u : Nat) (arg : Nat)
  /-- UNIT_RECAL, R420 -/
  | unitRecal (u : Nat)
  /-- UNIT_OP_COMPLETE, R421 -/
  | unitOpComplete (u : Nat) (found : List ChanFind := [])
  /-- HANDOVER_MAP_ACK, R431 -/
  | handoverMapAck (n : Idx16)
  /-- MGMT_CLK_WRITE, R429 -/
  | mgmtClkWrite (n : Idx16) (v : Word)
  /-- CLUSTER_CLOCK_STOP, R429 -/
  | clusterClockStop (n : Idx16)
  /-- CLUSTER_CLOCK_RESTART, R230 -/
  | clusterClockRestart (n : Idx16)
  /-- ERROR_DETECT, R442 -/
  | errorDetect (unit : Nat) (det : Nat) (sev : ErrSev) (injected : Bool) (addr : Option Nat) (syndrome : Word) (detail : List Byte)
  /-- ERRINJ_ONESHOT, R445 -/
  | errinjOneshot (unit : Nat) (det : Nat) (severe : Bool)
  /-- ERRINJ_PERIODIC, R445 -/
  | errinjPeriodic (unit : Nat) (det : Nat) (severe : Bool)
  /-- ERRINJ_PERIOD_EXPIRY, R445 -/
  | errinjPeriodExpiry (unit : Nat) (det : Nat)
  /-- TEL_COUNTER_WRAP, R438 -/
  | telCounterWrap (unit : Nat) (n : Idx16)
  /-- SNAPSHOT_ARM, R439 -/
  | snapshotArm (v : Word)
  /-- SNAPSHOT_LATCH, R440 -/
  | snapshotLatch
  /-- DBG_UNLOCK_GO, R448 -/
  | dbgUnlockGo (v : Word)
  /-- DBG_LOCK, R448 -/
  | dbgLock
  /-- DBG_MEMORY_ACCESS, R449 -/
  | dbgMemoryAccess (v : Word)
  /-- DBG_HALT, R450 -/
  | dbgHalt (k : CoreId)
  /-- DBG_RESUME, R450 -/
  | dbgResume (k : CoreId)
  /-- DBG_STEP, R450 -/
  | dbgStep (k : CoreId)
  /-- DBG_REGISTER_ACCESS, R450 -/
  | dbgRegisterAccess (v : Word)
  /-- TRACE_ENABLE, R452 -/
  | traceEnable (v : Word)
  /-- TAP_CONTROL_ACCESS, R447 -/
  | tapControlAccess (write : Bool) (key : Nat) (len : Nat) (v : Word)
  /-- TAP_EXTEST, R447: `insn` may be another of the TAP's instructions over the lands and the boundary register -/
  | tapExtest (drive : Nat) (lands : Nat) (insn : TapInsn := .extest)
  /-- PURSE_WRITE, R66 -/
  | purseWrite (a : Nat) (bytes : List Byte)
  /-- PURSE_INVALIDATE, R67 -/
  | purseInvalidate (id : Nat) (n : Idx16)
  /-- PURSE_INVAL_ACK, R67 -/
  | purseInvalAck (id : Nat) (n : Idx16)
  /-- FREE_LIST_POP, R77 -/
  | freeListPop (k : CoreId)
  /-- FREE_LIST_PUSH, R77 -/
  | freeListPush (h : Nat) (idx : Nat)
  /-- RECALL_ARRIVE, R86 -/
  | recallArrive (k : CoreId)
  /-- FENCE_MARKER, R88 -/
  | fenceMarker (id : Nat) (agent : FenceAgent)
  /-- FENCE_ACK, R88 -/
  | fenceAck (id : Nat) (agent : FenceAgent)
  /-- SWEEP_ADD, R94 -/
  | sweepAdd (v : Word)
  /-- SWEEP_GO, R94 -/
  | sweepGo (v : Word)
  /-- SWEEP_CLEAR, R94 -/
  | sweepClear
  /-- TAG_ENGINE_SCAN_DONE, R94 -/
  | tagEngineScanDone (engine : Nat)
  /-- LDC, R61 -/
  | ldc (k : CoreId) (c : BitVec 5) (cb : BitVec 5) (disp : BitVec 15)
  /-- STC, R61 -/
  | stc (k : CoreId) (c : BitVec 5) (cb : BitVec 5) (disp : BitVec 15)
  /-- CMOV, R61 -/
  | cmov (k : CoreId) (d : BitVec 5) (a : BitVec 5)
  /-- CLIP, R61 -/
  | clip (k : CoreId) (d : BitVec 5) (a : BitVec 5) (b : BitVec 5)
  /-- CSETC, R61 -/
  | csetc (k : CoreId) (d : BitVec 5) (a : BitVec 5) (b : BitVec 5)
  /-- CADD, R61 -/
  | cadd (k : CoreId) (d : BitVec 5) (a : BitVec 5) (b : BitVec 5)
  /-- CGET, R61 -/
  | cget (k : CoreId) (d : BitVec 5) (a : BitVec 5) (sel : BitVec 5)
  /-- CEQ, R61 -/
  | ceq (k : CoreId) (d : BitVec 5) (a : BitVec 5) (b : BitVec 5)
  /-- CPROBE, R64 -/
  | cprobe (k : CoreId) (d : BitVec 5) (a : BitVec 5) (b : BitVec 5)
  /-- CCLRT, R61 -/
  | cclrt (k : CoreId) (d : BitVec 5) (a : BitVec 5)
  /-- CPACK, R61 -/
  | cpack (k : CoreId) (d : BitVec 5) (a : BitVec 5) (b : BitVec 5)
  /-- CADDI, R61 -/
  | caddi (k : CoreId) (d : BitVec 5) (a : BitVec 5) (imm : BitVec 12)
  /-- CLIPI, R61 -/
  | clipi (k : CoreId) (d : BitVec 5) (a : BitVec 5) (imm : BitVec 12)
  /-- MINT, R81 -/
  | mint (k : CoreId) (d : BitVec 5) (a : BitVec 5) (b : BitVec 5)
  /-- RECALL, R86 -/
  | recall (k : CoreId) (d : BitVec 5) (a : BitVec 5) (b : BitVec 5)
  /-- RECALLF, R86 -/
  | recallf (k : CoreId) (d : BitVec 5) (a : BitVec 5) (b : BitVec 5)
  /-- RECALLI, R86 -/
  | recalli (k : CoreId) (d : BitVec 5) (a : BitVec 5)
  /-- RECALLIF, R86 -/
  | recallif (k : CoreId) (d : BitVec 5) (a : BitVec 5)
  /-- LD, R112 -/
  | ld (k : CoreId) (r : BitVec 5) (cb : BitVec 5) (size : BitVec 3) (disp : BitVec 12)
  /-- ST, R112 -/
  | st (k : CoreId) (r : BitVec 5) (cb : BitVec 5) (size : BitVec 3) (disp : BitVec 12)
  /-- LDF, R112 -/
  | ldf (k : CoreId) (r : BitVec 5) (cb : BitVec 5) (size : BitVec 3) (disp : BitVec 12)
  /-- STF, R112 -/
  | stf (k : CoreId) (r : BitVec 5) (cb : BitVec 5) (size : BitVec 3) (disp : BitVec 12)
  /-- LX, R111 -/
  | lx (k : CoreId) (r : BitVec 5) (cb : BitVec 5) (gx : BitVec 5) (size : BitVec 3) (mode : BitVec 3) (file : BitVec 2) (order : BitVec 2)
  /-- SX, R111 -/
  | sx (k : CoreId) (r : BitVec 5) (cb : BitVec 5) (gx : BitVec 5) (size : BitVec 3) (mode : BitVec 3) (file : BitVec 2) (order : BitVec 2)
  /-- SWP, R114 -/
  | swp (k : CoreId) (d : BitVec 5) (cb : BitVec 5) (gs : BitVec 5) (w : Bool) (order : BitVec 2)
  /-- CAS, R114 -/
  | cas (k : CoreId) (d : BitVec 5) (cb : BitVec 5) (gs : BitVec 5) (w : Bool) (order : BitVec 2)
  /-- FADD, R114 -/
  | fadd (k : CoreId) (d : BitVec 5) (cb : BitVec 5) (gs : BitVec 5) (w : Bool) (order : BitVec 2)
  /-- FAND, R114 -/
  | fand (k : CoreId) (d : BitVec 5) (cb : BitVec 5) (gs : BitVec 5) (w : Bool) (order : BitVec 2)
  /-- FOR, R114 -/
  | fOr (k : CoreId) (d : BitVec 5) (cb : BitVec 5) (gs : BitVec 5) (w : Bool) (order : BitVec 2)
  /-- FXOR, R114 -/
  | fxor (k : CoreId) (d : BitVec 5) (cb : BitVec 5) (gs : BitVec 5) (w : Bool) (order : BitVec 2)
  /-- FMAX, R114 -/
  | fmax (k : CoreId) (d : BitVec 5) (cb : BitVec 5) (gs : BitVec 5) (w : Bool) (order : BitVec 2)
  /-- FMIN, R114 -/
  | fmin (k : CoreId) (d : BitVec 5) (cb : BitVec 5) (gs : BitVec 5) (w : Bool) (order : BitVec 2)
  /-- LOAD_DATA_RETURN, R197 -/
  | loadDataReturn (k : CoreId) (idx : Nat)
  /-- LONG_OP_COMPLETE, R152 -/
  | longOpComplete (k : CoreId) (idx : Nat)
  /-- STORE_BUFFER_DRAIN, R259 -/
  | storeBufferDrain (k : CoreId) (idx : Nat)
  /-- WRITE_NOTICE, R473 -/
  | writeNotice (k : CoreId)
  /-- PTE_MARK, R244 -/
  | pteMark (ea : Nat) (write : Bool)
  /-- ADD, R108 -/
  | add (k : CoreId) (d : BitVec 5) (a : BitVec 5) (b : BitVec 5)
  /-- SUB, R108 -/
  | sub (k : CoreId) (d : BitVec 5) (a : BitVec 5) (b : BitVec 5)
  /-- AND, R108 -/
  | andI (k : CoreId) (d : BitVec 5) (a : BitVec 5) (b : BitVec 5)
  /-- OR, R108 -/
  | orI (k : CoreId) (d : BitVec 5) (a : BitVec 5) (b : BitVec 5)
  /-- XOR, R108 -/
  | xorI (k : CoreId) (d : BitVec 5) (a : BitVec 5) (b : BitVec 5)
  /-- ANDN, R108 -/
  | andn (k : CoreId) (d : BitVec 5) (a : BitVec 5) (b : BitVec 5)
  /-- SHL, R108 -/
  | shl (k : CoreId) (d : BitVec 5) (a : BitVec 5) (b : BitVec 5)
  /-- SHR, R108 -/
  | shr (k : CoreId) (d : BitVec 5) (a : BitVec 5) (b : BitVec 5)
  /-- SAR, R108 -/
  | sar (k : CoreId) (d : BitVec 5) (a : BitVec 5) (b : BitVec 5)
  /-- ROL, R108 -/
  | rol (k : CoreId) (d : BitVec 5) (a : BitVec 5) (b : BitVec 5)
  /-- ROR, R108 -/
  | ror (k : CoreId) (d : BitVec 5) (a : BitVec 5) (b : BitVec 5)
  /-- SEQ, R108 -/
  | seq (k : CoreId) (d : BitVec 5) (a : BitVec 5) (b : BitVec 5)
  /-- SNE, R108 -/
  | sne (k : CoreId) (d : BitVec 5) (a : BitVec 5) (b : BitVec 5)
  /-- SLT, R108 -/
  | slt (k : CoreId) (d : BitVec 5) (a : BitVec 5) (b : BitVec 5)
  /-- SLTU, R108 -/
  | sltu (k : CoreId) (d : BitVec 5) (a : BitVec 5) (b : BitVec 5)
  /-- SGE, R108 -/
  | sge (k : CoreId) (d : BitVec 5) (a : BitVec 5) (b : BitVec 5)
  /-- SGEU, R108 -/
  | sgeu (k : CoreId) (d : BitVec 5) (a : BitVec 5) (b : BitVec 5)
  /-- MOVZ, R108 -/
  | movz (k : CoreId) (d : BitVec 5) (a : BitVec 5) (b : BitVec 5)
  /-- MOVNZ, R108 -/
  | movnz (k : CoreId) (d : BitVec 5) (a : BitVec 5) (b : BitVec 5)
  /-- CLZ, R108 -/
  | clz (k : CoreId) (d : BitVec 5) (a : BitVec 5) (b : BitVec 5)
  /-- CTZ, R108 -/
  | ctz (k : CoreId) (d : BitVec 5) (a : BitVec 5) (b : BitVec 5)
  /-- POPC, R108 -/
  | popc (k : CoreId) (d : BitVec 5) (a : BitVec 5) (b : BitVec 5)
  /-- ADDI, R109 -/
  | addi (k : CoreId) (d : BitVec 5) (a : BitVec 5) (imm : BitVec 12)
  /-- ANDI, R109 -/
  | andi (k : CoreId) (d : BitVec 5) (a : BitVec 5) (imm : BitVec 12)
  /-- ORI, R109 -/
  | ori (k : CoreId) (d : BitVec 5) (a : BitVec 5) (imm : BitVec 12)
  /-- XORI, R109 -/
  | xori (k : CoreId) (d : BitVec 5) (a : BitVec 5) (imm : BitVec 12)
  /-- SLTI, R109 -/
  | slti (k : CoreId) (d : BitVec 5) (a : BitVec 5) (imm : BitVec 12)
  /-- SLTIU, R109 -/
  | sltiu (k : CoreId) (d : BitVec 5) (a : BitVec 5) (imm : BitVec 12)
  /-- SHLI, R109 -/
  | shli (k : CoreId) (d : BitVec 5) (a : BitVec 5) (sh : BitVec 6)
  /-- SHRI, R109 -/
  | shri (k : CoreId) (d : BitVec 5) (a : BitVec 5) (sh : BitVec 6)
  /-- SARI, R109 -/
  | sari (k : CoreId) (d : BitVec 5) (a : BitVec 5) (sh : BitVec 6)
  /-- RORI, R109 -/
  | rori (k : CoreId) (d : BitVec 5) (a : BitVec 5) (sh : BitVec 6)
  /-- SEQI, R109 -/
  | seqi (k : CoreId) (d : BitVec 5) (a : BitVec 5) (imm : BitVec 12)
  /-- LUI, R109 -/
  | lui (k : CoreId) (d : BitVec 5) (imm : BitVec 20)
  /-- PFX, R107 -/
  | pfx (k : CoreId) (imm : BitVec 25)
  /-- BEQ, R110 -/
  | beq (k : CoreId) (a : BitVec 5) (b : BitVec 5) (disp : BitVec 12)
  /-- BNE, R110 -/
  | bne (k : CoreId) (a : BitVec 5) (b : BitVec 5) (disp : BitVec 12)
  /-- BLT, R110 -/
  | blt (k : CoreId) (a : BitVec 5) (b : BitVec 5) (disp : BitVec 12)
  /-- BGE, R110 -/
  | bge (k : CoreId) (a : BitVec 5) (b : BitVec 5) (disp : BitVec 12)
  /-- BLTU, R110 -/
  | bltu (k : CoreId) (a : BitVec 5) (b : BitVec 5) (disp : BitVec 12)
  /-- BGEU, R110 -/
  | bgeu (k : CoreId) (a : BitVec 5) (b : BitVec 5) (disp : BitVec 12)
  /-- JMP, R117 -/
  | jmp (k : CoreId) (disp : BitVec 24)
  /-- CALL, R117 -/
  | call (k : CoreId) (disp : BitVec 24)
  /-- JMPC, R117 -/
  | jmpc (k : CoreId) (cb : BitVec 5)
  /-- CALLC, R117 -/
  | callc (k : CoreId) (cb : BitVec 5)
  /-- JMPR, R117 -/
  | jmpr (k : CoreId) (a : BitVec 5)
  /-- CALLR, R117 -/
  | callr (k : CoreId) (a : BitVec 5)
  /-- RET, R117 -/
  | ret (k : CoreId)
  /-- CALLG, R185 -/
  | callg (k : CoreId) (cb : BitVec 5)
  /-- LOOP, R120 -/
  | loopG (k : CoreId) (a : BitVec 5) (len : BitVec 10)
  /-- LOOPI, R120 -/
  | loopi (k : CoreId) (count : BitVec 8) (len : BitVec 10)
  /-- LEXIT, R121 -/
  | lexit (k : CoreId)
  /-- MFS, R101 -/
  | mfs (k : CoreId) (d : BitVec 5) (idx : BitVec 12)
  /-- MTS, R101 -/
  | mts (k : CoreId) (idx : BitVec 12) (a : BitVec 5)
  /-- MFSC, R101 -/
  | mfsc (k : CoreId) (d : BitVec 5) (idx : BitVec 12)
  /-- MTSC, R101 -/
  | mtsc (k : CoreId) (idx : BitVec 12) (a : BitVec 5)
  /-- NOP, R106 -/
  | nop (k : CoreId)
  /-- WAIT, R229 -/
  | wait (k : CoreId)
  /-- TRET, R202 -/
  | tret (k : CoreId)
  /-- BRK, R106 -/
  | brk (k : CoreId)
  /-- ABAR, R155 -/
  | abar (k : CoreId)
  /-- SAVEU, R127 -/
  | saveu (k : CoreId)
  /-- SAVEL, R127 -/
  | savel (k : CoreId)
  /-- RESTU, R127 -/
  | restu (k : CoreId)
  /-- RESTL, R127 -/
  | restl (k : CoreId)
  /-- FENCE_LL, R255 -/
  | fenceLl (k : CoreId)
  /-- FENCE_LS, R255 -/
  | fenceLs (k : CoreId)
  /-- FENCE_SL, R255 -/
  | fenceSl (k : CoreId)
  /-- FENCE_SS, R255 -/
  | fenceSs (k : CoreId)
  /-- FENCE_ALL, R255 -/
  | fenceAll (k : CoreId)
  /-- PREF, R128 -/
  | pref (k : CoreId) (cb : BitVec 5)
  /-- PREFW, R128 -/
  | prefw (k : CoreId) (cb : BitVec 5)
  /-- CCLEAN, R128 -/
  | cclean (k : CoreId) (cb : BitVec 5)
  /-- CFLUSH, R128 -/
  | cflush (k : CoreId) (cb : BitVec 5)
  /-- CZERO, R128 -/
  | czero (k : CoreId) (cb : BitVec 5)
  /-- INVTLB_ALL, R251 -/
  | invtlbAll (k : CoreId)
  /-- INVTLB_ASID, R251 -/
  | invtlbAsid (k : CoreId) (a : BitVec 5)
  /-- INVTLB_PAGE, R251 -/
  | invtlbPage (k : CoreId) (a : BitVec 5) (b : BitVec 5)
  /-- INVTLB_NG, R251 -/
  | invtlbNg (k : CoreId)
  /-- ICSYNC, R129 -/
  | icsync (k : CoreId)
  /-- BMOV, R123 -/
  | bmov (k : CoreId) (a : BitVec 5) (b : BitVec 5) (n : BitVec 5) (esize : BitVec 3) (desc : Bool) (upto : Nat)
  /-- BFILL, R123 -/
  | bfill (k : CoreId) (a : BitVec 5) (b : BitVec 5) (n : BitVec 5) (esize : BitVec 3) (desc : Bool) (upto : Nat)
  /-- BCMP, R123 -/
  | bcmp (k : CoreId) (a : BitVec 5) (b : BitVec 5) (n : BitVec 5) (esize : BitVec 3) (desc : Bool) (upto : Nat)
  /-- BSCAN, R123 -/
  | bscan (k : CoreId) (a : BitVec 5) (b : BitVec 5) (n : BitVec 5) (esize : BitVec 3) (desc : Bool) (neg : Bool) (upto : Nat)
  /-- ADC, R135 -/
  | adc (k : CoreId) (d : BitVec 5) (a : BitVec 5) (b : BitVec 5) (f3 : BitVec 3)
  /-- SBC, R135 -/
  | sbc (k : CoreId) (d : BitVec 5) (a : BitVec 5) (b : BitVec 5) (f3 : BitVec 3)
  /-- MUL, R135 -/
  | mul (k : CoreId) (d : BitVec 5) (a : BitVec 5) (b : BitVec 5)
  /-- MULW, R135 -/
  | mulw (k : CoreId) (d : BitVec 5) (a : BitVec 5) (b : BitVec 5)
  /-- MULWU, R135 -/
  | mulwu (k : CoreId) (d : BitVec 5) (a : BitVec 5) (b : BitVec 5)
  /-- DIV, R136 -/
  | div (k : CoreId) (d : BitVec 5) (a : BitVec 5) (b : BitVec 5)
  /-- DIVU, R136 -/
  | divu (k : CoreId) (d : BitVec 5) (a : BitVec 5) (b : BitVec 5)
  /-- REM, R136 -/
  | rem (k : CoreId) (d : BitVec 5) (a : BitVec 5) (b : BitVec 5)
  /-- REMU, R136 -/
  | remu (k : CoreId) (d : BitVec 5) (a : BitVec 5) (b : BitVec 5)
  /-- DADDU, R139 -/
  | daddu (k : CoreId) (d : BitVec 5) (a : BitVec 5) (b : BitVec 5) (f3 : BitVec 3)
  /-- DSUBU, R139 -/
  | dsubu (k : CoreId) (d : BitVec 5) (a : BitVec 5) (b : BitVec 5) (f3 : BitVec 3)
  /-- DADD, R139 -/
  | dadd (k : CoreId) (d : BitVec 5) (a : BitVec 5) (b : BitVec 5)
  /-- DSUB, R139 -/
  | dsub (k : CoreId) (d : BitVec 5) (a : BitVec 5) (b : BitVec 5)
  /-- DADDQ, R139 -/
  | daddq (k : CoreId) (d : BitVec 5) (a : BitVec 5) (b : BitVec 5)
  /-- DSUBQ, R139 -/
  | dsubq (k : CoreId) (d : BitVec 5) (a : BitVec 5) (b : BitVec 5)
  /-- DADJ, R140 -/
  | dadj (k : CoreId) (d : BitVec 5) (a : BitVec 5) (b : BitVec 5) (f3 : BitVec 3)
  /-- DMULW, R139 -/
  | dmulw (k : CoreId) (d : BitVec 5) (a : BitVec 5) (b : BitVec 5) (f3 : BitVec 3)
  /-- DSHL, R139 -/
  | dshl (k : CoreId) (d : BitVec 5) (a : BitVec 5) (b : BitVec 5) (f3 : BitVec 3)
  /-- DSHR, R139 -/
  | dshr (k : CoreId) (d : BitVec 5) (a : BitVec 5) (b : BitVec 5) (f3 : BitVec 3)
  /-- DCMP, R139 -/
  | dcmp (k : CoreId) (d : BitVec 5) (a : BitVec 5) (b : BitVec 5) (f3 : BitVec 3)
  /-- DCMPQ, R139 -/
  | dcmpq (k : CoreId) (d : BitVec 5) (a : BitVec 5) (b : BitVec 5) (f3 : BitVec 3)
  /-- DPACK, R139 -/
  | dpack (k : CoreId) (d : BitVec 5) (a : BitVec 5) (b : BitVec 5)
  /-- DUNPK, R139 -/
  | dunpk (k : CoreId) (d : BitVec 5) (a : BitVec 5) (b : BitVec 5)
  /-- DCVTB, R139 -/
  | dcvtb (k : CoreId) (d : BitVec 5) (a : BitVec 5) (f3 : BitVec 3)
  /-- DCVTD, R139 -/
  | dcvtd (k : CoreId) (d : BitVec 5) (a : BitVec 5) (f3 : BitVec 3)
  /-- DCHK, R139 -/
  | dchk (k : CoreId) (d : BitVec 5) (a : BitVec 5) (f3 : BitVec 3)
  /-- FP_ADD, R146 -/
  | fpAdd (k : CoreId) (dec : Bool) (fmt : BitVec 2) (d : BitVec 5) (a : BitVec 5) (b : BitVec 5) (f3 : BitVec 3)
  /-- FP_SUB, R146 -/
  | fpSub (k : CoreId) (dec : Bool) (fmt : BitVec 2) (d : BitVec 5) (a : BitVec 5) (b : BitVec 5) (f3 : BitVec 3)
  /-- FP_MUL, R146 -/
  | fpMul (k : CoreId) (dec : Bool) (fmt : BitVec 2) (d : BitVec 5) (a : BitVec 5) (b : BitVec 5) (f3 : BitVec 3)
  /-- FP_DIV, R146 -/
  | fpDiv (k : CoreId) (dec : Bool) (fmt : BitVec 2) (d : BitVec 5) (a : BitVec 5) (b : BitVec 5) (f3 : BitVec 3)
  /-- FP_SQRT, R146 -/
  | fpSqrt (k : CoreId) (dec : Bool) (fmt : BitVec 2) (d : BitVec 5) (a : BitVec 5) (f3 : BitVec 3)
  /-- FP_MIN, R146 -/
  | fpMin (k : CoreId) (dec : Bool) (fmt : BitVec 2) (d : BitVec 5) (a : BitVec 5) (b : BitVec 5)
  /-- FP_MAX, R146 -/
  | fpMax (k : CoreId) (dec : Bool) (fmt : BitVec 2) (d : BitVec 5) (a : BitVec 5) (b : BitVec 5)
  /-- FP_CEQ, R146 -/
  | fpCeq (k : CoreId) (dec : Bool) (fmt : BitVec 2) (d : BitVec 5) (a : BitVec 5) (b : BitVec 5)
  /-- FP_CLT, R146 -/
  | fpClt (k : CoreId) (dec : Bool) (fmt : BitVec 2) (d : BitVec 5) (a : BitVec 5) (b : BitVec 5)
  /-- FP_CLE, R146 -/
  | fpCle (k : CoreId) (dec : Bool) (fmt : BitVec 2) (d : BitVec 5) (a : BitVec 5) (b : BitVec 5)
  /-- FP_CUN, R146 -/
  | fpCun (k : CoreId) (dec : Bool) (fmt : BitVec 2) (d : BitVec 5) (a : BitVec 5) (b : BitVec 5)
  /-- FP_CLASS, R146 -/
  | fpClass (k : CoreId) (dec : Bool) (fmt : BitVec 2) (d : BitVec 5) (a : BitVec 5)
  /-- FP_CVTW, R146 -/
  | fpCvtw (k : CoreId) (dec : Bool) (fmt : BitVec 2) (d : BitVec 5) (a : BitVec 5) (f3 : BitVec 3)
  /-- FP_CVTX, R146 -/
  | fpCvtx (k : CoreId) (dec : Bool) (fmt : BitVec 2) (d : BitVec 5) (a : BitVec 5) (sel : BitVec 5) (f3 : BitVec 3)
  /-- FP_CVTI, R146 -/
  | fpCvti (k : CoreId) (dec : Bool) (fmt : BitVec 2) (d : BitVec 5) (a : BitVec 5) (f3 : BitVec 3)
  /-- FP_CVTFI, R146 -/
  | fpCvtfi (k : CoreId) (dec : Bool) (fmt : BitVec 2) (d : BitVec 5) (a : BitVec 5) (f3 : BitVec 3)
  /-- FP_RINT, R146 -/
  | fpRint (k : CoreId) (dec : Bool) (fmt : BitVec 2) (d : BitVec 5) (a : BitVec 5) (f3 : BitVec 3)
  /-- FP_QUANTIZE, R146 -/
  | fpQuantize (k : CoreId) (fmt : BitVec 2) (d : BitVec 5) (a : BitVec 5) (b : BitVec 5) (f3 : BitVec 3)
  /-- FP_SAMEQ, R146 -/
  | fpSameq (k : CoreId) (fmt : BitVec 2) (d : BitVec 5) (a : BitVec 5) (b : BitVec 5)
  /-- FP_SGN, R146 -/
  | fpSgn (k : CoreId) (dec : Bool) (fmt : BitVec 2) (d : BitVec 5) (a : BitVec 5) (b : BitVec 5) (f3 : BitVec 3)
  /-- FP_MVG, R146 -/
  | fpMvg (k : CoreId) (dec : Bool) (fmt : BitVec 2) (d : BitVec 5) (a : BitVec 5)
  /-- FP_MVF, R146 -/
  | fpMvf (k : CoreId) (dec : Bool) (fmt : BitVec 2) (d : BitVec 5) (a : BitVec 5)
  /-- FP_TOPACK, R146 -/
  | fpTopack (k : CoreId) (fmt : BitVec 2) (d : BitVec 5) (a : BitVec 5) (b : BitVec 5) (f3 : BitVec 3)
  /-- FP_FROMPACK, R146 -/
  | fpFrompack (k : CoreId) (fmt : BitVec 2) (d : BitVec 5) (a : BitVec 5) (b : BitVec 5) (f3 : BitVec 3)
  /-- FMADD, R147 -/
  | fmadd (k : CoreId) (fmt : BitVec 2) (d : BitVec 5) (a : BitVec 5) (b : BitVec 5) (f3 : BitVec 3)
  /-- FMSUB, R147 -/
  | fmsub (k : CoreId) (fmt : BitVec 2) (d : BitVec 5) (a : BitVec 5) (b : BitVec 5) (f3 : BitVec 3)
  /-- FNMSUB, R147 -/
  | fnmsub (k : CoreId) (fmt : BitVec 2) (d : BitVec 5) (a : BitVec 5) (b : BitVec 5) (f3 : BitVec 3)
  /-- FNMADD, R147 -/
  | fnmadd (k : CoreId) (fmt : BitVec 2) (d : BitVec 5) (a : BitVec 5) (b : BitVec 5) (f3 : BitVec 3)
  /-- VLD, R169 -/
  | vld (k : CoreId) (d : BitVec 5) (cb : BitVec 5) (mask : BitVec 3)
  /-- VLDP, R163 -/
  | vldp (k : CoreId) (d : BitVec 5) (cb : BitVec 5) (mask : BitVec 3)
  /-- VLDS, R163 -/
  | vlds (k : CoreId) (d : BitVec 5) (cb : BitVec 5) (b : BitVec 5) (mask : BitVec 3)
  /-- VLDX, R163 -/
  | vldx (k : CoreId) (d : BitVec 5) (cb : BitVec 5) (b : BitVec 5) (mask : BitVec 3)
  /-- VST, R170 -/
  | vst (k : CoreId) (d : BitVec 5) (cb : BitVec 5) (mask : BitVec 3)
  /-- VSTP, R163 -/
  | vstp (k : CoreId) (d : BitVec 5) (cb : BitVec 5) (mask : BitVec 3)
  /-- VSTS, R163 -/
  | vsts (k : CoreId) (d : BitVec 5) (cb : BitVec 5) (b : BitVec 5) (mask : BitVec 3)
  /-- VSTX, R163 -/
  | vstx (k : CoreId) (d : BitVec 5) (cb : BitVec 5) (b : BitVec 5) (mask : BitVec 3)
  /-- VLDM, R163 -/
  | vldm (k : CoreId) (d : BitVec 5) (cb : BitVec 5)
  /-- VSTM, R163 -/
  | vstm (k : CoreId) (d : BitVec 5) (cb : BitVec 5)
  /-- VSETVL, R165 -/
  | vsetvl (k : CoreId) (d : BitVec 5) (a : BitVec 5) (sew : BitVec 5) (md : BitVec 3)
  /-- VSPLAT, R163 -/
  | vsplat (k : CoreId) (d : BitVec 5) (a : BitVec 5) (mask : BitVec 3)
  /-- VINS, R163 -/
  | vins (k : CoreId) (d : BitVec 5) (a : BitVec 5) (b : BitVec 5) (mask : BitVec 3)
  /-- VEXT, R163 -/
  | vext (k : CoreId) (d : BitVec 5) (a : BitVec 5) (b : BitVec 5)
  /-- VMV, R163 -/
  | vmv (k : CoreId) (d : BitVec 5) (a : BitVec 5) (mask : BitVec 3)
  /-- VSLDN, R163 -/
  | vsldn (k : CoreId) (d : BitVec 5) (a : BitVec 5) (b : BitVec 5) (mask : BitVec 3)
  /-- VSLUP, R163 -/
  | vslup (k : CoreId) (d : BitVec 5) (a : BitVec 5) (b : BitVec 5) (mask : BitVec 3)
  /-- VRELEASE, R183 -/
  | vrelease (k : CoreId)
  /-- VADD, R163 -/
  | vadd (k : CoreId) (d : BitVec 5) (a : BitVec 5) (b : BitVec 5) (mask : BitVec 3)
  /-- VSUB, R163 -/
  | vsub (k : CoreId) (d : BitVec 5) (a : BitVec 5) (b : BitVec 5) (mask : BitVec 3)
  /-- VMUL, R163 -/
  | vmul (k : CoreId) (d : BitVec 5) (a : BitVec 5) (b : BitVec 5) (mask : BitVec 3)
  /-- VMULWL, R166 -/
  | vmulwl (k : CoreId) (d : BitVec 5) (a : BitVec 5) (b : BitVec 5) (mask : BitVec 3)
  /-- VMULWH, R166 -/
  | vmulwh (k : CoreId) (d : BitVec 5) (a : BitVec 5) (b : BitVec 5) (mask : BitVec 3)
  /-- VMULWLU, R166 -/
  | vmulwlu (k : CoreId) (d : BitVec 5) (a : BitVec 5) (b : BitVec 5) (mask : BitVec 3)
  /-- VMULWHU, R166 -/
  | vmulwhu (k : CoreId) (d : BitVec 5) (a : BitVec 5) (b : BitVec 5) (mask : BitVec 3)
  /-- VDOT4, R166 -/
  | vdot4 (k : CoreId) (d : BitVec 5) (a : BitVec 5) (b : BitVec 5) (mask : BitVec 3)
  /-- VAND, R163 -/
  | vand (k : CoreId) (d : BitVec 5) (a : BitVec 5) (b : BitVec 5) (mask : BitVec 3)
  /-- VOR, R163 -/
  | vor (k : CoreId) (d : BitVec 5) (a : BitVec 5) (b : BitVec 5) (mask : BitVec 3)
  /-- VXOR, R163 -/
  | vxor (k : CoreId) (d : BitVec 5) (a : BitVec 5) (b : BitVec 5) (mask : BitVec 3)
  /-- VSHL, R163 -/
  | vshl (k : CoreId) (d : BitVec 5) (a : BitVec 5) (b : BitVec 5) (mask : BitVec 3)
  /-- VSHR, R163 -/
  | vshr (k : CoreId) (d : BitVec 5) (a : BitVec 5) (b : BitVec 5) (mask : BitVec 3)
  /-- VSAR, R163 -/
  | vsar (k : CoreId) (d : BitVec 5) (a : BitVec 5) (b : BitVec 5) (mask : BitVec 3)
  /-- VMIN, R163 -/
  | vmin (k : CoreId) (d : BitVec 5) (a : BitVec 5) (b : BitVec 5) (mask : BitVec 3)
  /-- VMAX, R163 -/
  | vmax (k : CoreId) (d : BitVec 5) (a : BitVec 5) (b : BitVec 5) (mask : BitVec 3)
  /-- VMINU, R163 -/
  | vminu (k : CoreId) (d : BitVec 5) (a : BitVec 5) (b : BitVec 5) (mask : BitVec 3)
  /-- VMAXU, R163 -/
  | vmaxu (k : CoreId) (d : BitVec 5) (a : BitVec 5) (b : BitVec 5) (mask : BitVec 3)
  /-- VADDSAT, R163 -/
  | vaddsat (k : CoreId) (d : BitVec 5) (a : BitVec 5) (b : BitVec 5) (mask : BitVec 3)
  /-- VCMPEQ, R163 -/
  | vcmpeq (k : CoreId) (d : BitVec 5) (a : BitVec 5) (b : BitVec 5) (mask : BitVec 3)
  /-- VCMPLT, R163 -/
  | vcmplt (k : CoreId) (d : BitVec 5) (a : BitVec 5) (b : BitVec 5) (mask : BitVec 3)
  /-- VCMPLTU, R163 -/
  | vcmpltu (k : CoreId) (d : BitVec 5) (a : BitVec 5) (b : BitVec 5) (mask : BitVec 3)
  /-- VREDADD, R163 -/
  | vredadd (k : CoreId) (d : BitVec 5) (a : BitVec 5) (b : BitVec 5) (mask : BitVec 3)
  /-- VREDMAX, R163 -/
  | vredmax (k : CoreId) (d : BitVec 5) (a : BitVec 5) (b : BitVec 5) (mask : BitVec 3)
  /-- VFADD, R167 -/
  | vfadd (k : CoreId) (d : BitVec 5) (a : BitVec 5) (b : BitVec 5) (mask : BitVec 3)
  /-- VFSUB, R167 -/
  | vfsub (k : CoreId) (d : BitVec 5) (a : BitVec 5) (b : BitVec 5) (mask : BitVec 3)
  /-- VFMUL, R167 -/
  | vfmul (k : CoreId) (d : BitVec 5) (a : BitVec 5) (b : BitVec 5) (mask : BitVec 3)
  /-- VFMADD, R167 -/
  | vfmadd (k : CoreId) (d : BitVec 5) (a : BitVec 5) (b : BitVec 5) (mask : BitVec 3)
  /-- VFMIN, R167 -/
  | vfmin (k : CoreId) (d : BitVec 5) (a : BitVec 5) (b : BitVec 5) (mask : BitVec 3)
  /-- VFMAX, R167 -/
  | vfmax (k : CoreId) (d : BitVec 5) (a : BitVec 5) (b : BitVec 5) (mask : BitVec 3)
  /-- VFCMPEQ, R167 -/
  | vfcmpeq (k : CoreId) (d : BitVec 5) (a : BitVec 5) (b : BitVec 5) (mask : BitVec 3)
  /-- VFCMPLT, R167 -/
  | vfcmplt (k : CoreId) (d : BitVec 5) (a : BitVec 5) (b : BitVec 5) (mask : BitVec 3)
  /-- VDOT2H, R166 -/
  | vdot2h (k : CoreId) (d : BitVec 5) (a : BitVec 5) (b : BitVec 5) (mask : BitVec 3)
  /-- VFWIDEN, R166 -/
  | vfwiden (k : CoreId) (d : BitVec 5) (a : BitVec 5) (h : BitVec 5) (mask : BitVec 3)
  /-- VFCVTI, R163 -/
  | vfcvti (k : CoreId) (d : BitVec 5) (a : BitVec 5) (mask : BitVec 3)
  /-- VFCVTFI, R163 -/
  | vfcvtfi (k : CoreId) (d : BitVec 5) (a : BitVec 5) (mask : BitVec 3)
  /-- VDADD, R167 -/
  | vdadd (k : CoreId) (d : BitVec 5) (a : BitVec 5) (b : BitVec 5) (mask : BitVec 3)
  /-- VDSUB, R167 -/
  | vdsub (k : CoreId) (d : BitVec 5) (a : BitVec 5) (b : BitVec 5) (mask : BitVec 3)
  /-- VDMUL, R167 -/
  | vdmul (k : CoreId) (d : BitVec 5) (a : BitVec 5) (b : BitVec 5) (mask : BitVec 3)
  /-- VDFMA, R167 -/
  | vdfma (k : CoreId) (d : BitVec 5) (a : BitVec 5) (b : BitVec 5) (mask : BitVec 3)
  /-- VDQUANT, R167 -/
  | vdquant (k : CoreId) (d : BitVec 5) (a : BitVec 5) (b : BitVec 5) (mask : BitVec 3)
  /-- VDCMPEQ, R167 -/
  | vdcmpeq (k : CoreId) (d : BitVec 5) (a : BitVec 5) (b : BitVec 5) (mask : BitVec 3)
  /-- VDCMPLT, R167 -/
  | vdcmplt (k : CoreId) (d : BitVec 5) (a : BitVec 5) (b : BitVec 5) (mask : BitVec 3)
  /-- VDFROMI, R163 -/
  | vdfromi (k : CoreId) (d : BitVec 5) (a : BitVec 5) (mask : BitVec 3)
  /-- MAND, R163 -/
  | mand (k : CoreId) (d : BitVec 5) (a : BitVec 5) (b : BitVec 5)
  /-- MOR, R163 -/
  | mor (k : CoreId) (d : BitVec 5) (a : BitVec 5) (b : BitVec 5)
  /-- MXOR, R163 -/
  | mxor (k : CoreId) (d : BitVec 5) (a : BitVec 5) (b : BitVec 5)
  /-- MANDN, R163 -/
  | mandn (k : CoreId) (d : BitVec 5) (a : BitVec 5) (b : BitVec 5)
  /-- MPOPC, R163 -/
  | mpopc (k : CoreId) (d : BitVec 5) (a : BitVec 5)
  /-- MFIRST, R163 -/
  | mfirst (k : CoreId) (d : BitVec 5) (a : BitVec 5)
  /-- MMVG, R163 -/
  | mmvg (k : CoreId) (d : BitVec 5) (a : BitVec 5) (b : BitVec 5)
  /-- MMVM, R163 -/
  | mmvm (k : CoreId) (d : BitVec 5) (a : BitVec 5) (b : BitVec 5)
  /-- TRAP_ENTRY, R195 -/
  | trapEntry (k : CoreId) (word : Option (BitVec 32) := none)
  /-- DBH_RING, R216 -/
  | dbhRing (v : Word)
  /-- DBH_TICK_FIRE, R216 -/
  | dbhTickFire (x : Nat)
  /-- DBH_PEND, R216 -/
  | dbhPend (v : Word)
  /-- DBH_UNPEND, R225 -/
  | dbhUnpend (v : Word)
  /-- DBH_PPEND_WRITE, R213 -/
  | dbhPpendWrite (k : CoreId) (v : Word)
  /-- DBH_IPI, R233 -/
  | dbhIpi (v : Word)
  /-- DBH_CLAIM, R218 -/
  | dbhClaim (k : CoreId)
  /-- DBH_CLAIMG, R218 -/
  | dbhClaimg (k : CoreId)
  /-- DBH_CLAIMN, R218 -/
  | dbhClaimn (k : CoreId)
  /-- DBH_PEEK, R218 -/
  | dbhPeek (k : CoreId)
  /-- DBH_DONE, R220 -/
  | dbhDone (k : CoreId) (v : Word)
  /-- DBH_SRC_WRITE, R222 -/
  | dbhSrcWrite (x : Nat) (v : Word)
  /-- DBH_HOLD_WRITE, R223 -/
  | dbhHoldWrite (v : Word)
  /-- DBH_TCTL_WRITE, R232 -/
  | dbhTctlWrite (k : CoreId) (v : Word)
  /-- DBH_TIMER_FIRE, R232 -/
  | dbhTimerFire (k : CoreId) (n : Fin 2)
  /-- INTERRUPT_LINE_CHANGE, R217 -/
  | interruptLineChange (k : CoreId)
  /-- COHERENT_REQUEST, R263 -/
  | coherentRequest (unit : Nat) (a : Nat) (excl : Bool)
  /-- SNOOP, R280 -/
  | snoop (cluster : Idx16) (a : Nat)
  /-- PATROL_SCRUB_READ, R284 -/
  | patrolScrubRead (n : Idx16) (a : Nat) (found : ScrubFind) (last : Bool)
  /-- DDR_INIT_PASS, R273 -/
  | ddrInitPass (n : Idx16) (upto : Nat)
  /-- PARTITION_ENABLE, R279 -/
  | partitionEnable (n : Idx16) (v : Word)
  /-- PARTITION_FILL_DONE, R279 -/
  | partitionFillDone (n : Idx16)
  /-- PARTITION_RELEASE, R279 -/
  | partitionRelease (n : Idx16) (v : Word)
  /-- PARTITION_RELEASE_DONE, R279 -/
  | partitionReleaseDone (n : Idx16)
  /-- CXL_REGION_ENABLE, R271 -/
  | cxlRegionEnable (n : Idx16) (region : Idx16) (v : Word)
  /-- CXL_REGION_READY, R271 -/
  | cxlRegionReady (n : Idx16) (region : Idx16) (cap : Nat := 0)
  /-- CXL_REGION_DISABLE, R271 -/
  | cxlRegionDisable (n : Idx16) (region : Idx16) (v : Word)
  /-- MEM_COPY_GO, R285 -/
  | memCopyGo (n : Idx16) (v : Word)
  /-- MEM_COPY_ABORT, R285 -/
  | memCopyAbort (n : Idx16) (v : Word)
  /-- MEM_COPY_PAGE_DONE, R285 -/
  | memCopyPageDone (n : Idx16)
  /-- POST, R297 -/
  | post (k : CoreId) (d : BitVec 5) (a : BitVec 5) (b : BitVec 5) (f3 : BitVec 3) (f7 : BitVec 7)
  /-- POST_REPLY, R297 -/
  | postReply (k : CoreId) (id : Nat)
  /-- TLR_SUBMIT_WRITE, R299 -/
  | tlrSubmitWrite (n : Idx16) (v : Word)
  /-- SUBMISSION_SLOT_INTAKE, R299 -/
  | submissionSlotIntake (n : Idx16) (ring : Idx16)
  /-- POSTING_INTAKE, R303 -/
  | postingIntake (id : Nat)
  /-- POSTING_LEAD_ARRIVAL, R303 -/
  | postingLeadArrival (id : Nat)
  /-- CELL_LOCK_REQUEST, R304 -/
  | cellLockRequest (id : Nat)
  /-- CELL_LOCK_GRANT, R304 -/
  | cellLockGrant (id : Nat)
  /-- SEQUENCE_REQUEST, R311 -/
  | sequenceRequest (id : Nat)
  /-- POSTING_NUMBER_RECEIVED, R307 -/
  | postingNumberReceived (id : Nat)
  /-- CELL_COMMIT, R307 -/
  | cellCommit (id : Nat) (pa : Nat)
  /-- COMMIT_ACK, R318 -/
  | commitAck (id : Nat) (pa : Nat)
  /-- COMPLETION_RESERVE_RETRY, R301 -/
  | completionReserveRetry (id : Nat)
  /-- DURABILITY_WAIT_TIMEOUT, R338 -/
  | durabilityWaitTimeout (n : Idx16)
  /-- SEQ_NEXT_WRITE, R312 -/
  | seqNextWrite (v : Word)
  /-- SEQ_CTL_WRITE, R312 -/
  | seqCtlWrite (v : Word)
  /-- TLR_INVTLB_WRITE, R314 -/
  | tlrInvtlbWrite (n : Idx16) (v : Word)
  /-- TLR_SRCFG_ENABLE, R299 -/
  | tlrSrcfgEnable (n : Idx16) (ring : Idx16) (v : Word)
  /-- JOURNAL_WRITE_ACCEPTED, R333 -/
  | journalWriteAccepted (n : Idx16) (ok : Bool)
  /-- PERSISTENCE_FLUSH_COMPLETE, R333 -/
  | persistenceFlushComplete (group : Idx16) (port : Fin 8) (ok : Bool)
  /-- JOURNAL_LOCAL_SET, R346 -/
  | journalLocalSet (n : Idx16) (v : Word)
  /-- JOURNAL_MIRROR_SET, R346 -/
  | journalMirrorSet (n : Idx16) (v : Word)
  /-- JOURNAL_LOCAL_CLEAR, R338 -/
  | journalLocalClear (n : Idx16) (v : Word)
  /-- JOURNAL_MIRROR_CLEAR, R338 -/
  | journalMirrorClear (n : Idx16) (v : Word)
  /-- JTAIL_WRITE, R338 -/
  | jtailWrite (n : Idx16) (v : Word)
  /-- JMTAIL_WRITE, R346 -/
  | jmtailWrite (n : Idx16) (v : Word)
  /-- JMBASE_ENABLE, R334 -/
  | jmbaseEnable (n : Idx16) (v : Word)
  /-- SEAL_RECORD_WRITE, R339 -/
  | sealRecordWrite (n : Idx16)
  /-- DRAIN_COMPLETE, R339 -/
  | drainComplete (n : Idx16)
  /-- LGP_APPLY, R348 -/
  | lgpApply (group : Idx16)
  /-- PORT_TRAINED, R460 -/
  | portTrained (group : Idx16) (port : Fin 8) (width : Fin 8) (rate : Fin 8) (flit : Bool)
  /-- DMA_READ, R351 -/
  | dmaRead (group : Idx16) (rid : Nat) (translated : Bool) (pasid : Bool) (addr : Nat) (len : Nat)
  /-- DMA_WRITE, R351 -/
  | dmaWrite (group : Idx16) (rid : Nat) (translated : Bool) (pasid : Bool) (addr : Nat) (bytes : List Byte) (poison : Bool)
  /-- DMA_ATOMIC, R351 -/
  | dmaAtomic (group : Idx16) (rid : Nat) (translated : Bool) (pasid : Bool) (addr : Nat) (op : Nat) (len : Nat) (gs : Word) (gd : Word)
  /-- ATS_TRANSLATION_REQUEST, R357 -/
  | atsTranslationRequest (group : Idx16) (rid : Nat) (pasid : Bool) (addr : Nat) (write : Bool)
  /-- PAGE_REQUEST, R357 -/
  | pageRequest (group : Idx16) (port : Fin 8) (rid : Nat) (rd : Bool) (wr : Bool) (last : Bool) (prgi : Nat) (page : Nat)
  /-- LGP_PRGR_WRITE, R357 -/
  | lgpPrgrWrite (group : Idx16) (v : Word)
  /-- LGP_INVTLB_WRITE, R358 -/
  | lgpInvtlbWrite (group : Idx16) (v : Word)
  /-- ATS_INVALIDATE_TIMEOUT, R358 -/
  | atsInvalidateTimeout (group : Idx16) (fn : Nat)
  /-- CXL_MEM_TIMEOUT, R354 -/
  | cxlMemTimeout (a : Nat)
  /-- GUARD_BIND_WRITE, R364 -/
  | guardBindWrite (set : Nat) (k : Nat) (v : Word)
  /-- GUARD_EVICT, R376 -/
  | guardEvict (port : PortId)
  /-- PEER_CFG_ENABLE, R367 -/
  | peerCfgEnable (port : PortId) (v : Word)
  /-- FLIT_RECEIVE, R373 -/
  | flitReceive (port : PortId) (bytes : List Byte) (delay : Nat)
  /-- NAK_RECEIVE, R373 -/
  | nakReceive (port : PortId) (ack : Nat)
  /-- ACK_TIMEOUT, R373 -/
  | ackTimeout (port : PortId)
  /-- RETRAIN_COMPLETE, R373 -/
  | retrainComplete (port : PortId) (ok : Bool)
  /-- DOWN_RECEIVE, R374 -/
  | downReceive (port : PortId)
  /-- IDENT_RECEIVE, R367 -/
  | identReceive (port : PortId) (socket : Nat) (credits : List Nat) (delay : Nat)
  /-- TIME_SYNC_REQUEST, R378 -/
  | timeSyncRequest (port : PortId)
  /-- TREQ_RECEIVE, R378 -/
  | treqReceive (port : PortId) (t1 : Word)
  /-- TRSP_RECEIVE, R378 -/
  | trspReceive (port : PortId) (t2 : Word) (t3 : Word)
  /-- RDS, R371 -/
  | rds (port : PortId) (tx : Nat) (src : Nat) (a : Word)
  /-- RDX, R371 -/
  | rdx (port : PortId) (tx : Nat) (src : Nat) (a : Word)
  /-- RDU, R371 -/
  | rdu (port : PortId) (tx : Nat) (src : Nat) (arg : Nat) (a : Word)
  /-- WRL, R371 -/
  | wrl (port : PortId) (tx : Nat) (src : Nat) (a : Word) (data : List Byte) (poison : Bool)
  /-- WRP, R371 -/
  | wrp (port : PortId) (tx : Nat) (src : Nat) (arg : Nat) (a : Word) (data : List Byte) (poison : Bool)
  /-- WBK, R371 -/
  | wbk (port : PortId) (tx : Nat) (src : Nat) (a : Word) (data : List Byte) (tags : BitVec 4) (poison : Bool)
  /-- ATM, R371 -/
  | atm (port : PortId) (tx : Nat) (src : Nat) (arg : Nat) (a : Word) (data : List Byte)
  /-- RDC, R371 -/
  | rdc (port : PortId) (tx : Nat) (src : Nat) (a : Word)
  /-- WRC, R371 -/
  | wrc (port : PortId) (tx : Nat) (src : Nat) (a : Word) (data : List Byte) (tags : BitVec 4) (poison : Bool)
  /-- SNPI, R376 -/
  | snpi (port : PortId) (tx : Nat) (a : Word)
  /-- SNPS, R376 -/
  | snps (port : PortId) (tx : Nat) (a : Word)
  /-- SRSP, R371 -/
  | srsp (port : PortId) (tx : Nat) (modified : Bool) (data : List Byte) (tags : BitVec 4) (poison : Bool)
  /-- DAT, R371 -/
  | dat (port : PortId) (tx : Nat) (data : List Byte) (tags : BitVec 4) (poison : Bool)
  /-- CMP, R366 -/
  | cmp (port : PortId) (tx : Nat) (arg : Nat)
  /-- WNT, R366 -/
  | wnt (port : PortId) (tx : Nat) (a : Word)
  /-- LCK, R319 -/
  | lck (port : PortId) (tx : Nat) (src : Nat) (a : Word)
  /-- LGR, R319 -/
  | lgr (port : PortId) (tx : Nat) (data : List Byte) (poison : Bool)
  /-- CMT, R319 -/
  | cmt (port : PortId) (tx : Nat) (src : Nat) (a : Word) (data : List Byte) (note : Option PostNote := none)
  /-- REL, R319 -/
  | rel (port : PortId) (tx : Nat) (src : Nat) (a : Word)
  /-- CAK, R319 -/
  | cak (port : PortId) (tx : Nat)
  /-- PFW, R371 -/
  | pfw (port : PortId) (tx : Nat) (src : Nat) (arg : Nat) (v : Word) (data : List Byte) (tags : BitVec 4)
  /-- PRP, R371 -/
  | prp (port : PortId) (tx : Nat) (arg : Nat)
  /-- JRC, R334 -/
  | jrc (port : PortId) (tx : Nat) (src : Nat) (arg : Nat) (data : List Byte)
  /-- JAK, R334 -/
  | jak (port : PortId) (tx : Nat) (v : Word)
  /-- IPI, R233 -/
  | ipi (port : PortId) (arg : Nat)
  /-- FNC, R377 -/
  | fnc (port : PortId) (tx : Nat) (v : Word)
  /-- FAK, R377 -/
  | fak (port : PortId) (tx : Nat)
  /-- SWL, R95 -/
  | swl (port : PortId) (tx : Nat) (arg : Nat) (data : List Byte)
  /-- SWR, R95 -/
  | swr (port : PortId) (tx : Nat) (arg : Nat)
  /-- HENTER, R379 -/
  | henter (k : CoreId) (cb : BitVec 5)
  /-- HEXIT, R380 -/
  | hexit (k : CoreId)
  /-- K16_NOP, R385 -/
  | k16Nop (k : CoreId)
  /-- K16_SVC, R391 -/
  | k16Svc (k : CoreId) (n : BitVec 8)
  /-- K16_IN, R393 -/
  | k16In (k : CoreId) (n : BitVec 8 := 0)
  /-- K16_OUT, R393 -/
  | k16Out (k : CoreId) (n : BitVec 8 := 0)
  /-- K16_EI, R393 -/
  | k16Ei (k : CoreId) (n : BitVec 8 := 0)
  /-- K16_DI, R393 -/
  | k16Di (k : CoreId) (n : BitVec 8 := 0)
  /-- K16_RETI, R393 -/
  | k16Reti (k : CoreId) (n : BitVec 8 := 0)
  /-- K16_HALT, R393 -/
  | k16Halt (k : CoreId) (n : BitVec 8 := 0)
  /-- K16_MOV, R385 -/
  | k16Mov (k : CoreId) (d : BitVec 4) (a : BitVec 4)
  /-- K16_ADD, R385 -/
  | k16Add (k : CoreId) (d : BitVec 4) (a : BitVec 4)
  /-- K16_ADC, R385 -/
  | k16Adc (k : CoreId) (d : BitVec 4) (a : BitVec 4)
  /-- K16_SUB, R385 -/
  | k16Sub (k : CoreId) (d : BitVec 4) (a : BitVec 4)
  /-- K16_SBC, R385 -/
  | k16Sbc (k : CoreId) (d : BitVec 4) (a : BitVec 4)
  /-- K16_AND, R385 -/
  | k16And (k : CoreId) (d : BitVec 4) (a : BitVec 4)
  /-- K16_OR, R385 -/
  | k16Or (k : CoreId) (d : BitVec 4) (a : BitVec 4)
  /-- K16_XOR, R385 -/
  | k16Xor (k : CoreId) (d : BitVec 4) (a : BitVec 4)
  /-- K16_CMP, R385 -/
  | k16Cmp (k : CoreId) (d : BitVec 4) (a : BitVec 4)
  /-- K16_TST, R385 -/
  | k16Tst (k : CoreId) (d : BitVec 4) (a : BitVec 4)
  /-- K16_SHL, R385 -/
  | k16Shl (k : CoreId) (d : BitVec 4) (a : BitVec 4)
  /-- K16_SHR, R385 -/
  | k16Shr (k : CoreId) (d : BitVec 4) (a : BitVec 4)
  /-- K16_SAR, R385 -/
  | k16Sar (k : CoreId) (d : BitVec 4) (a : BitVec 4)
  /-- K16_DADC, R385 -/
  | k16Dadc (k : CoreId) (d : BitVec 4) (a : BitVec 4)
  /-- K16_DSBC, R385 -/
  | k16Dsbc (k : CoreId) (d : BitVec 4) (a : BitVec 4)
  /-- K16_MULU, R385 -/
  | k16Mulu (k : CoreId) (d : BitVec 4) (a : BitVec 4)
  /-- K16_ADDI, R385 -/
  | k16Addi (k : CoreId) (d : BitVec 4) (imm : BitVec 8)
  /-- K16_MOVI, R385 -/
  | k16Movi (k : CoreId) (d : BitVec 4) (imm : BitVec 8)
  /-- K16_MOVHI, R385 -/
  | k16Movhi (k : CoreId) (d : BitVec 4) (imm : BitVec 8)
  /-- K16_CMPI, R385 -/
  | k16Cmpi (k : CoreId) (d : BitVec 4) (imm : BitVec 8)
  /-- K16_LD, R385 -/
  | k16Ld (k : CoreId) (d : BitVec 4) (a : BitVec 4) (disp : BitVec 4)
  /-- K16_ST, R385 -/
  | k16St (k : CoreId) (d : BitVec 4) (a : BitVec 4) (disp : BitVec 4)
  /-- K16_SETDB, R385 -/
  | k16Setdb (k : CoreId) (imm : BitVec 8)
  /-- K16_SETDBR, R385 -/
  | k16Setdbr (k : CoreId) (b : BitVec 4)
  /-- K16_GETDB, R385 -/
  | k16Getdb (k : CoreId) (b : BitVec 4)
  /-- K16_JMPF, R385 -/
  | k16Jmpf (k : CoreId) (b : BitVec 4)
  /-- K16_CALLF, R385 -/
  | k16Callf (k : CoreId) (b : BitVec 4)
  /-- K16_BCC, R386 -/
  | k16Bcc (k : CoreId) (cond : BitVec 4) (disp : BitVec 8)
  /-- K16_CALL, R384 -/
  | k16Call (k : CoreId) (disp : BitVec 12)
  /-- K16_JMP, R385 -/
  | k16Jmp (k : CoreId) (disp : BitVec 12)
  /-- K16_LOOP, R388 -/
  | k16Loop (k : CoreId) (a : BitVec 4) (len : BitVec 8)
  /-- K16_LD_POSTINC, R385 -/
  | k16LdPostinc (k : CoreId) (d : BitVec 4) (a : BitVec 4)
  /-- K16_ST_POSTINC, R385 -/
  | k16StPostinc (k : CoreId) (d : BitVec 4) (a : BitVec 4)
  /-- K16_LD_PREDEC, R385 -/
  | k16LdPredec (k : CoreId) (d : BitVec 4) (a : BitVec 4)
  /-- K16_ST_PREDEC, R385 -/
  | k16StPredec (k : CoreId) (d : BitVec 4) (a : BitVec 4)
  /-- SUPPLY_VALID, R454 -/
  | supplyValid (rail : Fin 10)
  /-- REFCLK_RETURN, R394 -/
  | refclkReturn
  /-- TAP_RESET, R455 -/
  | tapReset
  /-- CELL_LOCK_RELEASE, R318 -/
  | cellLockRelease (line : Nat) (id : Nat)
  /-- ATS_INVALIDATE_COMPLETION, R358 -/
  | atsInvalidateCompletion (group : Idx16) (fn : Nat)
  /-- PTM_REQUEST, R350 -/
  | ptmRequest (group : Idx16) (port : Fin 8)
  /-- MCTP_CONTROL_MESSAGE, R417 -/
  | mctpControlMessage (eid : BitVec 8)
  /-- CXL_MEM_RESPONSE, R354 -/
  | cxlMemResponse (a : Nat) (poison : Bool)
  /-- DRAM_REFRESH, R265 -/
  | dramRefresh (n : Idx16)
  deriving DecidableEq, Repr

end Sys2Proof
end

