-- ==== Sys2Proof/Decode.lean ====
section
/-!
DEFINITION. The decoder over the command table's bits. spec/opcode_table.json gives no bits to any row, so no word spells a command.
The instruction words of the cores are encoded in Machine/Issue.lean, where patches and reports need them.
-/
namespace Sys2Proof

/-- The command that a word of the table spells: none, since the table gives its rows no bits. DESIGN CHOICE, log entry 84. -/
def decodeTableWord (_nbits _w : Nat) : Option Instr := none

end Sys2Proof
end

