-- ==== Sys2Proof/Config.lean ====
section
/-!
DEFINITION. The free values of the model: what the manual leaves open or leaves to each run. Every one is an opaque
constant with no body, applied to the free-value counter of State or to the operands it depends on, so that no proof can
rest on a particular value (notes/assumptions name each).
-/
namespace Sys2Proof

/-- A fresh unconstrained word for each value of the counter (unstated register values, MEMORY of devices).
DESIGN CHOICE, log entry 7. -/
opaque Config.freeWord : Nat → Word

/-- A fresh unconstrained choice: a cached translation, entry or line was evicted before this use or not (R65, R247).
DESIGN CHOICE, log entry 7. -/
opaque Config.freeBool : Nat → Bool

/-- A fresh unconstrained number below the given bound plus one (CS_TIME lag of R26 and the like). DESIGN CHOICE, log entry 7. -/
opaque Config.freeNat : Nat → Nat

/-- Which entry leaves a full cache: a free choice for each value of the counter and each entry that leaves at once (R65, R247, R313, R356).
DESIGN CHOICE, log entry 7. -/
opaque Config.freeVictim : Nat → Nat → Nat

/-- The initial credits of each class that IDENT gives (R372): the sizes of the receive buffers are not stated.
DESIGN CHOICE, log entry 7. -/
opaque Config.initialCredits : Nat → Nat

/-- Which of two decimal operands of equal value and sign minimumNumber and maximumNumber return (R146 leaves it open).
DESIGN CHOICE, log entry 7. DEDUCED, log entry 19. -/
opaque Config.freePick : Nat → Nat → Bool

/-- What a participant's record repeats of its lead's descriptor where nothing came with the commit (R328): field i of the posting with the
given number. DEDUCED, log entry 17. -/
opaque Config.leadField : Word → Nat → Word

/-- The set that a line number takes in a directory of the home slices of the given number of sets: R280 and R376 give the ways alone.
DESIGN CHOICE, log entry 148. -/
opaque Config.dirSet : Nat → Nat → Nat

/-- The reading in millivolts of a rail's supply sensor (R417). DESIGN CHOICE, log entry 82. -/
opaque Config.supplyMillivolts : Nat → Nat → Nat

/-- The version and the manufacturer of the TAP's IDCODE (R447 gives the part number alone). DESIGN CHOICE, log entry 150. -/
opaque Config.tapIdcode : BitVec 32

/-- Check byte j of a flit's FEC over its first 250 bytes: R369 names the code of PCIe 6.0 and does not give it.
DESIGN CHOICE, log entry 129. -/
opaque Config.flitFec : List Byte → Nat → Byte

end Sys2Proof
end

