-- ==== Sys2Proof/Machine/Bits.lean ====
section
/-!
DEFINITION. Plain operations on words: field extraction and insertion (R4: a range [h:l] includes both ends), the little-endian byte
order of R4, and sign extension.
-/
namespace Sys2Proof

/-- The number of bits of a field. -/
def Fld.width (f : Fld) : Nat := f.hi + 1 - f.lo

/-- The value of field `f` of `v`, as an unsigned integer (R16). -/
def getF {w : Nat} (v : BitVec w) (f : Fld) : Nat := (v >>> f.lo).toNat % 2 ^ f.width

/-- The mask with ones in exactly the bits of field `f`. -/
def Fld.mask (w : Nat) (f : Fld) : BitVec w := BitVec.ofNat w ((2 ^ f.width - 1) * 2 ^ f.lo)

/-- `v` with field `f` replaced by the low bits of `n`. -/
def setF {w : Nat} (v : BitVec w) (f : Fld) (n : Nat) : BitVec w :=
  (v &&& ~~~(f.mask w)) ||| BitVec.ofNat w ((n % 2 ^ f.width) * 2 ^ f.lo)

/-- Bit `i` of `v` as a truth value. -/
def bitB {w : Nat} (v : BitVec w) (i : Nat) : Bool := v.getLsbD i

/-- A truth value as the number 0 or 1. -/
def b2n (b : Bool) : Nat := if b then 1 else 0

/-- A truth value as the word 0 or 1. -/
def b2w (b : Bool) : Word := if b then 1 else 0

/-- The little-endian bytes of the `n` low bytes of a natural number (R4). -/
def natBytes : Nat → Nat → List Byte
  | 0, _ => []
  | n + 1, x => BitVec.ofNat 8 x :: natBytes n (x / 256)

/-- The natural number that a list of bytes spells, the first byte least significant (R4). -/
def bytesNat : List Byte → Nat
  | [] => 0
  | b :: bs => b.toNat + 256 * bytesNat bs

/-- `x` read as an `n`-bit two's-complement integer. -/
def toSigned (n : Nat) (x : Nat) : Int :=
  if x % 2 ^ n < 2 ^ (n - 1) then (x % 2 ^ n : Nat) else (x % 2 ^ n : Nat) - (2 ^ n : Nat)

/-- An integer narrowed to `w` bits. -/
def ofInt (w : Nat) (x : Int) : BitVec w := BitVec.ofInt w x

/-- `x mod 2^n` sign-extended from bit n − 1 into a 64-bit word. -/
def sext64 (n : Nat) (x : Nat) : Word := ofInt 64 (toSigned n x)

/-- The smaller of `a` and the saturation limit `m`. -/
def satTo (m a : Nat) : Nat := if a < m then a else m

end Sys2Proof
end

