-- ==== Sys2Proof/Machine/Registers.lean ====
section
/-!
DEFINITION. Every register of control space and every core state register the manual's headings name (R6, R8, R9, R102):
place, width, reset value and typed fields. Bits that no field covers are RsvZ. The tables are data; what a write or a
read of a register does beyond its field types is in Machine/Control.lean and the unit files.
-/
namespace Sys2Proof.Machine

/-- The field types of R9; a bit under no field is RsvZ. -/
inductive FTy where
  | rw | ro | wo | w1c | w1s | rc | rwl
  deriving DecidableEq, Repr

/-- A named, typed field of a register. -/
structure RegField where
  name : String
  fld : Fld
  ty : FTy
  deriving DecidableEq, Repr

/-- The register headings, by name. -/
inductive RegName where
  | VLT_PTBASE | VLT_PTNEXT | VLT_SWCTL | VLT_SWADD | VLT_SWSTAT | VLT_SWFREE | DBH_RING | DBH_HOLD | DBH_IPI | DBH_PEND
  | DBH_UNPEND | DBH_STAT | DBH_WAKE | DBH_SRC | DBH_SPEND | DBH_CLAIM | DBH_CLAIMG | DBH_CLAIMN | DBH_PEEK | DBH_DONE
  | DBH_PCFG | DBH_PCLASS | DBH_PPEND | DBH_PACT | DBH_TCMP0 | DBH_TCMP1 | DBH_TCTL | DBH_WNADDR | VLT_ILV | VLT_ILVNEXT
  | VLT_PART | VLT_PRANGE | VLT_PSTAT | VLT_CXLR | MEM_CFG | MEM_INIT | MEM_SCRUB | MEM_COPYSRC | MEM_COPYDST
  | MEM_COPYCTL | TLR_CTL | TLR_STAT | TLR_SUBMIT | TLR_INVTLB | TLR_INVVA | TLR_LASTERR | TLR_SRBASE | TLR_SRCFG
  | TLR_SRPT | TLR_SRCONS | SEQ_NEXT | SEQ_CTL | SEQ_LAST | TLR_JCTL | TLR_JBASE | TLR_JSIZE | TLR_JMSIZE | TLR_JHEAD
  | TLR_JDUR | TLR_JLASTD | TLR_JLASTM | TLR_JMHEAD | TLR_JTAIL | TLR_JMTAIL | TLR_JSTAT | TLR_JMBASE | LGP_CFG | LGP_CTL
  | LGP_INVTLB | LGP_INVVA | LGP_PRQ | LGP_PRQPROD | LGP_PRGR | LGP_PSTAT | LGP_PWIN | LGP_FNCTL | LGP_FNPT | PEER_CFG
  | PEER_STAT | PEER_TIME | GUARD_CTL | GUARD_VADDR | GUARD_VINFO | GUARD_LO | GUARD_HI | GUARD_ATTR | GUARD_BIND
  | IMG_STATUS | IMG_ERR0 | IMG_ERR1 | IMG_STAGET | IMG_APPLY | IMG_FPAGE | IMG_FCMD | IMG_FSTAT | IMG_FBUF | IMG_FSVN
  | IMG_FREVOKE | IMG_FDIEID | IMG_FKEY | MGMT_UCTL | MGMT_USTAT | MGMT_CLK | TEL_EVSEL | TEL_CTR | TEL_SHD | TEL_SHDID
  | TEL_OVF | ERRINJ_CTL | ERRINJ_PER | MGMT_MODE | MGMT_ESTAT | MGMT_ERRDB | MGMT_EFT | MGMT_EPTR | SNAP_AT | SNAP_CTL
  | SNAP_DONE | TEL_OVFSRC | TIME_NOW | TIME_ADJ | TIME_PPSCAP | TIME_PPSCTL | DBG_ID | DBG_CTL | DBG_UNLOCK | DBG_NONCE
  | DBG_KEY | DBG_SIG | DBG_MADDR | DBG_MDATA | DBG_MCTL | DBG_REFUSE | DBG_SEAL | DBG_TRCTL | DBG_TRBUF | DBG_TRPTR
  | DBG_TRCORE0 | DBG_TRCORE1 | DBG_CSEL | DBG_CDATA | DBG_CCTL | MGMT_PWR | MGMT_THERM
  deriving DecidableEq, Repr

/-- One register heading: units `unitLo`–`unitHi`, offset `off + stride1 × i + stride2 × j` for i < count1, j < count2,
`width` in bytes, the reset value and the fields. -/
structure RegRow where
  name : RegName
  unitLo : Nat
  unitHi : Nat
  off : Nat
  stride1 : Nat
  count1 : Nat
  stride2 : Nat
  count2 : Nat
  width : Nat
  reset : Nat
  fields : List RegField
  deriving DecidableEq, Repr

/-! Field places, named <register>_<field>. -/

def F.VLT_PTBASE_PTB_SIZE : Fld := ⟨4, 0⟩
def F.VLT_PTBASE_PTB_BASE : Fld := ⟨47, 12⟩
def F.VLT_PTNEXT_PTB_SIZE : Fld := ⟨4, 0⟩
def F.VLT_PTNEXT_PTB_BASE : Fld := ⟨47, 12⟩
def F.VLT_SWCTL_GO : Fld := ⟨0, 0⟩
def F.VLT_SWCTL_CLEAR : Fld := ⟨1, 1⟩
def F.VLT_SWCTL_SCOPE : Fld := ⟨2, 2⟩
def F.VLT_SWCTL_RATE : Fld := ⟨15, 8⟩
def F.VLT_SWCTL_DBSRC : Fld := ⟨47, 32⟩
def F.VLT_SWADD_INDEX : Fld := ⟨31, 0⟩
def F.VLT_SWSTAT_COUNT : Fld := ⟨12, 0⟩
def F.VLT_SWSTAT_PHASE : Fld := ⟨18, 16⟩
def F.VLT_SWSTAT_RESULT : Fld := ⟨23, 20⟩
def F.VLT_SWSTAT_DROPPED : Fld := ⟨44, 32⟩
def F.VLT_SWFREE_ADDR : Fld := ⟨47, 3⟩
def F.DBH_RING_SOURCE : Fld := ⟨15, 0⟩
def F.DBH_HOLD_NORMAL : Fld := ⟨0, 0⟩
def F.DBH_HOLD_GECKO : Fld := ⟨1, 1⟩
def F.DBH_IPI_CORE : Fld := ⟨6, 0⟩
def F.DBH_IPI_INDEX : Fld := ⟨9, 7⟩
def F.DBH_IPI_SOCKET : Fld := ⟨12, 10⟩
def F.DBH_IPI_REMOTE : Fld := ⟨13, 13⟩
def F.DBH_PEND_SOURCE : Fld := ⟨15, 0⟩
def F.DBH_UNPEND_SOURCE : Fld := ⟨15, 0⟩
def F.DBH_STAT_BADRING : Fld := ⟨15, 0⟩
def F.DBH_STAT_BADDONE : Fld := ⟨31, 16⟩
def F.DBH_STAT_HELDTGT : Fld := ⟨47, 32⟩
def F.DBH_WAKE_SOURCE : Fld := ⟨15, 0⟩
def F.DBH_WAKE_EDGE : Fld := ⟨17, 16⟩
def F.DBH_WAKE_EFT : Fld := ⟨18, 18⟩
def F.DBH_WAKE_HIT : Fld := ⟨19, 19⟩
def F.DBH_SRC_TARGET : Fld := ⟨6, 0⟩
def F.DBH_SRC_GECKO : Fld := ⟨8, 8⟩
def F.DBH_SRC_MASK : Fld := ⟨9, 9⟩
def F.DBH_SRC_COUNT : Fld := ⟨23, 16⟩
def F.DBH_SRC_TIME : Fld := ⟨47, 32⟩
def F.DBH_SRC_LCORE : Fld := ⟨54, 48⟩
def F.DBH_SRC_P : Fld := ⟨56, 56⟩
def F.DBH_SRC_A : Fld := ⟨57, 57⟩
def F.DBH_SRC_L : Fld := ⟨58, 58⟩
def F.DBH_SPEND_P : Fld := ⟨63, 0⟩
def F.DBH_CLAIM_SOURCE : Fld := ⟨31, 0⟩
def F.DBH_CLAIMG_SOURCE : Fld := ⟨31, 0⟩
def F.DBH_CLAIMN_SOURCE : Fld := ⟨31, 0⟩
def F.DBH_PEEK_SOURCE : Fld := ⟨31, 0⟩
def F.DBH_DONE_SOURCE : Fld := ⟨31, 0⟩
def F.DBH_PCFG_MASK : Fld := ⟨63, 0⟩
def F.DBH_PCLASS_GECKO : Fld := ⟨63, 0⟩
def F.DBH_PPEND_P : Fld := ⟨63, 0⟩
def F.DBH_PACT_A : Fld := ⟨63, 0⟩
def F.DBH_TCMP0_CMP : Fld := ⟨63, 0⟩
def F.DBH_TCMP1_CMP : Fld := ⟨63, 0⟩
def F.DBH_TCTL_EN0 : Fld := ⟨0, 0⟩
def F.DBH_TCTL_EN1 : Fld := ⟨1, 1⟩
def F.DBH_WNADDR_ADDR : Fld := ⟨47, 0⟩
def F.DBH_WNADDR_INIT : Fld := ⟨56, 48⟩
def F.DBH_WNADDR_OVF : Fld := ⟨62, 62⟩
def F.DBH_WNADDR_VALID : Fld := ⟨63, 63⟩
def F.VLT_ILV_GRAN : Fld := ⟨1, 0⟩
def F.VLT_ILV_DDRTOP : Fld := ⟨47, 28⟩
def F.VLT_ILVNEXT_GRAN : Fld := ⟨1, 0⟩
def F.VLT_PART_WAYS : Fld := ⟨4, 0⟩
def F.VLT_PART_KIND : Fld := ⟨5, 5⟩
def F.VLT_PART_EN : Fld := ⟨6, 6⟩
def F.VLT_PRANGE_BASE : Fld := ⟨47, 16⟩
def F.VLT_PSTAT_STATE : Fld := ⟨1, 0⟩
def F.VLT_PSTAT_FILLED : Fld := ⟨20, 2⟩
def F.VLT_PSTAT_REFUSE : Fld := ⟨23, 21⟩
def F.VLT_CXLR_EN : Fld := ⟨0, 0⟩
def F.VLT_CXLR_PERSIST : Fld := ⟨1, 1⟩
def F.VLT_CXLR_READY : Fld := ⟨2, 2⟩
def F.VLT_CXLR_LGRP : Fld := ⟨7, 4⟩
def F.VLT_CXLR_PORT : Fld := ⟨10, 8⟩
def F.VLT_CXLR_BASE : Fld := ⟨47, 30⟩
def F.VLT_CXLR_SIZE : Fld := ⟨63, 48⟩
def F.MEM_CFG_DIMMS : Fld := ⟨1, 0⟩
def F.MEM_CFG_RANKS : Fld := ⟨3, 2⟩
def F.MEM_CFG_X8 : Fld := ⟨4, 4⟩
def F.MEM_CFG_DENSITY : Fld := ⟨6, 5⟩
def F.MEM_CFG_RATE : Fld := ⟨23, 16⟩
def F.MEM_CFG_CAP : Fld := ⟨40, 32⟩
def F.MEM_CFG_STATE : Fld := ⟨50, 48⟩
def F.MEM_INIT_FRONTIER : Fld := ⟨37, 12⟩
def F.MEM_INIT_DONE : Fld := ⟨63, 63⟩
def F.MEM_SCRUB_EN : Fld := ⟨0, 0⟩
def F.MEM_SCRUB_PERIOD : Fld := ⟨15, 8⟩
def F.MEM_SCRUB_PASSES : Fld := ⟨47, 32⟩
def F.MEM_COPYSRC_ADDR : Fld := ⟨47, 12⟩
def F.MEM_COPYDST_ADDR : Fld := ⟨47, 12⟩
def F.MEM_COPYCTL_GO : Fld := ⟨0, 0⟩
def F.MEM_COPYCTL_ABORT : Fld := ⟨1, 1⟩
def F.MEM_COPYCTL_STATE : Fld := ⟨6, 4⟩
def F.MEM_COPYCTL_PAGES : Fld := ⟨31, 16⟩
def F.MEM_COPYCTL_DBSRC : Fld := ⟨47, 32⟩
def F.TLR_CTL_EN : Fld := ⟨0, 0⟩
def F.TLR_CTL_IDLE : Fld := ⟨1, 1⟩
def F.TLR_STAT_PLACES : Fld := ⟨5, 0⟩
def F.TLR_STAT_QUEUED : Fld := ⟨12, 6⟩
def F.TLR_STAT_BUSY : Fld := ⟨31, 16⟩
def F.TLR_STAT_RINGERR : Fld := ⟨47, 32⟩
def F.TLR_STAT_CRLOST : Fld := ⟨63, 48⟩
def F.TLR_SUBMIT_RING : Fld := ⟨3, 0⟩
def F.TLR_SUBMIT_PROD : Fld := ⟨47, 16⟩
def F.TLR_INVTLB_OP : Fld := ⟨1, 0⟩
def F.TLR_INVTLB_ASID : Fld := ⟨31, 16⟩
def F.TLR_INVVA_VA : Fld := ⟨63, 12⟩
def F.TLR_LASTERR_STATUS : Fld := ⟨7, 0⟩
def F.TLR_LASTERR_CAUSE : Fld := ⟨11, 8⟩
def F.TLR_LASTERR_RING : Fld := ⟨16, 12⟩
def F.TLR_LASTERR_SLOT : Fld := ⟨47, 32⟩
def F.TLR_LASTERR_VALID : Fld := ⟨63, 63⟩
def F.TLR_SRBASE_BASE : Fld := ⟨47, 4⟩
def F.TLR_SRCFG_EN : Fld := ⟨0, 0⟩
def F.TLR_SRCFG_LOG2 : Fld := ⟨5, 1⟩
def F.TLR_SRCFG_RING : Fld := ⟨7, 6⟩
def F.TLR_SRCFG_ASID : Fld := ⟨31, 16⟩
def F.TLR_SRPT_MODE : Fld := ⟨1, 0⟩
def F.TLR_SRPT_ROOT : Fld := ⟨47, 12⟩
def F.TLR_SRCONS_CONS : Fld := ⟨31, 0⟩
def F.TLR_SRCONS_PROD : Fld := ⟨63, 32⟩
def F.SEQ_NEXT_NEXT : Fld := ⟨59, 0⟩
def F.SEQ_NEXT_SOCKET : Fld := ⟨63, 60⟩
def F.SEQ_CTL_OPEN : Fld := ⟨0, 0⟩
def F.SEQ_CTL_EXHAUSTED : Fld := ⟨1, 1⟩
def F.SEQ_LAST_LAST : Fld := ⟨63, 0⟩
def F.TLR_JCTL_LOCAL : Fld := ⟨0, 0⟩
def F.TLR_JCTL_MIRROR : Fld := ⟨1, 1⟩
def F.TLR_JCTL_MSOCK : Fld := ⟨6, 4⟩
def F.TLR_JCTL_EPOCH : Fld := ⟨63, 32⟩
def F.TLR_JBASE_BASE : Fld := ⟨47, 12⟩
def F.TLR_JSIZE_SIZE : Fld := ⟨47, 12⟩
def F.TLR_JMSIZE_SIZE : Fld := ⟨47, 12⟩
def F.TLR_JHEAD_HEAD : Fld := ⟨63, 0⟩
def F.TLR_JDUR_DUR : Fld := ⟨63, 0⟩
def F.TLR_JLASTD_SEQ : Fld := ⟨63, 0⟩
def F.TLR_JLASTM_SEQ : Fld := ⟨63, 0⟩
def F.TLR_JMHEAD_HEAD : Fld := ⟨63, 0⟩
def F.TLR_JTAIL_TAIL : Fld := ⟨63, 0⟩
def F.TLR_JMTAIL_TAIL : Fld := ⟨63, 0⟩
def F.TLR_JSTAT_STAGED : Fld := ⟨20, 0⟩
def F.TLR_JSTAT_SFULL : Fld := ⟨21, 21⟩
def F.TLR_JSTAT_NOSPACE : Fld := ⟨22, 22⟩
def F.TLR_JSTAT_MIRDOWN : Fld := ⟨23, 23⟩
def F.TLR_JSTAT_LOCALERR : Fld := ⟨24, 24⟩
def F.TLR_JSTAT_STALLS : Fld := ⟨47, 32⟩
def F.TLR_JMBASE_EN : Fld := ⟨0, 0⟩
def F.TLR_JMBASE_PERSIST : Fld := ⟨1, 1⟩
def F.TLR_JMBASE_SRCSOCK : Fld := ⟨4, 2⟩
def F.TLR_JMBASE_BASE : Fld := ⟨47, 12⟩
def F.LGP_CFG_PROTO0 : Fld := ⟨2, 0⟩
def F.LGP_CFG_PROTO1 : Fld := ⟨10, 8⟩
def F.LGP_CFG_PROTO2 : Fld := ⟨18, 16⟩
def F.LGP_CFG_PROTO3 : Fld := ⟨26, 24⟩
def F.LGP_CFG_PROTO4 : Fld := ⟨34, 32⟩
def F.LGP_CFG_PROTO5 : Fld := ⟨42, 40⟩
def F.LGP_CFG_PROTO6 : Fld := ⟨50, 48⟩
def F.LGP_CFG_PROTO7 : Fld := ⟨58, 56⟩
def F.LGP_CFG_WIDTH0 : Fld := ⟨5, 3⟩
def F.LGP_CFG_WIDTH1 : Fld := ⟨13, 11⟩
def F.LGP_CFG_WIDTH2 : Fld := ⟨21, 19⟩
def F.LGP_CFG_WIDTH3 : Fld := ⟨29, 27⟩
def F.LGP_CFG_WIDTH4 : Fld := ⟨37, 35⟩
def F.LGP_CFG_WIDTH5 : Fld := ⟨45, 43⟩
def F.LGP_CFG_WIDTH6 : Fld := ⟨53, 51⟩
def F.LGP_CFG_WIDTH7 : Fld := ⟨61, 59⟩
def F.LGP_CTL_APPLY : Fld := ⟨0, 0⟩
def F.LGP_CTL_BADCFG : Fld := ⟨1, 1⟩
def F.LGP_INVTLB_OP : Fld := ⟨1, 0⟩
def F.LGP_INVTLB_ASID : Fld := ⟨31, 16⟩
def F.LGP_INVVA_VA : Fld := ⟨63, 12⟩
def F.LGP_PRQ_EN : Fld := ⟨0, 0⟩
def F.LGP_PRQ_LOG2 : Fld := ⟨4, 1⟩
def F.LGP_PRQ_BASE : Fld := ⟨47, 12⟩
def F.LGP_PRQ_DBSRC : Fld := ⟨63, 48⟩
def F.LGP_PRQPROD_PROD : Fld := ⟨31, 0⟩
def F.LGP_PRGR_RID : Fld := ⟨15, 0⟩
def F.LGP_PRGR_PRGI : Fld := ⟨24, 16⟩
def F.LGP_PRGR_CODE : Fld := ⟨28, 25⟩
def F.LGP_PSTAT_STATE : Fld := ⟨2, 0⟩
def F.LGP_PSTAT_WIDTH : Fld := ⟨5, 3⟩
def F.LGP_PSTAT_RATE : Fld := ⟨8, 6⟩
def F.LGP_PSTAT_FLIT : Fld := ⟨9, 9⟩
def F.LGP_PSTAT_REPLAYS : Fld := ⟨31, 16⟩
def F.LGP_PSTAT_PRQDROP : Fld := ⟨47, 32⟩
def F.LGP_PWIN_EN : Fld := ⟨0, 0⟩
def F.LGP_PWIN_BASE : Fld := ⟨23, 1⟩
def F.LGP_PWIN_LIMIT : Fld := ⟨46, 24⟩
def F.LGP_FNCTL_EN : Fld := ⟨0, 0⟩
def F.LGP_FNCTL_XLATE : Fld := ⟨1, 1⟩
def F.LGP_FNCTL_ATS : Fld := ⟨2, 2⟩
def F.LGP_FNCTL_PRI : Fld := ⟨3, 3⟩
def F.LGP_FNCTL_ATSTO : Fld := ⟨4, 4⟩
def F.LGP_FNCTL_RID : Fld := ⟨31, 16⟩
def F.LGP_FNCTL_ASID : Fld := ⟨47, 32⟩
def F.LGP_FNPT_MODE : Fld := ⟨1, 0⟩
def F.LGP_FNPT_ROOT : Fld := ⟨47, 12⟩
def F.PEER_CFG_EN : Fld := ⟨0, 0⟩
def F.PEER_CFG_LGRP : Fld := ⟨4, 1⟩
def F.PEER_CFG_X8 : Fld := ⟨5, 5⟩
def F.PEER_CFG_SOCKET : Fld := ⟨8, 6⟩
def F.PEER_CFG_FOLLOW : Fld := ⟨9, 9⟩
def F.PEER_STAT_STATE : Fld := ⟨2, 0⟩
def F.PEER_STAT_MISMATCH : Fld := ⟨3, 3⟩
def F.PEER_STAT_FAR : Fld := ⟨4, 4⟩
def F.PEER_STAT_RSOCK : Fld := ⟨7, 5⟩
def F.PEER_STAT_BADMSG : Fld := ⟨15, 8⟩
def F.PEER_STAT_REPLAYS : Fld := ⟨31, 16⟩
def F.PEER_STAT_RETRAINS : Fld := ⟨47, 32⟩
def F.PEER_TIME_OFFSET : Fld := ⟨31, 0⟩
def F.PEER_TIME_DELAY : Fld := ⟨47, 32⟩
def F.PEER_TIME_ALIGNED : Fld := ⟨48, 48⟩
def F.GUARD_CTL_STRICT : Fld := ⟨0, 0⟩
def F.GUARD_CTL_EVICT : Fld := ⟨1, 1⟩
def F.GUARD_CTL_NSRC : Fld := ⟨31, 16⟩
def F.GUARD_CTL_VCOUNT : Fld := ⟨47, 32⟩
def F.GUARD_VADDR_ADDR : Fld := ⟨47, 0⟩
def F.GUARD_VINFO_OP : Fld := ⟨2, 0⟩
def F.GUARD_VINFO_REASON : Fld := ⟨7, 4⟩
def F.GUARD_VINFO_GUARD : Fld := ⟨13, 8⟩
def F.GUARD_VINFO_SRC : Fld := ⟨31, 16⟩
def F.GUARD_VINFO_XCAUSE : Fld := ⟨35, 32⟩
def F.GUARD_VINFO_OVF : Fld := ⟨62, 62⟩
def F.GUARD_VINFO_VALID : Fld := ⟨63, 63⟩
def F.GUARD_LO_EN : Fld := ⟨0, 0⟩
def F.GUARD_LO_BASE : Fld := ⟨47, 12⟩
def F.GUARD_HI_LIMIT : Fld := ⟨47, 12⟩
def F.GUARD_ATTR_RD : Fld := ⟨0, 0⟩
def F.GUARD_ATTR_WR : Fld := ⟨1, 1⟩
def F.GUARD_ATTR_AT : Fld := ⟨2, 2⟩
def F.GUARD_ATTR_COIN : Fld := ⟨3, 3⟩
def F.GUARD_ATTR_ANYFN : Fld := ⟨4, 4⟩
def F.GUARD_ATTR_FN : Fld := ⟨15, 8⟩
def F.GUARD_BIND_PURSE : Fld := ⟨31, 0⟩
def F.GUARD_BIND_ISSUE : Fld := ⟨51, 32⟩
def F.GUARD_BIND_BOUND : Fld := ⟨52, 52⟩
def F.GUARD_BIND_STALE : Fld := ⟨53, 53⟩
def F.IMG_STATUS_STAGE : Fld := ⟨3, 0⟩
def F.IMG_STATUS_SLOT : Fld := ⟨4, 4⟩
def F.IMG_STATUS_FALLBACK : Fld := ⟨5, 5⟩
def F.IMG_STATUS_OPEN : Fld := ⟨6, 6⟩
def F.IMG_STATUS_CALBAD : Fld := ⟨7, 7⟩
def F.IMG_STATUS_TRAINFULL : Fld := ⟨23, 8⟩
def F.IMG_ERR0_CODE : Fld := ⟨7, 0⟩
def F.IMG_ERR0_SLOT : Fld := ⟨8, 8⟩
def F.IMG_ERR0_SEG : Fld := ⟨23, 16⟩
def F.IMG_ERR0_OFFSET : Fld := ⟨63, 32⟩
def F.IMG_ERR1_CODE : Fld := ⟨7, 0⟩
def F.IMG_ERR1_SLOT : Fld := ⟨8, 8⟩
def F.IMG_ERR1_SEG : Fld := ⟨23, 16⟩
def F.IMG_ERR1_OFFSET : Fld := ⟨63, 32⟩
def F.IMG_STAGET_TIME : Fld := ⟨63, 0⟩
def F.IMG_APPLY_UNIT : Fld := ⟨15, 0⟩
def F.IMG_APPLY_SEG : Fld := ⟨23, 16⟩
def F.IMG_APPLY_GO : Fld := ⟨24, 24⟩
def F.IMG_APPLY_BUSY : Fld := ⟨25, 25⟩
def F.IMG_APPLY_RESULT : Fld := ⟨27, 26⟩
def F.IMG_FPAGE_PAGE : Fld := ⟨8, 0⟩
def F.IMG_FCMD_OP : Fld := ⟨1, 0⟩
def F.IMG_FCMD_ADDR : Fld := ⟨60, 32⟩
def F.IMG_FSTAT_BUSY : Fld := ⟨0, 0⟩
def F.IMG_FSTAT_ERR : Fld := ⟨1, 1⟩
def F.IMG_FBUF_DATA : Fld := ⟨63, 0⟩
def F.IMG_FSVN_SVN : Fld := ⟨63, 0⟩
def F.IMG_FREVOKE_REVOKE : Fld := ⟨3, 0⟩
def F.IMG_FDIEID_DIEID : Fld := ⟨63, 0⟩
def F.IMG_FKEY_HASH : Fld := ⟨63, 0⟩
def F.MGMT_UCTL_OP : Fld := ⟨3, 0⟩
def F.MGMT_UCTL_ARG : Fld := ⟨15, 8⟩
def F.MGMT_USTAT_STATE : Fld := ⟨2, 0⟩
def F.MGMT_USTAT_BUSY : Fld := ⟨3, 3⟩
def F.MGMT_USTAT_RESULT : Fld := ⟨7, 4⟩
def F.MGMT_USTAT_CAUSE : Fld := ⟨9, 8⟩
def F.MGMT_USTAT_STEWARD : Fld := ⟨15, 10⟩
def F.MGMT_USTAT_SIB : Fld := ⟨19, 16⟩
def F.MGMT_CLK_FREQ : Fld := ⟨6, 0⟩
def F.MGMT_CLK_STOPIDLE : Fld := ⟨7, 7⟩
def F.MGMT_CLK_CUR : Fld := ⟨14, 8⟩
def F.TEL_EVSEL_EVENT : Fld := ⟨7, 0⟩
def F.TEL_EVSEL_OVFINT : Fld := ⟨8, 8⟩
def F.TEL_CTR_COUNT : Fld := ⟨47, 0⟩
def F.TEL_SHD_COUNT : Fld := ⟨47, 0⟩
def F.TEL_SHDID_ID : Fld := ⟨15, 0⟩
def F.TEL_OVF_OVF : Fld := ⟨15, 0⟩
def F.ERRINJ_CTL_MODE : Fld := ⟨1, 0⟩
def F.ERRINJ_CTL_KIND : Fld := ⟨2, 2⟩
def F.ERRINJ_CTL_LIVE : Fld := ⟨3, 3⟩
def F.ERRINJ_CTL_FIRED : Fld := ⟨31, 16⟩
def F.ERRINJ_PER_PERIOD : Fld := ⟨31, 0⟩
def F.MGMT_MODE_CUR : Fld := ⟨2, 0⟩
def F.MGMT_MODE_BUSY : Fld := ⟨3, 3⟩
def F.MGMT_MODE_REQ : Fld := ⟨6, 4⟩
def F.MGMT_MODE_CHG : Fld := ⟨9, 8⟩
def F.MGMT_MODE_RESULT : Fld := ⟨15, 12⟩
def F.MGMT_ESTAT_DEFERRED : Fld := ⟨0, 0⟩
def F.MGMT_ESTAT_FATAL : Fld := ⟨1, 1⟩
def F.MGMT_ESTAT_DEVFATAL : Fld := ⟨2, 2⟩
def F.MGMT_ESTAT_LUNIT : Fld := ⟨31, 16⟩
def F.MGMT_ESTAT_LDET : Fld := ⟨37, 32⟩
def F.MGMT_ERRDB_CSRC : Fld := ⟨15, 0⟩
def F.MGMT_ERRDB_DSRC : Fld := ⟨31, 16⟩
def F.MGMT_ERRDB_FSRC : Fld := ⟨47, 32⟩
def F.MGMT_EFT_WDT : Fld := ⟨15, 0⟩
def F.MGMT_EFT_KICK : Fld := ⟨16, 16⟩
def F.MGMT_EFT_SWAP : Fld := ⟨17, 17⟩
def F.MGMT_EFT_SWAPERR : Fld := ⟨18, 18⟩
def F.MGMT_EFT_RESTARTED : Fld := ⟨19, 19⟩
def F.MGMT_EPTR_PROD : Fld := ⟨15, 0⟩
def F.MGMT_EPTR_CONS : Fld := ⟨31, 16⟩
def F.MGMT_EPTR_DROPC : Fld := ⟨39, 32⟩
def F.MGMT_EPTR_DROPS : Fld := ⟨47, 40⟩
def F.SNAP_AT_AT : Fld := ⟨63, 0⟩
def F.SNAP_CTL_GO : Fld := ⟨0, 0⟩
def F.SNAP_CTL_RESULT : Fld := ⟨3, 1⟩
def F.SNAP_CTL_ID : Fld := ⟨31, 16⟩
def F.SNAP_CTL_DBSRC : Fld := ⟨47, 32⟩
def F.SNAP_DONE_ID : Fld := ⟨15, 0⟩
def F.SNAP_DONE_DONE : Fld := ⟨16, 16⟩
def F.SNAP_DONE_MISSED : Fld := ⟨31, 24⟩
def F.TEL_OVFSRC_SOURCE : Fld := ⟨15, 0⟩
def F.TIME_NOW_TIME : Fld := ⟨63, 0⟩
def F.TIME_ADJ_RATE : Fld := ⟨31, 0⟩
def F.TIME_ADJ_PHASE : Fld := ⟨63, 32⟩
def F.TIME_PPSCAP_CAP : Fld := ⟨63, 0⟩
def F.TIME_PPSCTL_EN : Fld := ⟨0, 0⟩
def F.TIME_PPSCTL_SEEN : Fld := ⟨1, 1⟩
def F.TIME_PPSCTL_ERR : Fld := ⟨63, 32⟩
def F.DBG_ID_DIEID : Fld := ⟨63, 0⟩
def F.DBG_CTL_LEVEL : Fld := ⟨1, 0⟩
def F.DBG_CTL_LOCK : Fld := ⟨2, 2⟩
def F.DBG_UNLOCK_LEVEL : Fld := ⟨1, 0⟩
def F.DBG_UNLOCK_KEYIDX : Fld := ⟨3, 2⟩
def F.DBG_UNLOCK_GO : Fld := ⟨4, 4⟩
def F.DBG_UNLOCK_RESULT : Fld := ⟨7, 5⟩
def F.DBG_UNLOCK_FAILS : Fld := ⟨15, 8⟩
def F.DBG_NONCE_DATA : Fld := ⟨63, 0⟩
def F.DBG_KEY_DATA : Fld := ⟨63, 0⟩
def F.DBG_SIG_DATA : Fld := ⟨63, 0⟩
def F.DBG_MADDR_ADDR : Fld := ⟨47, 3⟩
def F.DBG_MDATA_DATA : Fld := ⟨63, 0⟩
def F.DBG_MCTL_GO : Fld := ⟨0, 0⟩
def F.DBG_MCTL_WRITE : Fld := ⟨1, 1⟩
def F.DBG_MCTL_RESULT : Fld := ⟨3, 2⟩
def F.DBG_REFUSE_ADDR : Fld := ⟨47, 0⟩
def F.DBG_REFUSE_REASON : Fld := ⟨49, 48⟩
def F.DBG_REFUSE_OVF : Fld := ⟨62, 62⟩
def F.DBG_REFUSE_VALID : Fld := ⟨63, 63⟩
def F.DBG_SEAL_EN : Fld := ⟨0, 0⟩
def F.DBG_SEAL_PAGES : Fld := ⟨11, 1⟩
def F.DBG_SEAL_BASE : Fld := ⟨47, 12⟩
def F.DBG_TRCTL_EN : Fld := ⟨0, 0⟩
def F.DBG_TRCTL_WRAP : Fld := ⟨1, 1⟩
def F.DBG_TRCTL_TYPES : Fld := ⟨4, 2⟩
def F.DBG_TRCTL_DROPS : Fld := ⟨47, 32⟩
def F.DBG_TRBUF_SIZE : Fld := ⟨15, 0⟩
def F.DBG_TRBUF_BASE : Fld := ⟨47, 16⟩
def F.DBG_TRPTR_BYTES : Fld := ⟨63, 0⟩
def F.DBG_TRCORE0_MASK : Fld := ⟨63, 0⟩
def F.DBG_TRCORE1_MASK : Fld := ⟨63, 0⟩
def F.DBG_CSEL_CORE : Fld := ⟨6, 0⟩
def F.DBG_CSEL_FILE : Fld := ⟨9, 8⟩
def F.DBG_CSEL_INDEX : Fld := ⟨23, 12⟩
def F.DBG_CSEL_GO : Fld := ⟨24, 24⟩
def F.DBG_CSEL_WRITE : Fld := ⟨25, 25⟩
def F.DBG_CDATA_DATA : Fld := ⟨63, 0⟩
def F.DBG_CCTL_HALT : Fld := ⟨0, 0⟩
def F.DBG_CCTL_RESUME : Fld := ⟨1, 1⟩
def F.DBG_CCTL_STEP : Fld := ⟨2, 2⟩
def F.DBG_CCTL_HALTED : Fld := ⟨3, 3⟩
def F.DBG_CCTL_HALTONBRK : Fld := ⟨4, 4⟩
def F.MGMT_PWR_TDP : Fld := ⟨9, 0⟩
def F.MGMT_PWR_PWR : Fld := ⟨25, 16⟩
def F.MGMT_PWR_LIMITED : Fld := ⟨32, 32⟩
def F.MGMT_PWR_FLOOR : Fld := ⟨33, 33⟩
def F.MGMT_THERM_TJMAX : Fld := ⟨7, 0⟩
def F.MGMT_THERM_THROT : Fld := ⟨8, 8⟩
def F.MGMT_THERM_TEMP : Fld := ⟨27, 16⟩
def F.MGMT_THERM_HOTUNIT : Fld := ⟨47, 32⟩

/-! Control-space keys: unit number × 2^24 + offset (R6). -/

/-- The key of offset `o` of unit `u`. -/
def ckey (u o : Nat) : Nat := u * 0x1000000 + o

def R.VLT_PTBASE (u : Nat) : Nat := ckey u (0xA00)
def R.VLT_PTNEXT (u : Nat) : Nat := ckey u (0xA08)
def R.VLT_SWCTL : Nat := ckey 0x100 (0xB00)
def R.VLT_SWADD : Nat := ckey 0x100 (0xB08)
def R.VLT_SWSTAT : Nat := ckey 0x100 (0xB10)
def R.VLT_SWFREE : Nat := ckey 0x100 (0xB18)
def R.DBH_RING : Nat := ckey 0x140 (0x0)
def R.DBH_HOLD : Nat := ckey 0x140 (0x8)
def R.DBH_IPI : Nat := ckey 0x140 (0x10)
def R.DBH_PEND : Nat := ckey 0x140 (0x14)
def R.DBH_UNPEND : Nat := ckey 0x140 (0x18)
def R.DBH_STAT : Nat := ckey 0x140 (0x20)
def R.DBH_WAKE (i : Nat) : Nat := ckey 0x140 (0x100 + 0x8 * i)
def R.DBH_SRC (i : Nat) : Nat := ckey 0x140 (0x100000 + 0x8 * i)
def R.DBH_SPEND (i : Nat) : Nat := ckey 0x140 (0x200000 + 0x8 * i)
def R.DBH_CLAIM (i : Nat) : Nat := ckey 0x140 (0x400000 + 0x1000 * i)
def R.DBH_CLAIMG (i : Nat) : Nat := ckey 0x140 (0x400004 + 0x1000 * i)
def R.DBH_CLAIMN (i : Nat) : Nat := ckey 0x140 (0x400008 + 0x1000 * i)
def R.DBH_PEEK (i : Nat) : Nat := ckey 0x140 (0x40000C + 0x1000 * i)
def R.DBH_DONE (i : Nat) : Nat := ckey 0x140 (0x400010 + 0x1000 * i)
def R.DBH_PCFG (i : Nat) : Nat := ckey 0x140 (0x400018 + 0x1000 * i)
def R.DBH_PCLASS (i : Nat) : Nat := ckey 0x140 (0x400020 + 0x1000 * i)
def R.DBH_PPEND (i : Nat) : Nat := ckey 0x140 (0x400028 + 0x1000 * i)
def R.DBH_PACT (i : Nat) : Nat := ckey 0x140 (0x400030 + 0x1000 * i)
def R.DBH_TCMP0 (i : Nat) : Nat := ckey 0x140 (0x400038 + 0x1000 * i)
def R.DBH_TCMP1 (i : Nat) : Nat := ckey 0x140 (0x400040 + 0x1000 * i)
def R.DBH_TCTL (i : Nat) : Nat := ckey 0x140 (0x400048 + 0x1000 * i)
def R.DBH_WNADDR (i : Nat) : Nat := ckey 0x140 (0x400050 + 0x1000 * i)
def R.VLT_ILV (u : Nat) : Nat := ckey u (0xC00)
def R.VLT_ILVNEXT (u : Nat) : Nat := ckey u (0xC08)
def R.VLT_PART (u : Nat) : Nat := ckey u (0xC10)
def R.VLT_PRANGE (u : Nat) : Nat := ckey u (0xC18)
def R.VLT_PSTAT (u : Nat) : Nat := ckey u (0xC20)
def R.VLT_CXLR (u i : Nat) : Nat := ckey u (0xC80 + 0x8 * i)
def R.MEM_CFG (u : Nat) : Nat := ckey u (0x0)
def R.MEM_INIT (u : Nat) : Nat := ckey u (0x8)
def R.MEM_SCRUB (u : Nat) : Nat := ckey u (0x10)
def R.MEM_COPYSRC (u : Nat) : Nat := ckey u (0x20)
def R.MEM_COPYDST (u : Nat) : Nat := ckey u (0x28)
def R.MEM_COPYCTL (u : Nat) : Nat := ckey u (0x30)
def R.TLR_CTL (u : Nat) : Nat := ckey u (0x0)
def R.TLR_STAT (u : Nat) : Nat := ckey u (0x8)
def R.TLR_SUBMIT (u : Nat) : Nat := ckey u (0x40)
def R.TLR_INVTLB (u : Nat) : Nat := ckey u (0x48)
def R.TLR_INVVA (u : Nat) : Nat := ckey u (0x50)
def R.TLR_LASTERR (u : Nat) : Nat := ckey u (0x58)
def R.TLR_SRBASE (u i : Nat) : Nat := ckey u (0x100 + 0x20 * i)
def R.TLR_SRCFG (u i : Nat) : Nat := ckey u (0x108 + 0x20 * i)
def R.TLR_SRPT (u i : Nat) : Nat := ckey u (0x110 + 0x20 * i)
def R.TLR_SRCONS (u i : Nat) : Nat := ckey u (0x118 + 0x20 * i)
def R.SEQ_NEXT : Nat := ckey 0x142 (0x1000)
def R.SEQ_CTL : Nat := ckey 0x142 (0x1008)
def R.SEQ_LAST : Nat := ckey 0x142 (0x1010)
def R.TLR_JCTL (u : Nat) : Nat := ckey u (0x300)
def R.TLR_JBASE (u : Nat) : Nat := ckey u (0x308)
def R.TLR_JSIZE (u : Nat) : Nat := ckey u (0x310)
def R.TLR_JMSIZE (u : Nat) : Nat := ckey u (0x350)
def R.TLR_JHEAD (u : Nat) : Nat := ckey u (0x318)
def R.TLR_JDUR (u : Nat) : Nat := ckey u (0x320)
def R.TLR_JLASTD (u : Nat) : Nat := ckey u (0x338)
def R.TLR_JLASTM (u : Nat) : Nat := ckey u (0x340)
def R.TLR_JMHEAD (u : Nat) : Nat := ckey u (0x358)
def R.TLR_JTAIL (u : Nat) : Nat := ckey u (0x328)
def R.TLR_JMTAIL (u : Nat) : Nat := ckey u (0x360)
def R.TLR_JSTAT (u : Nat) : Nat := ckey u (0x330)
def R.TLR_JMBASE (u : Nat) : Nat := ckey u (0x348)
def R.LGP_CFG (u : Nat) : Nat := ckey u (0x0)
def R.LGP_CTL (u : Nat) : Nat := ckey u (0x8)
def R.LGP_INVTLB (u : Nat) : Nat := ckey u (0x10)
def R.LGP_INVVA (u : Nat) : Nat := ckey u (0x18)
def R.LGP_PRQ (u : Nat) : Nat := ckey u (0x20)
def R.LGP_PRQPROD (u : Nat) : Nat := ckey u (0x28)
def R.LGP_PRGR (u : Nat) : Nat := ckey u (0x30)
def R.LGP_PSTAT (u i : Nat) : Nat := ckey u (0x40 + 0x8 * i)
def R.LGP_PWIN (u i : Nat) : Nat := ckey u (0x80 + 0x8 * i)
def R.LGP_FNCTL (u i : Nat) : Nat := ckey u (0x1000 + 0x10 * i)
def R.LGP_FNPT (u i : Nat) : Nat := ckey u (0x1008 + 0x10 * i)
def R.PEER_CFG (u : Nat) : Nat := ckey u (0x0)
def R.PEER_STAT (u : Nat) : Nat := ckey u (0x8)
def R.PEER_TIME (u : Nat) : Nat := ckey u (0x10)
def R.GUARD_CTL (i : Nat) : Nat := ckey 0x141 (0x0 + 0x1000 * i)
def R.GUARD_VADDR (i : Nat) : Nat := ckey 0x141 (0x8 + 0x1000 * i)
def R.GUARD_VINFO (i : Nat) : Nat := ckey 0x141 (0x10 + 0x1000 * i)
def R.GUARD_LO (i j : Nat) : Nat := ckey 0x141 (0x800 + 0x1000 * i + 0x20 * j)
def R.GUARD_HI (i j : Nat) : Nat := ckey 0x141 (0x808 + 0x1000 * i + 0x20 * j)
def R.GUARD_ATTR (i j : Nat) : Nat := ckey 0x141 (0x810 + 0x1000 * i + 0x20 * j)
def R.GUARD_BIND (i j : Nat) : Nat := ckey 0x141 (0x818 + 0x1000 * i + 0x20 * j)
def R.IMG_STATUS : Nat := ckey 0x160 (0x100)
def R.IMG_ERR0 : Nat := ckey 0x160 (0x108)
def R.IMG_ERR1 : Nat := ckey 0x160 (0x110)
def R.IMG_STAGET (i : Nat) : Nat := ckey 0x160 (0x140 + 0x8 * i)
def R.IMG_APPLY : Nat := ckey 0x160 (0x200)
def R.IMG_FPAGE : Nat := ckey 0x160 (0x208)
def R.IMG_FCMD : Nat := ckey 0x160 (0x210)
def R.IMG_FSTAT : Nat := ckey 0x160 (0x218)
def R.IMG_FBUF (i : Nat) : Nat := ckey 0x160 (0x300 + 0x8 * i)
def R.IMG_FSVN : Nat := ckey 0x160 (0x400)
def R.IMG_FREVOKE : Nat := ckey 0x160 (0x408)
def R.IMG_FDIEID : Nat := ckey 0x160 (0x410)
def R.IMG_FKEY (i : Nat) : Nat := ckey 0x160 (0x440 + 0x8 * i)
def R.MGMT_UCTL (u : Nat) : Nat := ckey u (0xF00000)
def R.MGMT_USTAT (u : Nat) : Nat := ckey u (0xF00008)
def R.MGMT_CLK (u : Nat) : Nat := ckey u (0xF00010)
def R.TEL_EVSEL (u i : Nat) : Nat := ckey u (0xF10000 + 0x20 * i)
def R.TEL_CTR (u i : Nat) : Nat := ckey u (0xF10008 + 0x20 * i)
def R.TEL_SHD (u i : Nat) : Nat := ckey u (0xF10010 + 0x20 * i)
def R.TEL_SHDID (u : Nat) : Nat := ckey u (0xF10200)
def R.TEL_OVF (u : Nat) : Nat := ckey u (0xF10208)
def R.ERRINJ_CTL (u i : Nat) : Nat := ckey u (0xF80000 + 0x10 * i)
def R.ERRINJ_PER (u i : Nat) : Nat := ckey u (0xF80008 + 0x10 * i)
def R.MGMT_MODE : Nat := ckey 0x160 (0x0)
def R.MGMT_ESTAT : Nat := ckey 0x160 (0x8)
def R.MGMT_ERRDB : Nat := ckey 0x160 (0x10)
def R.MGMT_EFT : Nat := ckey 0x160 (0x18)
def R.MGMT_EPTR (i : Nat) : Nat := ckey 0x160 (0x300000 + 0x8 * i)
def R.SNAP_AT : Nat := ckey 0x150 (0x0)
def R.SNAP_CTL : Nat := ckey 0x150 (0x8)
def R.SNAP_DONE : Nat := ckey 0x150 (0x10)
def R.TEL_OVFSRC : Nat := ckey 0x150 (0x18)
def R.TIME_NOW : Nat := ckey 0x142 (0x0)
def R.TIME_ADJ : Nat := ckey 0x142 (0x8)
def R.TIME_PPSCAP : Nat := ckey 0x142 (0x10)
def R.TIME_PPSCTL : Nat := ckey 0x142 (0x18)
def R.DBG_ID : Nat := ckey 0x170 (0x0)
def R.DBG_CTL : Nat := ckey 0x170 (0x8)
def R.DBG_UNLOCK : Nat := ckey 0x170 (0x10)
def R.DBG_NONCE (i : Nat) : Nat := ckey 0x170 (0x100 + 0x8 * i)
def R.DBG_KEY (i : Nat) : Nat := ckey 0x170 (0x140 + 0x8 * i)
def R.DBG_SIG (i : Nat) : Nat := ckey 0x170 (0x1C0 + 0x8 * i)
def R.DBG_MADDR : Nat := ckey 0x170 (0x300)
def R.DBG_MDATA : Nat := ckey 0x170 (0x308)
def R.DBG_MCTL : Nat := ckey 0x170 (0x310)
def R.DBG_REFUSE : Nat := ckey 0x170 (0x318)
def R.DBG_SEAL (i : Nat) : Nat := ckey 0x170 (0x400 + 0x8 * i)
def R.DBG_TRCTL : Nat := ckey 0x170 (0x500)
def R.DBG_TRBUF : Nat := ckey 0x170 (0x508)
def R.DBG_TRPTR : Nat := ckey 0x170 (0x510)
def R.DBG_TRCORE0 : Nat := ckey 0x170 (0x518)
def R.DBG_TRCORE1 : Nat := ckey 0x170 (0x520)
def R.DBG_CSEL : Nat := ckey 0x170 (0x600)
def R.DBG_CDATA (i : Nat) : Nat := ckey 0x170 (0x608 + 0x8 * i)
def R.DBG_CCTL (i : Nat) : Nat := ckey 0x170 (0x1000 + 0x8 * i)
def R.MGMT_PWR : Nat := ckey 0x160 (0x20)
def R.MGMT_THERM : Nat := ckey 0x160 (0x28)

def regRowsVLT0 : List RegRow := [
  ⟨.VLT_PTBASE, 0x100, 0x10F, 0xA00, 0x0, 1, 0x0, 1, 8, 0x0,
    [⟨"PTB_SIZE", ⟨4, 0⟩, .rwl⟩, ⟨"PTB_BASE", ⟨47, 12⟩, .rwl⟩]⟩,
  ⟨.VLT_PTNEXT, 0x100, 0x10F, 0xA08, 0x0, 1, 0x0, 1, 8, 0x0,
    [⟨"PTB_SIZE", ⟨4, 0⟩, .rw⟩, ⟨"PTB_BASE", ⟨47, 12⟩, .rw⟩]⟩,
  ⟨.VLT_SWCTL, 0x100, 0x100, 0xB00, 0x0, 1, 0x0, 1, 8, 0xFFFF00000D00,
    [⟨"GO", ⟨0, 0⟩, .wo⟩, ⟨"CLEAR", ⟨1, 1⟩, .wo⟩, ⟨"SCOPE", ⟨2, 2⟩, .rw⟩, ⟨"RATE", ⟨15, 8⟩, .rw⟩, ⟨"DBSRC", ⟨47, 32⟩, .rw⟩]⟩,
  ⟨.VLT_SWADD, 0x100, 0x100, 0xB08, 0x0, 1, 0x0, 1, 8, 0x0,
    [⟨"INDEX", ⟨31, 0⟩, .wo⟩]⟩,
  ⟨.VLT_SWSTAT, 0x100, 0x100, 0xB10, 0x0, 1, 0x0, 1, 8, 0x0,
    [⟨"COUNT", ⟨12, 0⟩, .ro⟩, ⟨"PHASE", ⟨18, 16⟩, .ro⟩, ⟨"RESULT", ⟨23, 20⟩, .ro⟩, ⟨"DROPPED", ⟨44, 32⟩, .ro⟩]⟩,
  ⟨.VLT_SWFREE, 0x100, 0x100, 0xB18, 0x0, 1, 0x0, 1, 8, 0x0,
    [⟨"ADDR", ⟨47, 3⟩, .rw⟩]⟩,
  ⟨.VLT_ILV, 0x100, 0x10F, 0xC00, 0x0, 1, 0x0, 1, 8, 0x1,
    [⟨"GRAN", ⟨1, 0⟩, .rwl⟩, ⟨"DDRTOP", ⟨47, 28⟩, .ro⟩]⟩,
  ⟨.VLT_ILVNEXT, 0x100, 0x10F, 0xC08, 0x0, 1, 0x0, 1, 8, 0x1,
    [⟨"GRAN", ⟨1, 0⟩, .rw⟩]⟩]

def regRowsVLT1 : List RegRow := [
  ⟨.VLT_PART, 0x100, 0x10F, 0xC10, 0x0, 1, 0x0, 1, 8, 0x0,
    [⟨"WAYS", ⟨4, 0⟩, .rw⟩, ⟨"KIND", ⟨5, 5⟩, .rw⟩, ⟨"EN", ⟨6, 6⟩, .rw⟩]⟩,
  ⟨.VLT_PRANGE, 0x100, 0x10F, 0xC18, 0x0, 1, 0x0, 1, 8, 0x0,
    [⟨"BASE", ⟨47, 16⟩, .rw⟩]⟩,
  ⟨.VLT_PSTAT, 0x100, 0x10F, 0xC20, 0x0, 1, 0x0, 1, 8, 0x0,
    [⟨"STATE", ⟨1, 0⟩, .ro⟩, ⟨"FILLED", ⟨20, 2⟩, .ro⟩, ⟨"REFUSE", ⟨23, 21⟩, .ro⟩]⟩,
  ⟨.VLT_CXLR, 0x100, 0x10F, 0xC80, 0x8, 16, 0x0, 1, 8, 0x0,
    [⟨"EN", ⟨0, 0⟩, .rw⟩, ⟨"PERSIST", ⟨1, 1⟩, .rw⟩, ⟨"READY", ⟨2, 2⟩, .ro⟩, ⟨"LGRP", ⟨7, 4⟩, .rw⟩, ⟨"PORT", ⟨10, 8⟩, .rw⟩, ⟨"BASE", ⟨47, 30⟩, .rw⟩, ⟨"SIZE", ⟨63, 48⟩, .rw⟩]⟩]

def regRowsDBH0 : List RegRow := [
  ⟨.DBH_RING, 0x140, 0x140, 0x0, 0x0, 1, 0x0, 1, 4, 0x0,
    [⟨"SOURCE", ⟨15, 0⟩, .wo⟩]⟩,
  ⟨.DBH_HOLD, 0x140, 0x140, 0x8, 0x0, 1, 0x0, 1, 8, 0x0,
    [⟨"NORMAL", ⟨0, 0⟩, .rw⟩, ⟨"GECKO", ⟨1, 1⟩, .rw⟩]⟩,
  ⟨.DBH_IPI, 0x140, 0x140, 0x10, 0x0, 1, 0x0, 1, 4, 0x0,
    [⟨"CORE", ⟨6, 0⟩, .wo⟩, ⟨"INDEX", ⟨9, 7⟩, .wo⟩, ⟨"SOCKET", ⟨12, 10⟩, .wo⟩, ⟨"REMOTE", ⟨13, 13⟩, .wo⟩]⟩,
  ⟨.DBH_PEND, 0x140, 0x140, 0x14, 0x0, 1, 0x0, 1, 4, 0x0,
    [⟨"SOURCE", ⟨15, 0⟩, .wo⟩]⟩,
  ⟨.DBH_UNPEND, 0x140, 0x140, 0x18, 0x0, 1, 0x0, 1, 4, 0x0,
    [⟨"SOURCE", ⟨15, 0⟩, .wo⟩]⟩,
  ⟨.DBH_STAT, 0x140, 0x140, 0x20, 0x0, 1, 0x0, 1, 8, 0x0,
    [⟨"BADRING", ⟨15, 0⟩, .rc⟩, ⟨"BADDONE", ⟨31, 16⟩, .rc⟩, ⟨"HELDTGT", ⟨47, 32⟩, .rc⟩]⟩,
  ⟨.DBH_WAKE, 0x140, 0x140, 0x100, 0x8, 33, 0x0, 1, 8, 0x0,
    [⟨"SOURCE", ⟨15, 0⟩, .rw⟩, ⟨"EDGE", ⟨17, 16⟩, .rw⟩, ⟨"EFT", ⟨18, 18⟩, .rw⟩, ⟨"HIT", ⟨19, 19⟩, .w1c⟩]⟩,
  ⟨.DBH_SRC, 0x140, 0x140, 0x100000, 0x8, 65536, 0x0, 1, 8, 0x10200,
    [⟨"TARGET", ⟨6, 0⟩, .rw⟩, ⟨"GECKO", ⟨8, 8⟩, .rw⟩, ⟨"MASK", ⟨9, 9⟩, .rw⟩, ⟨"COUNT", ⟨23, 16⟩, .rw⟩, ⟨"TIME", ⟨47, 32⟩, .rw⟩, ⟨"LCORE", ⟨54, 48⟩, .ro⟩, ⟨"P", ⟨56, 56⟩, .ro⟩, ⟨"A", ⟨57, 57⟩, .ro⟩, ⟨"L", ⟨58, 58⟩, .ro⟩]⟩]

def regRowsDBH1 : List RegRow := [
  ⟨.DBH_SPEND, 0x140, 0x140, 0x200000, 0x8, 1024, 0x0, 1, 8, 0x0,
    [⟨"P", ⟨63, 0⟩, .ro⟩]⟩,
  ⟨.DBH_CLAIM, 0x140, 0x140, 0x400000, 0x1000, 128, 0x0, 1, 4, 0xFFFFFFFF,
    [⟨"SOURCE", ⟨31, 0⟩, .ro⟩]⟩,
  ⟨.DBH_CLAIMG, 0x140, 0x140, 0x400004, 0x1000, 128, 0x0, 1, 4, 0xFFFFFFFF,
    [⟨"SOURCE", ⟨31, 0⟩, .ro⟩]⟩,
  ⟨.DBH_CLAIMN, 0x140, 0x140, 0x400008, 0x1000, 128, 0x0, 1, 4, 0xFFFFFFFF,
    [⟨"SOURCE", ⟨31, 0⟩, .ro⟩]⟩,
  ⟨.DBH_PEEK, 0x140, 0x140, 0x40000C, 0x1000, 128, 0x0, 1, 4, 0xFFFFFFFF,
    [⟨"SOURCE", ⟨31, 0⟩, .ro⟩]⟩,
  ⟨.DBH_DONE, 0x140, 0x140, 0x400010, 0x1000, 128, 0x0, 1, 4, 0x0,
    [⟨"SOURCE", ⟨31, 0⟩, .wo⟩]⟩,
  ⟨.DBH_PCFG, 0x140, 0x140, 0x400018, 0x1000, 128, 0x0, 1, 8, 0xFFFFFFFFFFFFFFFF,
    [⟨"MASK", ⟨63, 0⟩, .rw⟩]⟩,
  ⟨.DBH_PCLASS, 0x140, 0x140, 0x400020, 0x1000, 128, 0x0, 1, 8, 0x0,
    [⟨"GECKO", ⟨63, 0⟩, .rw⟩]⟩]

def regRowsDBH2 : List RegRow := [
  ⟨.DBH_PPEND, 0x140, 0x140, 0x400028, 0x1000, 128, 0x0, 1, 8, 0x0,
    [⟨"P", ⟨63, 0⟩, .w1s⟩]⟩,
  ⟨.DBH_PACT, 0x140, 0x140, 0x400030, 0x1000, 128, 0x0, 1, 8, 0x0,
    [⟨"A", ⟨63, 0⟩, .ro⟩]⟩,
  ⟨.DBH_TCMP0, 0x140, 0x140, 0x400038, 0x1000, 128, 0x0, 1, 8, 0x0,
    [⟨"CMP", ⟨63, 0⟩, .rw⟩]⟩,
  ⟨.DBH_TCMP1, 0x140, 0x140, 0x400040, 0x1000, 128, 0x0, 1, 8, 0x0,
    [⟨"CMP", ⟨63, 0⟩, .rw⟩]⟩,
  ⟨.DBH_TCTL, 0x140, 0x140, 0x400048, 0x1000, 128, 0x0, 1, 8, 0x0,
    [⟨"EN0", ⟨0, 0⟩, .rw⟩, ⟨"EN1", ⟨1, 1⟩, .rw⟩]⟩,
  ⟨.DBH_WNADDR, 0x140, 0x140, 0x400050, 0x1000, 128, 0x0, 1, 8, 0x0,
    [⟨"ADDR", ⟨47, 0⟩, .ro⟩, ⟨"INIT", ⟨56, 48⟩, .ro⟩, ⟨"OVF", ⟨62, 62⟩, .rc⟩, ⟨"VALID", ⟨63, 63⟩, .rc⟩]⟩]

def regRowsMEM : List RegRow := [
  ⟨.MEM_CFG, 0x110, 0x11F, 0x0, 0x0, 1, 0x0, 1, 8, 0x0,
    [⟨"DIMMS", ⟨1, 0⟩, .ro⟩, ⟨"RANKS", ⟨3, 2⟩, .ro⟩, ⟨"X8", ⟨4, 4⟩, .ro⟩, ⟨"DENSITY", ⟨6, 5⟩, .ro⟩, ⟨"RATE", ⟨23, 16⟩, .ro⟩, ⟨"CAP", ⟨40, 32⟩, .ro⟩, ⟨"STATE", ⟨50, 48⟩, .ro⟩]⟩,
  ⟨.MEM_INIT, 0x110, 0x11F, 0x8, 0x0, 1, 0x0, 1, 8, 0x0,
    [⟨"FRONTIER", ⟨37, 12⟩, .ro⟩, ⟨"DONE", ⟨63, 63⟩, .ro⟩]⟩,
  ⟨.MEM_SCRUB, 0x110, 0x11F, 0x10, 0x0, 1, 0x0, 1, 8, 0x1801,
    [⟨"EN", ⟨0, 0⟩, .rw⟩, ⟨"PERIOD", ⟨15, 8⟩, .rw⟩, ⟨"PASSES", ⟨47, 32⟩, .ro⟩]⟩,
  ⟨.MEM_COPYSRC, 0x110, 0x11F, 0x20, 0x0, 1, 0x0, 1, 8, 0x0,
    [⟨"ADDR", ⟨47, 12⟩, .rw⟩]⟩,
  ⟨.MEM_COPYDST, 0x110, 0x11F, 0x28, 0x0, 1, 0x0, 1, 8, 0x0,
    [⟨"ADDR", ⟨47, 12⟩, .rw⟩]⟩,
  ⟨.MEM_COPYCTL, 0x110, 0x11F, 0x30, 0x0, 1, 0x0, 1, 8, 0xFFFF00000000,
    [⟨"GO", ⟨0, 0⟩, .wo⟩, ⟨"ABORT", ⟨1, 1⟩, .wo⟩, ⟨"STATE", ⟨6, 4⟩, .ro⟩, ⟨"PAGES", ⟨31, 16⟩, .rw⟩, ⟨"DBSRC", ⟨47, 32⟩, .rw⟩]⟩]

def regRowsTLR0 : List RegRow := [
  ⟨.TLR_CTL, 0x100, 0x10F, 0x0, 0x0, 1, 0x0, 1, 8, 0x2,
    [⟨"EN", ⟨0, 0⟩, .rw⟩, ⟨"IDLE", ⟨1, 1⟩, .ro⟩]⟩,
  ⟨.TLR_STAT, 0x100, 0x10F, 0x8, 0x0, 1, 0x0, 1, 8, 0x0,
    [⟨"PLACES", ⟨5, 0⟩, .ro⟩, ⟨"QUEUED", ⟨12, 6⟩, .ro⟩, ⟨"BUSY", ⟨31, 16⟩, .rc⟩, ⟨"RINGERR", ⟨47, 32⟩, .rc⟩, ⟨"CRLOST", ⟨63, 48⟩, .rc⟩]⟩,
  ⟨.TLR_SUBMIT, 0x100, 0x10F, 0x40, 0x0, 1, 0x0, 1, 8, 0x0,
    [⟨"RING", ⟨3, 0⟩, .wo⟩, ⟨"PROD", ⟨47, 16⟩, .wo⟩]⟩,
  ⟨.TLR_INVTLB, 0x100, 0x10F, 0x48, 0x0, 1, 0x0, 1, 8, 0x0,
    [⟨"OP", ⟨1, 0⟩, .wo⟩, ⟨"ASID", ⟨31, 16⟩, .wo⟩]⟩,
  ⟨.TLR_INVVA, 0x100, 0x10F, 0x50, 0x0, 1, 0x0, 1, 8, 0x0,
    [⟨"VA", ⟨63, 12⟩, .rw⟩]⟩,
  ⟨.TLR_LASTERR, 0x100, 0x10F, 0x58, 0x0, 1, 0x0, 1, 8, 0x0,
    [⟨"STATUS", ⟨7, 0⟩, .ro⟩, ⟨"CAUSE", ⟨11, 8⟩, .ro⟩, ⟨"RING", ⟨16, 12⟩, .ro⟩, ⟨"SLOT", ⟨47, 32⟩, .ro⟩, ⟨"VALID", ⟨63, 63⟩, .rc⟩]⟩,
  ⟨.TLR_SRBASE, 0x100, 0x10F, 0x100, 0x20, 16, 0x0, 1, 8, 0x0,
    [⟨"BASE", ⟨47, 4⟩, .rw⟩]⟩,
  ⟨.TLR_SRCFG, 0x100, 0x10F, 0x108, 0x20, 16, 0x0, 1, 8, 0x0,
    [⟨"EN", ⟨0, 0⟩, .rw⟩, ⟨"LOG2", ⟨5, 1⟩, .rw⟩, ⟨"RING", ⟨7, 6⟩, .rw⟩, ⟨"ASID", ⟨31, 16⟩, .rw⟩]⟩]

def regRowsTLR1 : List RegRow := [
  ⟨.TLR_SRPT, 0x100, 0x10F, 0x110, 0x20, 16, 0x0, 1, 8, 0x0,
    [⟨"MODE", ⟨1, 0⟩, .rw⟩, ⟨"ROOT", ⟨47, 12⟩, .rw⟩]⟩,
  ⟨.TLR_SRCONS, 0x100, 0x10F, 0x118, 0x20, 16, 0x0, 1, 8, 0x0,
    [⟨"CONS", ⟨31, 0⟩, .ro⟩, ⟨"PROD", ⟨63, 32⟩, .ro⟩]⟩,
  ⟨.TLR_JCTL, 0x100, 0x10F, 0x300, 0x0, 1, 0x0, 1, 8, 0x0,
    [⟨"LOCAL", ⟨0, 0⟩, .rw⟩, ⟨"MIRROR", ⟨1, 1⟩, .rw⟩, ⟨"MSOCK", ⟨6, 4⟩, .rw⟩, ⟨"EPOCH", ⟨63, 32⟩, .rw⟩]⟩,
  ⟨.TLR_JBASE, 0x100, 0x10F, 0x308, 0x0, 1, 0x0, 1, 8, 0x0,
    [⟨"BASE", ⟨47, 12⟩, .rw⟩]⟩,
  ⟨.TLR_JSIZE, 0x100, 0x10F, 0x310, 0x0, 1, 0x0, 1, 8, 0x0,
    [⟨"SIZE", ⟨47, 12⟩, .rw⟩]⟩,
  ⟨.TLR_JMSIZE, 0x100, 0x10F, 0x350, 0x0, 1, 0x0, 1, 8, 0x0,
    [⟨"SIZE", ⟨47, 12⟩, .rw⟩]⟩,
  ⟨.TLR_JHEAD, 0x100, 0x10F, 0x318, 0x0, 1, 0x0, 1, 8, 0x0,
    [⟨"HEAD", ⟨63, 0⟩, .ro⟩]⟩,
  ⟨.TLR_JDUR, 0x100, 0x10F, 0x320, 0x0, 1, 0x0, 1, 8, 0x0,
    [⟨"DUR", ⟨63, 0⟩, .ro⟩]⟩]

def regRowsTLR2 : List RegRow := [
  ⟨.TLR_JLASTD, 0x100, 0x10F, 0x338, 0x0, 1, 0x0, 1, 8, 0x0,
    [⟨"SEQ", ⟨63, 0⟩, .ro⟩]⟩,
  ⟨.TLR_JLASTM, 0x100, 0x10F, 0x340, 0x0, 1, 0x0, 1, 8, 0x0,
    [⟨"SEQ", ⟨63, 0⟩, .ro⟩]⟩,
  ⟨.TLR_JMHEAD, 0x100, 0x10F, 0x358, 0x0, 1, 0x0, 1, 8, 0x0,
    [⟨"HEAD", ⟨63, 0⟩, .ro⟩]⟩,
  ⟨.TLR_JTAIL, 0x100, 0x10F, 0x328, 0x0, 1, 0x0, 1, 8, 0x0,
    [⟨"TAIL", ⟨63, 0⟩, .rw⟩]⟩,
  ⟨.TLR_JMTAIL, 0x100, 0x10F, 0x360, 0x0, 1, 0x0, 1, 8, 0x0,
    [⟨"TAIL", ⟨63, 0⟩, .rw⟩]⟩,
  ⟨.TLR_JSTAT, 0x100, 0x10F, 0x330, 0x0, 1, 0x0, 1, 8, 0x0,
    [⟨"STAGED", ⟨20, 0⟩, .ro⟩, ⟨"SFULL", ⟨21, 21⟩, .ro⟩, ⟨"NOSPACE", ⟨22, 22⟩, .ro⟩, ⟨"MIRDOWN", ⟨23, 23⟩, .ro⟩, ⟨"LOCALERR", ⟨24, 24⟩, .ro⟩, ⟨"STALLS", ⟨47, 32⟩, .rc⟩]⟩,
  ⟨.TLR_JMBASE, 0x100, 0x10F, 0x348, 0x0, 1, 0x0, 1, 8, 0x0,
    [⟨"EN", ⟨0, 0⟩, .rw⟩, ⟨"PERSIST", ⟨1, 1⟩, .rw⟩, ⟨"SRCSOCK", ⟨4, 2⟩, .rw⟩, ⟨"BASE", ⟨47, 12⟩, .rw⟩]⟩]

def regRowsSEQ : List RegRow := [
  ⟨.SEQ_NEXT, 0x142, 0x142, 0x1000, 0x0, 1, 0x0, 1, 8, 0x1,
    [⟨"NEXT", ⟨59, 0⟩, .rw⟩, ⟨"SOCKET", ⟨63, 60⟩, .ro⟩]⟩,
  ⟨.SEQ_CTL, 0x142, 0x142, 0x1008, 0x0, 1, 0x0, 1, 8, 0x0,
    [⟨"OPEN", ⟨0, 0⟩, .rw⟩, ⟨"EXHAUSTED", ⟨1, 1⟩, .ro⟩]⟩,
  ⟨.SEQ_LAST, 0x142, 0x142, 0x1010, 0x0, 1, 0x0, 1, 8, 0x0,
    [⟨"LAST", ⟨63, 0⟩, .ro⟩]⟩]

def regRowsLGP0 : List RegRow := [
  ⟨.LGP_CFG, 0x120, 0x12F, 0x0, 0x0, 1, 0x0, 1, 8, 0x0,
    [⟨"PROTO0", ⟨2, 0⟩, .rw⟩, ⟨"PROTO1", ⟨10, 8⟩, .rw⟩, ⟨"PROTO2", ⟨18, 16⟩, .rw⟩, ⟨"PROTO3", ⟨26, 24⟩, .rw⟩, ⟨"PROTO4", ⟨34, 32⟩, .rw⟩, ⟨"PROTO5", ⟨42, 40⟩, .rw⟩, ⟨"PROTO6", ⟨50, 48⟩, .rw⟩, ⟨"PROTO7", ⟨58, 56⟩, .rw⟩, ⟨"WIDTH0", ⟨5, 3⟩, .rw⟩, ⟨"WIDTH1", ⟨13, 11⟩, .rw⟩, ⟨"WIDTH2", ⟨21, 19⟩, .rw⟩, ⟨"WIDTH3", ⟨29, 27⟩, .rw⟩, ⟨"WIDTH4", ⟨37, 35⟩, .rw⟩, ⟨"WIDTH5", ⟨45, 43⟩, .rw⟩, ⟨"WIDTH6", ⟨53, 51⟩, .rw⟩, ⟨"WIDTH7", ⟨61, 59⟩, .rw⟩]⟩,
  ⟨.LGP_CTL, 0x120, 0x12F, 0x8, 0x0, 1, 0x0, 1, 8, 0x0,
    [⟨"APPLY", ⟨0, 0⟩, .wo⟩, ⟨"BADCFG", ⟨1, 1⟩, .ro⟩]⟩,
  ⟨.LGP_INVTLB, 0x120, 0x12F, 0x10, 0x0, 1, 0x0, 1, 8, 0x0,
    [⟨"OP", ⟨1, 0⟩, .wo⟩, ⟨"ASID", ⟨31, 16⟩, .wo⟩]⟩,
  ⟨.LGP_INVVA, 0x120, 0x12F, 0x18, 0x0, 1, 0x0, 1, 8, 0x0,
    [⟨"VA", ⟨63, 12⟩, .rw⟩]⟩,
  ⟨.LGP_PRQ, 0x120, 0x12F, 0x20, 0x0, 1, 0x0, 1, 8, 0xFFFF000000000000,
    [⟨"EN", ⟨0, 0⟩, .rw⟩, ⟨"LOG2", ⟨4, 1⟩, .rw⟩, ⟨"BASE", ⟨47, 12⟩, .rw⟩, ⟨"DBSRC", ⟨63, 48⟩, .rw⟩]⟩,
  ⟨.LGP_PRQPROD, 0x120, 0x12F, 0x28, 0x0, 1, 0x0, 1, 8, 0x0,
    [⟨"PROD", ⟨31, 0⟩, .ro⟩]⟩,
  ⟨.LGP_PRGR, 0x120, 0x12F, 0x30, 0x0, 1, 0x0, 1, 8, 0x0,
    [⟨"RID", ⟨15, 0⟩, .wo⟩, ⟨"PRGI", ⟨24, 16⟩, .wo⟩, ⟨"CODE", ⟨28, 25⟩, .wo⟩]⟩,
  ⟨.LGP_PSTAT, 0x120, 0x12F, 0x40, 0x8, 8, 0x0, 1, 8, 0x0,
    [⟨"STATE", ⟨2, 0⟩, .ro⟩, ⟨"WIDTH", ⟨5, 3⟩, .ro⟩, ⟨"RATE", ⟨8, 6⟩, .ro⟩, ⟨"FLIT", ⟨9, 9⟩, .ro⟩, ⟨"REPLAYS", ⟨31, 16⟩, .rc⟩, ⟨"PRQDROP", ⟨47, 32⟩, .rc⟩]⟩]

def regRowsLGP1 : List RegRow := [
  ⟨.LGP_PWIN, 0x120, 0x12F, 0x80, 0x8, 8, 0x0, 1, 8, 0x0,
    [⟨"EN", ⟨0, 0⟩, .rw⟩, ⟨"BASE", ⟨23, 1⟩, .rw⟩, ⟨"LIMIT", ⟨46, 24⟩, .rw⟩]⟩,
  ⟨.LGP_FNCTL, 0x120, 0x12F, 0x1000, 0x10, 256, 0x0, 1, 8, 0x0,
    [⟨"EN", ⟨0, 0⟩, .rw⟩, ⟨"XLATE", ⟨1, 1⟩, .rw⟩, ⟨"ATS", ⟨2, 2⟩, .rw⟩, ⟨"PRI", ⟨3, 3⟩, .rw⟩, ⟨"ATSTO", ⟨4, 4⟩, .w1c⟩, ⟨"RID", ⟨31, 16⟩, .rw⟩, ⟨"ASID", ⟨47, 32⟩, .rw⟩]⟩,
  ⟨.LGP_FNPT, 0x120, 0x12F, 0x1008, 0x10, 256, 0x0, 1, 8, 0x0,
    [⟨"MODE", ⟨1, 0⟩, .rw⟩, ⟨"ROOT", ⟨47, 12⟩, .rw⟩]⟩]

def regRowsPEER : List RegRow := [
  ⟨.PEER_CFG, 0x130, 0x136, 0x0, 0x0, 1, 0x0, 1, 8, 0x0,
    [⟨"EN", ⟨0, 0⟩, .rw⟩, ⟨"LGRP", ⟨4, 1⟩, .rw⟩, ⟨"X8", ⟨5, 5⟩, .rw⟩, ⟨"SOCKET", ⟨8, 6⟩, .rw⟩, ⟨"FOLLOW", ⟨9, 9⟩, .rw⟩]⟩,
  ⟨.PEER_STAT, 0x130, 0x136, 0x8, 0x0, 1, 0x0, 1, 8, 0x0,
    [⟨"STATE", ⟨2, 0⟩, .ro⟩, ⟨"MISMATCH", ⟨3, 3⟩, .ro⟩, ⟨"FAR", ⟨4, 4⟩, .ro⟩, ⟨"RSOCK", ⟨7, 5⟩, .ro⟩, ⟨"BADMSG", ⟨15, 8⟩, .rc⟩, ⟨"REPLAYS", ⟨31, 16⟩, .rc⟩, ⟨"RETRAINS", ⟨47, 32⟩, .rc⟩]⟩,
  ⟨.PEER_TIME, 0x130, 0x136, 0x10, 0x0, 1, 0x0, 1, 8, 0x0,
    [⟨"OFFSET", ⟨31, 0⟩, .ro⟩, ⟨"DELAY", ⟨47, 32⟩, .ro⟩, ⟨"ALIGNED", ⟨48, 48⟩, .ro⟩]⟩]

def regRowsGUARD0 : List RegRow := [
  ⟨.GUARD_CTL, 0x141, 0x141, 0x0, 0x1000, 23, 0x0, 1, 8, 0xFFFF0000,
    [⟨"STRICT", ⟨0, 0⟩, .rw⟩, ⟨"EVICT", ⟨1, 1⟩, .wo⟩, ⟨"NSRC", ⟨31, 16⟩, .rw⟩, ⟨"VCOUNT", ⟨47, 32⟩, .rc⟩]⟩,
  ⟨.GUARD_CTL, 0x141, 0x141, 0x18000, 0x1000, 2, 0x0, 1, 8, 0xFFFF0000,
    [⟨"STRICT", ⟨0, 0⟩, .rw⟩, ⟨"EVICT", ⟨1, 1⟩, .wo⟩, ⟨"NSRC", ⟨31, 16⟩, .rw⟩, ⟨"VCOUNT", ⟨47, 32⟩, .rc⟩]⟩,
  ⟨.GUARD_VADDR, 0x141, 0x141, 0x8, 0x1000, 23, 0x0, 1, 8, 0x0,
    [⟨"ADDR", ⟨47, 0⟩, .ro⟩]⟩,
  ⟨.GUARD_VADDR, 0x141, 0x141, 0x18008, 0x1000, 2, 0x0, 1, 8, 0x0,
    [⟨"ADDR", ⟨47, 0⟩, .ro⟩]⟩,
  ⟨.GUARD_VINFO, 0x141, 0x141, 0x10, 0x1000, 23, 0x0, 1, 8, 0x0,
    [⟨"OP", ⟨2, 0⟩, .ro⟩, ⟨"REASON", ⟨7, 4⟩, .ro⟩, ⟨"GUARD", ⟨13, 8⟩, .ro⟩, ⟨"SRC", ⟨31, 16⟩, .ro⟩, ⟨"XCAUSE", ⟨35, 32⟩, .ro⟩, ⟨"OVF", ⟨62, 62⟩, .rc⟩, ⟨"VALID", ⟨63, 63⟩, .rc⟩]⟩,
  ⟨.GUARD_VINFO, 0x141, 0x141, 0x18010, 0x1000, 2, 0x0, 1, 8, 0x0,
    [⟨"OP", ⟨2, 0⟩, .ro⟩, ⟨"REASON", ⟨7, 4⟩, .ro⟩, ⟨"GUARD", ⟨13, 8⟩, .ro⟩, ⟨"SRC", ⟨31, 16⟩, .ro⟩, ⟨"XCAUSE", ⟨35, 32⟩, .ro⟩, ⟨"OVF", ⟨62, 62⟩, .rc⟩, ⟨"VALID", ⟨63, 63⟩, .rc⟩]⟩,
  ⟨.GUARD_LO, 0x141, 0x141, 0x800, 0x1000, 23, 0x20, 64, 8, 0x0,
    [⟨"EN", ⟨0, 0⟩, .rw⟩, ⟨"BASE", ⟨47, 12⟩, .rw⟩]⟩,
  ⟨.GUARD_LO, 0x141, 0x141, 0x18800, 0x1000, 2, 0x20, 16, 8, 0x0,
    [⟨"EN", ⟨0, 0⟩, .rw⟩, ⟨"BASE", ⟨47, 12⟩, .rw⟩]⟩]

def regRowsGUARD1 : List RegRow := [
  ⟨.GUARD_HI, 0x141, 0x141, 0x808, 0x1000, 23, 0x20, 64, 8, 0x0,
    [⟨"LIMIT", ⟨47, 12⟩, .rw⟩]⟩,
  ⟨.GUARD_HI, 0x141, 0x141, 0x18808, 0x1000, 2, 0x20, 16, 8, 0x0,
    [⟨"LIMIT", ⟨47, 12⟩, .rw⟩]⟩,
  ⟨.GUARD_ATTR, 0x141, 0x141, 0x810, 0x1000, 23, 0x20, 64, 8, 0x0,
    [⟨"RD", ⟨0, 0⟩, .rw⟩, ⟨"WR", ⟨1, 1⟩, .rw⟩, ⟨"AT", ⟨2, 2⟩, .rw⟩, ⟨"COIN", ⟨3, 3⟩, .rw⟩, ⟨"ANYFN", ⟨4, 4⟩, .rw⟩, ⟨"FN", ⟨15, 8⟩, .rw⟩]⟩,
  ⟨.GUARD_ATTR, 0x141, 0x141, 0x18810, 0x1000, 2, 0x20, 16, 8, 0x0,
    [⟨"RD", ⟨0, 0⟩, .rw⟩, ⟨"WR", ⟨1, 1⟩, .rw⟩, ⟨"AT", ⟨2, 2⟩, .rw⟩, ⟨"COIN", ⟨3, 3⟩, .rw⟩, ⟨"ANYFN", ⟨4, 4⟩, .rw⟩, ⟨"FN", ⟨15, 8⟩, .rw⟩]⟩,
  ⟨.GUARD_BIND, 0x141, 0x141, 0x818, 0x1000, 23, 0x20, 64, 8, 0x0,
    [⟨"PURSE", ⟨31, 0⟩, .rw⟩, ⟨"ISSUE", ⟨51, 32⟩, .rw⟩, ⟨"BOUND", ⟨52, 52⟩, .rw⟩, ⟨"STALE", ⟨53, 53⟩, .ro⟩]⟩,
  ⟨.GUARD_BIND, 0x141, 0x141, 0x18818, 0x1000, 2, 0x20, 16, 8, 0x0,
    [⟨"PURSE", ⟨31, 0⟩, .rw⟩, ⟨"ISSUE", ⟨51, 32⟩, .rw⟩, ⟨"BOUND", ⟨52, 52⟩, .rw⟩, ⟨"STALE", ⟨53, 53⟩, .ro⟩]⟩]

def regRowsIMG0 : List RegRow := [
  ⟨.IMG_STATUS, 0x160, 0x160, 0x100, 0x0, 1, 0x0, 1, 8, 0x0,
    [⟨"STAGE", ⟨3, 0⟩, .ro⟩, ⟨"SLOT", ⟨4, 4⟩, .ro⟩, ⟨"FALLBACK", ⟨5, 5⟩, .ro⟩, ⟨"OPEN", ⟨6, 6⟩, .ro⟩, ⟨"CALBAD", ⟨7, 7⟩, .ro⟩, ⟨"TRAINFULL", ⟨23, 8⟩, .ro⟩]⟩,
  ⟨.IMG_ERR0, 0x160, 0x160, 0x108, 0x0, 1, 0x0, 1, 8, 0x0,
    [⟨"CODE", ⟨7, 0⟩, .ro⟩, ⟨"SLOT", ⟨8, 8⟩, .ro⟩, ⟨"SEG", ⟨23, 16⟩, .ro⟩, ⟨"OFFSET", ⟨63, 32⟩, .ro⟩]⟩,
  ⟨.IMG_ERR1, 0x160, 0x160, 0x110, 0x0, 1, 0x0, 1, 8, 0x0,
    [⟨"CODE", ⟨7, 0⟩, .ro⟩, ⟨"SLOT", ⟨8, 8⟩, .ro⟩, ⟨"SEG", ⟨23, 16⟩, .ro⟩, ⟨"OFFSET", ⟨63, 32⟩, .ro⟩]⟩,
  ⟨.IMG_STAGET, 0x160, 0x160, 0x140, 0x8, 9, 0x0, 1, 8, 0x0,
    [⟨"TIME", ⟨63, 0⟩, .ro⟩]⟩,
  ⟨.IMG_APPLY, 0x160, 0x160, 0x200, 0x0, 1, 0x0, 1, 8, 0x0,
    [⟨"UNIT", ⟨15, 0⟩, .rw⟩, ⟨"SEG", ⟨23, 16⟩, .rw⟩, ⟨"GO", ⟨24, 24⟩, .wo⟩, ⟨"BUSY", ⟨25, 25⟩, .ro⟩, ⟨"RESULT", ⟨27, 26⟩, .ro⟩]⟩,
  ⟨.IMG_FPAGE, 0x160, 0x160, 0x208, 0x0, 1, 0x0, 1, 8, 0x0,
    [⟨"PAGE", ⟨8, 0⟩, .rw⟩]⟩,
  ⟨.IMG_FCMD, 0x160, 0x160, 0x210, 0x0, 1, 0x0, 1, 8, 0x0,
    [⟨"OP", ⟨1, 0⟩, .wo⟩, ⟨"ADDR", ⟨60, 32⟩, .wo⟩]⟩,
  ⟨.IMG_FSTAT, 0x160, 0x160, 0x218, 0x0, 1, 0x0, 1, 8, 0x0,
    [⟨"BUSY", ⟨0, 0⟩, .ro⟩, ⟨"ERR", ⟨1, 1⟩, .ro⟩]⟩]

def regRowsIMG1 : List RegRow := [
  ⟨.IMG_FBUF, 0x160, 0x160, 0x300, 0x8, 32, 0x0, 1, 8, 0x0,
    [⟨"DATA", ⟨63, 0⟩, .rw⟩]⟩,
  ⟨.IMG_FSVN, 0x160, 0x160, 0x400, 0x0, 1, 0x0, 1, 8, 0x0,
    [⟨"SVN", ⟨63, 0⟩, .ro⟩]⟩,
  ⟨.IMG_FREVOKE, 0x160, 0x160, 0x408, 0x0, 1, 0x0, 1, 8, 0x0,
    [⟨"REVOKE", ⟨3, 0⟩, .ro⟩]⟩,
  ⟨.IMG_FDIEID, 0x160, 0x160, 0x410, 0x0, 1, 0x0, 1, 8, 0x0,
    [⟨"DIEID", ⟨63, 0⟩, .ro⟩]⟩,
  ⟨.IMG_FKEY, 0x160, 0x160, 0x440, 0x8, 24, 0x0, 1, 8, 0x0,
    [⟨"HASH", ⟨63, 0⟩, .ro⟩]⟩]

def regRowsMGMT0 : List RegRow := [
  ⟨.MGMT_UCTL, 0x0, 0x170, 0xF00000, 0x0, 1, 0x0, 1, 8, 0x0,
    [⟨"OP", ⟨3, 0⟩, .wo⟩, ⟨"ARG", ⟨15, 8⟩, .wo⟩]⟩,
  ⟨.MGMT_USTAT, 0x0, 0x170, 0xF00008, 0x0, 1, 0x0, 1, 8, 0x0,
    [⟨"STATE", ⟨2, 0⟩, .ro⟩, ⟨"BUSY", ⟨3, 3⟩, .ro⟩, ⟨"RESULT", ⟨7, 4⟩, .ro⟩, ⟨"CAUSE", ⟨9, 8⟩, .ro⟩, ⟨"STEWARD", ⟨15, 10⟩, .ro⟩, ⟨"SIB", ⟨19, 16⟩, .ro⟩]⟩,
  ⟨.MGMT_CLK, 0x80, 0x8F, 0xF00010, 0x0, 1, 0x0, 1, 8, 0x3C,
    [⟨"FREQ", ⟨6, 0⟩, .rw⟩, ⟨"STOPIDLE", ⟨7, 7⟩, .rw⟩, ⟨"CUR", ⟨14, 8⟩, .ro⟩]⟩,
  ⟨.MGMT_MODE, 0x160, 0x160, 0x0, 0x0, 1, 0x0, 1, 8, 0x0,
    [⟨"CUR", ⟨2, 0⟩, .ro⟩, ⟨"BUSY", ⟨3, 3⟩, .ro⟩, ⟨"REQ", ⟨6, 4⟩, .wo⟩, ⟨"CHG", ⟨9, 8⟩, .rw⟩, ⟨"RESULT", ⟨15, 12⟩, .ro⟩]⟩,
  ⟨.MGMT_ESTAT, 0x160, 0x160, 0x8, 0x0, 1, 0x0, 1, 8, 0x0,
    [⟨"DEFERRED", ⟨0, 0⟩, .w1c⟩, ⟨"FATAL", ⟨1, 1⟩, .w1c⟩, ⟨"DEVFATAL", ⟨2, 2⟩, .w1c⟩, ⟨"LUNIT", ⟨31, 16⟩, .ro⟩, ⟨"LDET", ⟨37, 32⟩, .ro⟩]⟩,
  ⟨.MGMT_ERRDB, 0x160, 0x160, 0x10, 0x0, 1, 0x0, 1, 8, 0xFFFFFFFFFFFF,
    [⟨"CSRC", ⟨15, 0⟩, .rw⟩, ⟨"DSRC", ⟨31, 16⟩, .rw⟩, ⟨"FSRC", ⟨47, 32⟩, .rw⟩]⟩,
  ⟨.MGMT_EFT, 0x160, 0x160, 0x18, 0x0, 1, 0x0, 1, 8, 0x0,
    [⟨"WDT", ⟨15, 0⟩, .rw⟩, ⟨"KICK", ⟨16, 16⟩, .wo⟩, ⟨"SWAP", ⟨17, 17⟩, .wo⟩, ⟨"SWAPERR", ⟨18, 18⟩, .ro⟩, ⟨"RESTARTED", ⟨19, 19⟩, .w1c⟩]⟩,
  ⟨.MGMT_EPTR, 0x160, 0x160, 0x300000, 0x8, 49, 0x0, 1, 8, 0x0,
    [⟨"PROD", ⟨15, 0⟩, .ro⟩, ⟨"CONS", ⟨31, 16⟩, .rw⟩, ⟨"DROPC", ⟨39, 32⟩, .rc⟩, ⟨"DROPS", ⟨47, 40⟩, .rc⟩]⟩]

def regRowsMGMT1 : List RegRow := [
  ⟨.MGMT_PWR, 0x160, 0x160, 0x20, 0x0, 1, 0x0, 1, 8, 0x258,
    [⟨"TDP", ⟨9, 0⟩, .rw⟩, ⟨"PWR", ⟨25, 16⟩, .ro⟩, ⟨"LIMITED", ⟨32, 32⟩, .ro⟩, ⟨"FLOOR", ⟨33, 33⟩, .ro⟩]⟩,
  ⟨.MGMT_THERM, 0x160, 0x160, 0x28, 0x0, 1, 0x0, 1, 8, 0x69,
    [⟨"TJMAX", ⟨7, 0⟩, .ro⟩, ⟨"THROT", ⟨8, 8⟩, .ro⟩, ⟨"TEMP", ⟨27, 16⟩, .ro⟩, ⟨"HOTUNIT", ⟨47, 32⟩, .ro⟩]⟩]

def regRowsTEL : List RegRow := [
  ⟨.TEL_EVSEL, 0x0, 0x170, 0xF10000, 0x20, 16, 0x0, 1, 8, 0x0,
    [⟨"EVENT", ⟨7, 0⟩, .rw⟩, ⟨"OVFINT", ⟨8, 8⟩, .rw⟩]⟩,
  ⟨.TEL_CTR, 0x0, 0x170, 0xF10008, 0x20, 16, 0x0, 1, 8, 0x0,
    [⟨"COUNT", ⟨47, 0⟩, .rw⟩]⟩,
  ⟨.TEL_SHD, 0x0, 0x170, 0xF10010, 0x20, 16, 0x0, 1, 8, 0x0,
    [⟨"COUNT", ⟨47, 0⟩, .ro⟩]⟩,
  ⟨.TEL_SHDID, 0x0, 0x170, 0xF10200, 0x0, 1, 0x0, 1, 8, 0x0,
    [⟨"ID", ⟨15, 0⟩, .ro⟩]⟩,
  ⟨.TEL_OVF, 0x0, 0x170, 0xF10208, 0x0, 1, 0x0, 1, 8, 0x0,
    [⟨"OVF", ⟨15, 0⟩, .w1c⟩]⟩,
  ⟨.TEL_OVFSRC, 0x150, 0x150, 0x18, 0x0, 1, 0x0, 1, 8, 0xFFFF,
    [⟨"SOURCE", ⟨15, 0⟩, .rw⟩]⟩]

def regRowsERRINJ0 : List RegRow := [
  ⟨.ERRINJ_CTL, 0x0, 0x7F, 0xF80000, 0x10, 5, 0x0, 1, 8, 0x0,
    [⟨"MODE", ⟨1, 0⟩, .rw⟩, ⟨"KIND", ⟨2, 2⟩, .rw⟩, ⟨"LIVE", ⟨3, 3⟩, .ro⟩, ⟨"FIRED", ⟨31, 16⟩, .rc⟩]⟩,
  ⟨.ERRINJ_CTL, 0x80, 0x8F, 0xF80000, 0x10, 3, 0x0, 1, 8, 0x0,
    [⟨"MODE", ⟨1, 0⟩, .rw⟩, ⟨"KIND", ⟨2, 2⟩, .rw⟩, ⟨"LIVE", ⟨3, 3⟩, .ro⟩, ⟨"FIRED", ⟨31, 16⟩, .rc⟩]⟩,
  ⟨.ERRINJ_CTL, 0x100, 0x10F, 0xF80000, 0x10, 12, 0x0, 1, 8, 0x0,
    [⟨"MODE", ⟨1, 0⟩, .rw⟩, ⟨"KIND", ⟨2, 2⟩, .rw⟩, ⟨"LIVE", ⟨3, 3⟩, .ro⟩, ⟨"FIRED", ⟨31, 16⟩, .rc⟩]⟩,
  ⟨.ERRINJ_CTL, 0x110, 0x11F, 0xF80000, 0x10, 6, 0x0, 1, 8, 0x0,
    [⟨"MODE", ⟨1, 0⟩, .rw⟩, ⟨"KIND", ⟨2, 2⟩, .rw⟩, ⟨"LIVE", ⟨3, 3⟩, .ro⟩, ⟨"FIRED", ⟨31, 16⟩, .rc⟩]⟩,
  ⟨.ERRINJ_CTL, 0x120, 0x12F, 0xF80000, 0x10, 4, 0x0, 1, 8, 0x0,
    [⟨"MODE", ⟨1, 0⟩, .rw⟩, ⟨"KIND", ⟨2, 2⟩, .rw⟩, ⟨"LIVE", ⟨3, 3⟩, .ro⟩, ⟨"FIRED", ⟨31, 16⟩, .rc⟩]⟩,
  ⟨.ERRINJ_CTL, 0x130, 0x136, 0xF80000, 0x10, 2, 0x0, 1, 8, 0x0,
    [⟨"MODE", ⟨1, 0⟩, .rw⟩, ⟨"KIND", ⟨2, 2⟩, .rw⟩, ⟨"LIVE", ⟨3, 3⟩, .ro⟩, ⟨"FIRED", ⟨31, 16⟩, .rc⟩]⟩,
  ⟨.ERRINJ_CTL, 0x140, 0x170, 0xF80000, 0x10, 1, 0x0, 1, 8, 0x0,
    [⟨"MODE", ⟨1, 0⟩, .rw⟩, ⟨"KIND", ⟨2, 2⟩, .rw⟩, ⟨"LIVE", ⟨3, 3⟩, .ro⟩, ⟨"FIRED", ⟨31, 16⟩, .rc⟩]⟩,
  ⟨.ERRINJ_PER, 0x0, 0x7F, 0xF80008, 0x10, 5, 0x0, 1, 8, 0x0,
    [⟨"PERIOD", ⟨31, 0⟩, .rw⟩]⟩]

def regRowsERRINJ1 : List RegRow := [
  ⟨.ERRINJ_PER, 0x80, 0x8F, 0xF80008, 0x10, 3, 0x0, 1, 8, 0x0,
    [⟨"PERIOD", ⟨31, 0⟩, .rw⟩]⟩,
  ⟨.ERRINJ_PER, 0x100, 0x10F, 0xF80008, 0x10, 12, 0x0, 1, 8, 0x0,
    [⟨"PERIOD", ⟨31, 0⟩, .rw⟩]⟩,
  ⟨.ERRINJ_PER, 0x110, 0x11F, 0xF80008, 0x10, 6, 0x0, 1, 8, 0x0,
    [⟨"PERIOD", ⟨31, 0⟩, .rw⟩]⟩,
  ⟨.ERRINJ_PER, 0x120, 0x12F, 0xF80008, 0x10, 4, 0x0, 1, 8, 0x0,
    [⟨"PERIOD", ⟨31, 0⟩, .rw⟩]⟩,
  ⟨.ERRINJ_PER, 0x130, 0x136, 0xF80008, 0x10, 2, 0x0, 1, 8, 0x0,
    [⟨"PERIOD", ⟨31, 0⟩, .rw⟩]⟩,
  ⟨.ERRINJ_PER, 0x140, 0x170, 0xF80008, 0x10, 1, 0x0, 1, 8, 0x0,
    [⟨"PERIOD", ⟨31, 0⟩, .rw⟩]⟩]

def regRowsSNAP : List RegRow := [
  ⟨.SNAP_AT, 0x150, 0x150, 0x0, 0x0, 1, 0x0, 1, 8, 0x0,
    [⟨"AT", ⟨63, 0⟩, .rw⟩]⟩,
  ⟨.SNAP_CTL, 0x150, 0x150, 0x8, 0x0, 1, 0x0, 1, 8, 0xFFFF00000000,
    [⟨"GO", ⟨0, 0⟩, .wo⟩, ⟨"RESULT", ⟨3, 1⟩, .ro⟩, ⟨"ID", ⟨31, 16⟩, .rw⟩, ⟨"DBSRC", ⟨47, 32⟩, .rw⟩]⟩,
  ⟨.SNAP_DONE, 0x150, 0x150, 0x10, 0x0, 1, 0x0, 1, 8, 0x0,
    [⟨"ID", ⟨15, 0⟩, .ro⟩, ⟨"DONE", ⟨16, 16⟩, .ro⟩, ⟨"MISSED", ⟨31, 24⟩, .ro⟩]⟩]

def regRowsTIME : List RegRow := [
  ⟨.TIME_NOW, 0x142, 0x142, 0x0, 0x0, 1, 0x0, 1, 8, 0x0,
    [⟨"TIME", ⟨63, 0⟩, .ro⟩]⟩,
  ⟨.TIME_ADJ, 0x142, 0x142, 0x8, 0x0, 1, 0x0, 1, 8, 0x0,
    [⟨"RATE", ⟨31, 0⟩, .rw⟩, ⟨"PHASE", ⟨63, 32⟩, .rw⟩]⟩,
  ⟨.TIME_PPSCAP, 0x142, 0x142, 0x10, 0x0, 1, 0x0, 1, 8, 0x0,
    [⟨"CAP", ⟨63, 0⟩, .ro⟩]⟩,
  ⟨.TIME_PPSCTL, 0x142, 0x142, 0x18, 0x0, 1, 0x0, 1, 8, 0x0,
    [⟨"EN", ⟨0, 0⟩, .rw⟩, ⟨"SEEN", ⟨1, 1⟩, .w1c⟩, ⟨"ERR", ⟨63, 32⟩, .ro⟩]⟩]

def regRowsDBG0 : List RegRow := [
  ⟨.DBG_ID, 0x170, 0x170, 0x0, 0x0, 1, 0x0, 1, 8, 0x0,
    [⟨"DIEID", ⟨63, 0⟩, .ro⟩]⟩,
  ⟨.DBG_CTL, 0x170, 0x170, 0x8, 0x0, 1, 0x0, 1, 8, 0x0,
    [⟨"LEVEL", ⟨1, 0⟩, .ro⟩, ⟨"LOCK", ⟨2, 2⟩, .wo⟩]⟩,
  ⟨.DBG_UNLOCK, 0x170, 0x170, 0x10, 0x0, 1, 0x0, 1, 8, 0x0,
    [⟨"LEVEL", ⟨1, 0⟩, .rw⟩, ⟨"KEYIDX", ⟨3, 2⟩, .rw⟩, ⟨"GO", ⟨4, 4⟩, .wo⟩, ⟨"RESULT", ⟨7, 5⟩, .ro⟩, ⟨"FAILS", ⟨15, 8⟩, .ro⟩]⟩,
  ⟨.DBG_NONCE, 0x170, 0x170, 0x100, 0x8, 6, 0x0, 1, 8, 0x0,
    [⟨"DATA", ⟨63, 0⟩, .ro⟩]⟩,
  ⟨.DBG_KEY, 0x170, 0x170, 0x140, 0x8, 12, 0x0, 1, 8, 0x0,
    [⟨"DATA", ⟨63, 0⟩, .rw⟩]⟩,
  ⟨.DBG_SIG, 0x170, 0x170, 0x1C0, 0x8, 12, 0x0, 1, 8, 0x0,
    [⟨"DATA", ⟨63, 0⟩, .rw⟩]⟩,
  ⟨.DBG_MADDR, 0x170, 0x170, 0x300, 0x0, 1, 0x0, 1, 8, 0x0,
    [⟨"ADDR", ⟨47, 3⟩, .rw⟩]⟩,
  ⟨.DBG_MDATA, 0x170, 0x170, 0x308, 0x0, 1, 0x0, 1, 8, 0x0,
    [⟨"DATA", ⟨63, 0⟩, .rw⟩]⟩]

def regRowsDBG1 : List RegRow := [
  ⟨.DBG_MCTL, 0x170, 0x170, 0x310, 0x0, 1, 0x0, 1, 8, 0x0,
    [⟨"GO", ⟨0, 0⟩, .wo⟩, ⟨"WRITE", ⟨1, 1⟩, .rw⟩, ⟨"RESULT", ⟨3, 2⟩, .ro⟩]⟩,
  ⟨.DBG_REFUSE, 0x170, 0x170, 0x318, 0x0, 1, 0x0, 1, 8, 0x0,
    [⟨"ADDR", ⟨47, 0⟩, .ro⟩, ⟨"REASON", ⟨49, 48⟩, .ro⟩, ⟨"OVF", ⟨62, 62⟩, .rc⟩, ⟨"VALID", ⟨63, 63⟩, .rc⟩]⟩,
  ⟨.DBG_SEAL, 0x170, 0x170, 0x400, 0x8, 16, 0x0, 1, 8, 0x0,
    [⟨"EN", ⟨0, 0⟩, .rwl⟩, ⟨"PAGES", ⟨11, 1⟩, .rwl⟩, ⟨"BASE", ⟨47, 12⟩, .rwl⟩]⟩,
  ⟨.DBG_TRCTL, 0x170, 0x170, 0x500, 0x0, 1, 0x0, 1, 8, 0x0,
    [⟨"EN", ⟨0, 0⟩, .rw⟩, ⟨"WRAP", ⟨1, 1⟩, .rw⟩, ⟨"TYPES", ⟨4, 2⟩, .rw⟩, ⟨"DROPS", ⟨47, 32⟩, .rc⟩]⟩,
  ⟨.DBG_TRBUF, 0x170, 0x170, 0x508, 0x0, 1, 0x0, 1, 8, 0x0,
    [⟨"SIZE", ⟨15, 0⟩, .rw⟩, ⟨"BASE", ⟨47, 16⟩, .rw⟩]⟩,
  ⟨.DBG_TRPTR, 0x170, 0x170, 0x510, 0x0, 1, 0x0, 1, 8, 0x0,
    [⟨"BYTES", ⟨63, 0⟩, .ro⟩]⟩,
  ⟨.DBG_TRCORE0, 0x170, 0x170, 0x518, 0x0, 1, 0x0, 1, 8, 0x0,
    [⟨"MASK", ⟨63, 0⟩, .rw⟩]⟩,
  ⟨.DBG_TRCORE1, 0x170, 0x170, 0x520, 0x0, 1, 0x0, 1, 8, 0x0,
    [⟨"MASK", ⟨63, 0⟩, .rw⟩]⟩]

def regRowsDBG2 : List RegRow := [
  ⟨.DBG_CSEL, 0x170, 0x170, 0x600, 0x0, 1, 0x0, 1, 8, 0x0,
    [⟨"CORE", ⟨6, 0⟩, .rw⟩, ⟨"FILE", ⟨9, 8⟩, .rw⟩, ⟨"INDEX", ⟨23, 12⟩, .rw⟩, ⟨"GO", ⟨24, 24⟩, .wo⟩, ⟨"WRITE", ⟨25, 25⟩, .rw⟩]⟩,
  ⟨.DBG_CDATA, 0x170, 0x170, 0x608, 0x8, 3, 0x0, 1, 8, 0x0,
    [⟨"DATA", ⟨63, 0⟩, .rw⟩]⟩,
  ⟨.DBG_CCTL, 0x170, 0x170, 0x1000, 0x8, 128, 0x0, 1, 8, 0x0,
    [⟨"HALT", ⟨0, 0⟩, .w1s⟩, ⟨"RESUME", ⟨1, 1⟩, .w1s⟩, ⟨"STEP", ⟨2, 2⟩, .w1s⟩, ⟨"HALTED", ⟨3, 3⟩, .ro⟩, ⟨"HALTONBRK", ⟨4, 4⟩, .rw⟩]⟩]

/-- Every register heading of control space. -/
def regTable : List RegRow :=
  regRowsVLT0 ++ regRowsVLT1 ++ regRowsDBH0 ++ regRowsDBH1 ++ regRowsDBH2 ++ regRowsMEM ++ regRowsTLR0 ++ regRowsTLR1 ++ regRowsTLR2 ++ regRowsSEQ ++ regRowsLGP0 ++ regRowsLGP1 ++ regRowsPEER ++ regRowsGUARD0 ++ regRowsGUARD1 ++ regRowsIMG0 ++ regRowsIMG1 ++ regRowsMGMT0 ++ regRowsMGMT1 ++ regRowsTEL ++ regRowsERRINJ0 ++ regRowsERRINJ1 ++ regRowsSNAP ++ regRowsTIME ++ regRowsDBG0 ++ regRowsDBG1 ++ regRowsDBG2

/-! Core state register fields (64-bit registers) and indices (R102). -/

def F.CS_STATUS_RING : Fld := ⟨1, 0⟩
def F.CS_STATUS_IH : Fld := ⟨2, 2⟩
def F.CS_STATUS_PA : Fld := ⟨3, 3⟩
def F.CS_STATUS_GECKO : Fld := ⟨4, 4⟩
def F.CS_STATUS_HER : Fld := ⟨5, 5⟩
def F.CS_FEAT0_PFX : Fld := ⟨0, 0⟩
def F.CS_FEAT0_LOOP : Fld := ⟨1, 1⟩
def F.CS_FEAT0_BLK : Fld := ⟨2, 2⟩
def F.CS_FEAT0_ATOM : Fld := ⟨3, 3⟩
def F.CS_FEAT0_DECI : Fld := ⟨4, 4⟩
def F.CS_FEAT0_DFP : Fld := ⟨5, 5⟩
def F.CS_FEAT0_VEC : Fld := ⟨6, 6⟩
def F.CS_FEAT0_HER : Fld := ⟨7, 7⟩
def F.CS_FEAT0_POST : Fld := ⟨8, 8⟩
def F.CS_FEAT0_PT5 : Fld := ⟨9, 9⟩
def F.CS_FEAT0_PATCH : Fld := ⟨10, 10⟩
def F.CS_FEAT1_VLMAX : Fld := ⟨15, 0⟩
def F.CS_FEAT1_LDEPTH : Fld := ⟨23, 16⟩
def F.CS_FEAT1_NBRK : Fld := ⟨31, 24⟩
def F.CS_FEAT1_NWATCH : Fld := ⟨39, 32⟩
def F.CS_FEAT1_LINE : Fld := ⟨47, 40⟩
def F.CS_FEAT2_PART : Fld := ⟨15, 0⟩
def F.CS_FEAT2_STEP : Fld := ⟨19, 16⟩
def F.CS_TIME_TIME : Fld := ⟨63, 0⟩
def F.CS_CORE_CORE : Fld := ⟨6, 0⟩
def F.CS_CORE_SOCKET : Fld := ⟨18, 16⟩
def F.CS_LSTART_START : Fld := ⟨63, 0⟩
def F.CS_LEND_END : Fld := ⟨63, 0⟩
def F.CS_LCOUNT_COUNT : Fld := ⟨63, 0⟩
def F.CS_LPURSE_PURSE : Fld := ⟨31, 0⟩
def F.CS_LDEPTH_DEPTH : Fld := ⟨1, 0⟩
def F.CS_STKINFO_CAUSE : Fld := ⟨3, 0⟩
def F.CS_STKINFO_STKRING : Fld := ⟨5, 4⟩
def F.CS_STKINFO_SAVE : Fld := ⟨6, 6⟩
def F.CS_ASID_ASID : Fld := ⟨15, 0⟩
def F.CS_PTMODE_MODE : Fld := ⟨1, 0⟩
def F.CS_PTMODE_ROOT : Fld := ⟨47, 12⟩
def F.CS_XINFO_CAUSE : Fld := ⟨3, 0⟩
def F.CS_XINFO_LEVEL : Fld := ⟨6, 4⟩
def F.CS_XINFO_TLB : Fld := ⟨7, 7⟩
def F.CS_XINFO_KIND : Fld := ⟨11, 8⟩
def F.CS_XINFO_ASID : Fld := ⟨31, 16⟩
def F.CS_XPTE_ENTRY : Fld := ⟨63, 0⟩
def F.CS_XPTEA_ADDR : Fld := ⟨47, 3⟩
def F.CS_XPTEA_VALID : Fld := ⟨63, 63⟩
def F.CS_PTBASE_PTB_SIZE : Fld := ⟨4, 0⟩
def F.CS_PTBASE_PTB_BASE : Fld := ⟨47, 12⟩
def F.CS_CFINFO_CAUSE : Fld := ⟨3, 0⟩
def F.CS_CFINFO_KIND : Fld := ⟨11, 8⟩
def F.CS_CFINFO_CREG : Fld := ⟨15, 12⟩
def F.CS_CFINFO_SIZE : Fld := ⟨23, 16⟩
def F.CS_CFINFO_PURSE : Fld := ⟨63, 32⟩
def F.CS_FREEHEAD_EN : Fld := ⟨0, 0⟩
def F.CS_FREEHEAD_ADDR : Fld := ⟨47, 3⟩
def F.CS_TDT_BASE : Fld := ⟨47, 11⟩
def F.CS_TINFO_NUM : Fld := ⟨5, 0⟩
def F.CS_TINFO_EM : Fld := ⟨6, 6⟩
def F.CS_TINFO_TAIL : Fld := ⟨7, 7⟩
def F.CS_TINFO_FETCH : Fld := ⟨8, 8⟩
def F.CS_TINFO_HALF2 : Fld := ⟨9, 9⟩
def F.CS_TINFO_PURSE : Fld := ⟨10, 10⟩
def F.CS_TINFO_WALK : Fld := ⟨11, 11⟩
def F.CS_TINFO_POISON : Fld := ⟨12, 12⟩
def F.CS_TINFO_NOTARGET : Fld := ⟨13, 13⟩
def F.CS_TINFO_PHYS : Fld := ⟨14, 14⟩
def F.CS_TINFO_ACCESS : Fld := ⟨15, 15⟩
def F.CS_TINFO_DNUM : Fld := ⟨21, 16⟩
def F.CS_TINFO_DVALID : Fld := ⟨22, 22⟩
def F.CS_TINFO_INIT : Fld := ⟨47, 32⟩
def F.CS_FADDR_ADDR : Fld := ⟨63, 0⟩
def F.CS_GFINFO_CAUSE : Fld := ⟨3, 0⟩
def F.CS_GFINFO_PURSE : Fld := ⟨63, 32⟩
def F.CS_EMINFO_EMDEPTH : Fld := ⟨4, 0⟩
def F.CS_EMINFO_EMS : Fld := ⟨8, 8⟩
def F.CS_BANKWIN_BANK : Fld := ⟨1, 0⟩
def F.CS_FPCTL_BRM : Fld := ⟨2, 0⟩
def F.CS_FPCTL_DRM : Fld := ⟨6, 4⟩
def F.CS_FPCTL_ENV : Fld := ⟨8, 8⟩
def F.CS_FPCTL_EDZ : Fld := ⟨9, 9⟩
def F.CS_FPCTL_EOF : Fld := ⟨10, 10⟩
def F.CS_FPCTL_EUF : Fld := ⟨11, 11⟩
def F.CS_FPCTL_ENX : Fld := ⟨12, 12⟩
def F.CS_FPCTL_EDIGIT : Fld := ⟨13, 13⟩
def F.CS_FPCTL_EDOVF : Fld := ⟨14, 14⟩
def F.CS_FPCTL_EIDIV : Fld := ⟨15, 15⟩
def F.CS_FPFLAGS_NV : Fld := ⟨0, 0⟩
def F.CS_FPFLAGS_DZ : Fld := ⟨1, 1⟩
def F.CS_FPFLAGS_OF : Fld := ⟨2, 2⟩
def F.CS_FPFLAGS_UF : Fld := ⟨3, 3⟩
def F.CS_FPFLAGS_NX : Fld := ⟨4, 4⟩
def F.CS_FPFLAGS_DIGIT : Fld := ⟨5, 5⟩
def F.CS_FPFLAGS_DOVF : Fld := ⟨6, 6⟩
def F.CS_FPFLAGS_IDIV : Fld := ⟨7, 7⟩
def F.CS_AXINFO_CAUSE : Fld := ⟨7, 0⟩
def F.CS_AXINFO_MULT : Fld := ⟨8, 8⟩
def F.CS_AXINFO_PREC : Fld := ⟨9, 9⟩
def F.CS_AXINFO_ATABAR : Fld := ⟨10, 10⟩
def F.CS_AXINFO_OPC : Fld := ⟨22, 16⟩
def F.CS_AXINFO_FUNCT7 : Fld := ⟨29, 23⟩
def F.CS_AXPC_PC : Fld := ⟨63, 0⟩
def F.CS_VL_VL : Fld := ⟨9, 0⟩
def F.CS_VCTL_SEW : Fld := ⟨2, 0⟩
def F.CS_VCTL_ZM : Fld := ⟨3, 3⟩
def F.CS_VSTATE_USED : Fld := ⟨0, 0⟩
def F.CS_VSTATE_PEND : Fld := ⟨1, 1⟩
def F.CS_VSTATE_NOFRAME : Fld := ⟨2, 2⟩
def F.CS_VFIDX_INDEX : Fld := ⟨8, 0⟩
def F.CS_VFIDX_FORM : Fld := ⟨10, 9⟩
def F.CS_VFIDX_STORE : Fld := ⟨11, 11⟩
def F.CS_VFADDR_ADDR : Fld := ⟨63, 0⟩
def F.CS_VNEST_NEST : Fld := ⟨63, 0⟩
def F.CS_VNSAVE_NEST : Fld := ⟨63, 0⟩
def F.CS_VFINFO_CAUSE : Fld := ⟨1, 0⟩
def F.CS_DBCTL_WNDB : Fld := ⟨0, 0⟩
def F.CS_DBWIN_ADDR : Fld := ⟨63, 0⟩
def F.CS_HSTAT_C : Fld := ⟨0, 0⟩
def F.CS_HSTAT_Z : Fld := ⟨1, 1⟩
def F.CS_HSTAT_N : Fld := ⟨2, 2⟩
def F.CS_HSTAT_V : Fld := ⟨3, 3⟩
def F.CS_HSTAT_H : Fld := ⟨4, 4⟩
def F.CS_HSTAT_DB : Fld := ⟨15, 8⟩
def F.CS_HSTAT_SUP : Fld := ⟨16, 16⟩
def F.CS_HORG_ORG : Fld := ⟨63, 0⟩
def F.CS_HFINFO_CAUSE : Fld := ⟨2, 0⟩
def F.CS_HFINFO_OP : Fld := ⟨4, 3⟩
def F.CS_HFINFO_REGION : Fld := ⟨8, 5⟩
def F.CS_HFINFO_RVALID : Fld := ⟨9, 9⟩
def F.CS_HFINFO_INSN : Fld := ⟨31, 16⟩
def F.CS_HFINFO_WADDR : Fld := ⟨55, 32⟩
def F.CS_HMPU_EN : Fld := ⟨0, 0⟩
def F.CS_HMPU_SR : Fld := ⟨1, 1⟩
def F.CS_HMPU_SW : Fld := ⟨2, 2⟩
def F.CS_HMPU_SX : Fld := ⟨3, 3⟩
def F.CS_HMPU_UR : Fld := ⟨4, 4⟩
def F.CS_HMPU_UW : Fld := ⟨5, 5⟩
def F.CS_HMPU_UX : Fld := ⟨6, 6⟩
def F.CS_HMPU_BASE : Fld := ⟨23, 8⟩
def F.CS_HMPU_LIMIT : Fld := ⟨39, 24⟩
def F.CS_BRK_EN : Fld := ⟨0, 0⟩
def F.CS_BRK_ADDR : Fld := ⟨63, 1⟩
def F.CS_WPA_ADDR : Fld := ⟨63, 0⟩
def F.CS_WPC_EN : Fld := ⟨0, 0⟩
def F.CS_WPC_LD : Fld := ⟨1, 1⟩
def F.CS_WPC_ST : Fld := ⟨2, 2⟩
def F.CS_WPC_SIZE : Fld := ⟨7, 3⟩
def F.CS_DBGCTL_SKIP : Fld := ⟨0, 0⟩
def F.CS_DBGCTL_HIT : Fld := ⟨2, 1⟩
def F.CS_DBGCTL_IDX : Fld := ⟨5, 3⟩
def F.CS_PATCH_MATCH : Fld := ⟨31, 0⟩
def F.CS_PATCH_MASK : Fld := ⟨63, 32⟩
def R.CS_STATUS : Nat := 0x0
def R.CS_FEAT0 : Nat := 0x8
def R.CS_FEAT1 : Nat := 0x9
def R.CS_FEAT2 : Nat := 0xA
def R.CS_TIME : Nat := 0x10
def R.CS_CORE : Nat := 0x11
def R.CS_LSTART : Nat := 0x20
def R.CS_LEND : Nat := 0x21
def R.CS_LCOUNT : Nat := 0x22
def R.CS_LPURSE : Nat := 0x23
def R.CS_LSTART1 : Nat := 0x24
def R.CS_LEND1 : Nat := 0x25
def R.CS_LCOUNT1 : Nat := 0x26
def R.CS_LPURSE1 : Nat := 0x27
def R.CS_LSTART2 : Nat := 0x28
def R.CS_LEND2 : Nat := 0x29
def R.CS_LCOUNT2 : Nat := 0x2A
def R.CS_LPURSE2 : Nat := 0x2B
def R.CS_LDEPTH : Nat := 0x2C
def R.CS_STKINFO : Nat := 0x48
def R.CS_ASID : Nat := 0x80
def R.CS_PTMODE : Nat := 0x81
def R.CS_XINFO : Nat := 0x82
def R.CS_XPTE : Nat := 0x83
def R.CS_XPTEA : Nat := 0x84
def R.CS_PTBASE : Nat := 0xC0
def R.CS_CFINFO : Nat := 0xC1
def R.CS_FREEHEAD : Nat := 0xC2
def R.CS_TDT : Nat := 0x100
def R.CS_TINFO : Nat := 0x101
def R.CS_FADDR : Nat := 0x102
def R.CS_GFINFO : Nat := 0x103
def R.CS_EMINFO : Nat := 0x10A
def R.CS_BANKWIN : Nat := 0x10B
def R.CS_FPCTL : Nat := 0x140
def R.CS_FPFLAGS : Nat := 0x141
def R.CS_AXINFO : Nat := 0x142
def R.CS_AXPC : Nat := 0x143
def R.CS_VL : Nat := 0x160
def R.CS_VCTL : Nat := 0x161
def R.CS_VSTATE : Nat := 0x162
def R.CS_VFIDX : Nat := 0x163
def R.CS_VFADDR : Nat := 0x164
def R.CS_VNEST : Nat := 0x166
def R.CS_VNSAVE : Nat := 0x167
def R.CS_VFINFO : Nat := 0x168
def R.CS_DBCTL : Nat := 0x180
def R.CS_DBWIN : Nat := 0x181
def R.CS_HSTAT : Nat := 0x1A0
def R.CS_HORG : Nat := 0x1A1
def R.CS_HFINFO : Nat := 0x1A2
def R.CS_HMPU (i : Nat) : Nat := 0x1B0 + i
def R.CS_BRK (i : Nat) : Nat := 0x1C0 + i
def R.CS_WPA (i : Nat) : Nat := 0x1C8 + i
def R.CS_WPC (i : Nat) : Nat := 0x1CC + i
def R.CS_DBGCTL : Nat := 0x1D0
def R.CS_PATCH (i : Nat) : Nat := 0x1D8 + i
def R.CS_PCC : Nat := 0x1
def R.CS_SAVEHEAD : Nat := 0x30
def R.CS_RSTK (i : Nat) : Nat := 0x40 + i
def R.CS_DSTK (i : Nat) : Nat := 0x104 + i
def R.CS_ENTC14 : Nat := 0x108
def R.CS_EMSAVE : Nat := 0x109
def R.CS_EMRSTK (i : Nat) : Nat := 0x110 + i
def R.CS_VFRAME : Nat := 0x165

/-- One 64-bit core state register or run of them (R102): index, count, reset value and fields. -/
structure CsRow where
  name : String
  idx : Nat
  count : Nat
  reset : Nat
  fields : List RegField
  deriving DecidableEq, Repr

def csRows0 : List CsRow := [
  ⟨"CS_STATUS", 0x0, 1, 0x0, [⟨"RING", ⟨1, 0⟩, .ro⟩, ⟨"IH", ⟨2, 2⟩, .rw⟩, ⟨"PA", ⟨3, 3⟩, .rw⟩, ⟨"GECKO", ⟨4, 4⟩, .ro⟩, ⟨"HER", ⟨5, 5⟩, .ro⟩]⟩,
  ⟨"CS_FEAT0", 0x8, 1, 0x7FF, [⟨"PFX", ⟨0, 0⟩, .ro⟩, ⟨"LOOP", ⟨1, 1⟩, .ro⟩, ⟨"BLK", ⟨2, 2⟩, .ro⟩, ⟨"ATOM", ⟨3, 3⟩, .ro⟩, ⟨"DECI", ⟨4, 4⟩, .ro⟩, ⟨"DFP", ⟨5, 5⟩, .ro⟩, ⟨"VEC", ⟨6, 6⟩, .ro⟩, ⟨"HER", ⟨7, 7⟩, .ro⟩, ⟨"POST", ⟨8, 8⟩, .ro⟩, ⟨"PT5", ⟨9, 9⟩, .ro⟩, ⟨"PATCH", ⟨10, 10⟩, .ro⟩]⟩,
  ⟨"CS_FEAT1", 0x9, 1, 0x400408030200, [⟨"VLMAX", ⟨15, 0⟩, .ro⟩, ⟨"LDEPTH", ⟨23, 16⟩, .ro⟩, ⟨"NBRK", ⟨31, 24⟩, .ro⟩, ⟨"NWATCH", ⟨39, 32⟩, .ro⟩, ⟨"LINE", ⟨47, 40⟩, .ro⟩]⟩,
  ⟨"CS_FEAT2", 0xA, 1, 0x19128, [⟨"PART", ⟨15, 0⟩, .ro⟩, ⟨"STEP", ⟨19, 16⟩, .ro⟩]⟩,
  ⟨"CS_TIME", 0x10, 1, 0x0, [⟨"TIME", ⟨63, 0⟩, .ro⟩]⟩,
  ⟨"CS_CORE", 0x11, 1, 0x0, [⟨"CORE", ⟨6, 0⟩, .ro⟩, ⟨"SOCKET", ⟨18, 16⟩, .ro⟩]⟩,
  ⟨"CS_LSTART", 0x20, 1, 0x0, [⟨"START", ⟨63, 0⟩, .rw⟩]⟩,
  ⟨"CS_LEND", 0x21, 1, 0x0, [⟨"END", ⟨63, 0⟩, .rw⟩]⟩,
  ⟨"CS_LCOUNT", 0x22, 1, 0x0, [⟨"COUNT", ⟨63, 0⟩, .rw⟩]⟩,
  ⟨"CS_LPURSE", 0x23, 1, 0x0, [⟨"PURSE", ⟨31, 0⟩, .rw⟩]⟩]

def csRows1 : List CsRow := [
  ⟨"CS_LSTART1", 0x24, 1, 0x0, [⟨"START", ⟨63, 0⟩, .rw⟩]⟩,
  ⟨"CS_LEND1", 0x25, 1, 0x0, [⟨"END", ⟨63, 0⟩, .rw⟩]⟩,
  ⟨"CS_LCOUNT1", 0x26, 1, 0x0, [⟨"COUNT", ⟨63, 0⟩, .rw⟩]⟩,
  ⟨"CS_LPURSE1", 0x27, 1, 0x0, [⟨"PURSE", ⟨31, 0⟩, .rw⟩]⟩,
  ⟨"CS_LSTART2", 0x28, 1, 0x0, [⟨"START", ⟨63, 0⟩, .rw⟩]⟩,
  ⟨"CS_LEND2", 0x29, 1, 0x0, [⟨"END", ⟨63, 0⟩, .rw⟩]⟩,
  ⟨"CS_LCOUNT2", 0x2A, 1, 0x0, [⟨"COUNT", ⟨63, 0⟩, .rw⟩]⟩,
  ⟨"CS_LPURSE2", 0x2B, 1, 0x0, [⟨"PURSE", ⟨31, 0⟩, .rw⟩]⟩,
  ⟨"CS_LDEPTH", 0x2C, 1, 0x0, [⟨"DEPTH", ⟨1, 0⟩, .rw⟩]⟩,
  ⟨"CS_STKINFO", 0x48, 1, 0x0, [⟨"CAUSE", ⟨3, 0⟩, .ro⟩, ⟨"STKRING", ⟨5, 4⟩, .ro⟩, ⟨"SAVE", ⟨6, 6⟩, .ro⟩]⟩]

def csRows2 : List CsRow := [
  ⟨"CS_ASID", 0x80, 1, 0x0, [⟨"ASID", ⟨15, 0⟩, .rw⟩]⟩,
  ⟨"CS_PTMODE", 0x81, 1, 0x0, [⟨"MODE", ⟨1, 0⟩, .rw⟩, ⟨"ROOT", ⟨47, 12⟩, .rw⟩]⟩,
  ⟨"CS_XINFO", 0x82, 1, 0x0, [⟨"CAUSE", ⟨3, 0⟩, .ro⟩, ⟨"LEVEL", ⟨6, 4⟩, .ro⟩, ⟨"TLB", ⟨7, 7⟩, .ro⟩, ⟨"KIND", ⟨11, 8⟩, .ro⟩, ⟨"ASID", ⟨31, 16⟩, .ro⟩]⟩,
  ⟨"CS_XPTE", 0x83, 1, 0x0, [⟨"ENTRY", ⟨63, 0⟩, .ro⟩]⟩,
  ⟨"CS_XPTEA", 0x84, 1, 0x0, [⟨"ADDR", ⟨47, 3⟩, .ro⟩, ⟨"VALID", ⟨63, 63⟩, .ro⟩]⟩,
  ⟨"CS_PTBASE", 0xC0, 1, 0x0, [⟨"PTB_SIZE", ⟨4, 0⟩, .ro⟩, ⟨"PTB_BASE", ⟨47, 12⟩, .ro⟩]⟩,
  ⟨"CS_CFINFO", 0xC1, 1, 0x0, [⟨"CAUSE", ⟨3, 0⟩, .ro⟩, ⟨"KIND", ⟨11, 8⟩, .ro⟩, ⟨"CREG", ⟨15, 12⟩, .ro⟩, ⟨"SIZE", ⟨23, 16⟩, .ro⟩, ⟨"PURSE", ⟨63, 32⟩, .ro⟩]⟩,
  ⟨"CS_FREEHEAD", 0xC2, 1, 0x0, [⟨"EN", ⟨0, 0⟩, .rw⟩, ⟨"ADDR", ⟨47, 3⟩, .rw⟩]⟩,
  ⟨"CS_TDT", 0x100, 1, 0x0, [⟨"BASE", ⟨47, 11⟩, .rw⟩]⟩,
  ⟨"CS_TINFO", 0x101, 1, 0x0, [⟨"NUM", ⟨5, 0⟩, .ro⟩, ⟨"EM", ⟨6, 6⟩, .ro⟩, ⟨"TAIL", ⟨7, 7⟩, .ro⟩, ⟨"FETCH", ⟨8, 8⟩, .ro⟩, ⟨"HALF2", ⟨9, 9⟩, .ro⟩, ⟨"PURSE", ⟨10, 10⟩, .ro⟩, ⟨"WALK", ⟨11, 11⟩, .ro⟩, ⟨"POISON", ⟨12, 12⟩, .ro⟩, ⟨"NOTARGET", ⟨13, 13⟩, .ro⟩, ⟨"PHYS", ⟨14, 14⟩, .ro⟩, ⟨"ACCESS", ⟨15, 15⟩, .ro⟩, ⟨"DNUM", ⟨21, 16⟩, .ro⟩, ⟨"DVALID", ⟨22, 22⟩, .ro⟩, ⟨"INIT", ⟨47, 32⟩, .ro⟩]⟩]

def csRows3 : List CsRow := [
  ⟨"CS_FADDR", 0x102, 1, 0x0, [⟨"ADDR", ⟨63, 0⟩, .ro⟩]⟩,
  ⟨"CS_GFINFO", 0x103, 1, 0x0, [⟨"CAUSE", ⟨3, 0⟩, .ro⟩, ⟨"PURSE", ⟨63, 32⟩, .ro⟩]⟩,
  ⟨"CS_EMINFO", 0x10A, 1, 0x0, [⟨"EMDEPTH", ⟨4, 0⟩, .rw⟩, ⟨"EMS", ⟨8, 8⟩, .rw⟩]⟩,
  ⟨"CS_BANKWIN", 0x10B, 1, 0x0, [⟨"BANK", ⟨1, 0⟩, .rw⟩]⟩,
  ⟨"CS_FPCTL", 0x140, 1, 0xE000, [⟨"BRM", ⟨2, 0⟩, .rw⟩, ⟨"DRM", ⟨6, 4⟩, .rw⟩, ⟨"ENV", ⟨8, 8⟩, .rw⟩, ⟨"EDZ", ⟨9, 9⟩, .rw⟩, ⟨"EOF", ⟨10, 10⟩, .rw⟩, ⟨"EUF", ⟨11, 11⟩, .rw⟩, ⟨"ENX", ⟨12, 12⟩, .rw⟩, ⟨"EDIGIT", ⟨13, 13⟩, .rw⟩, ⟨"EDOVF", ⟨14, 14⟩, .rw⟩, ⟨"EIDIV", ⟨15, 15⟩, .rw⟩]⟩,
  ⟨"CS_FPFLAGS", 0x141, 1, 0x0, [⟨"NV", ⟨0, 0⟩, .rw⟩, ⟨"DZ", ⟨1, 1⟩, .rw⟩, ⟨"OF", ⟨2, 2⟩, .rw⟩, ⟨"UF", ⟨3, 3⟩, .rw⟩, ⟨"NX", ⟨4, 4⟩, .rw⟩, ⟨"DIGIT", ⟨5, 5⟩, .rw⟩, ⟨"DOVF", ⟨6, 6⟩, .rw⟩, ⟨"IDIV", ⟨7, 7⟩, .rw⟩]⟩,
  ⟨"CS_AXINFO", 0x142, 1, 0x0, [⟨"CAUSE", ⟨7, 0⟩, .ro⟩, ⟨"MULT", ⟨8, 8⟩, .ro⟩, ⟨"PREC", ⟨9, 9⟩, .ro⟩, ⟨"ATABAR", ⟨10, 10⟩, .ro⟩, ⟨"OPC", ⟨22, 16⟩, .ro⟩, ⟨"FUNCT7", ⟨29, 23⟩, .ro⟩]⟩,
  ⟨"CS_AXPC", 0x143, 1, 0x0, [⟨"PC", ⟨63, 0⟩, .ro⟩]⟩,
  ⟨"CS_VL", 0x160, 1, 0x200, [⟨"VL", ⟨9, 0⟩, .rw⟩]⟩,
  ⟨"CS_VCTL", 0x161, 1, 0x0, [⟨"SEW", ⟨2, 0⟩, .rw⟩, ⟨"ZM", ⟨3, 3⟩, .rw⟩]⟩]

def csRows4 : List CsRow := [
  ⟨"CS_VSTATE", 0x162, 1, 0x0, [⟨"USED", ⟨0, 0⟩, .rw⟩, ⟨"PEND", ⟨1, 1⟩, .rw⟩, ⟨"NOFRAME", ⟨2, 2⟩, .rw⟩]⟩,
  ⟨"CS_VFIDX", 0x163, 1, 0x0, [⟨"INDEX", ⟨8, 0⟩, .ro⟩, ⟨"FORM", ⟨10, 9⟩, .ro⟩, ⟨"STORE", ⟨11, 11⟩, .ro⟩]⟩,
  ⟨"CS_VFADDR", 0x164, 1, 0x0, [⟨"ADDR", ⟨63, 0⟩, .ro⟩]⟩,
  ⟨"CS_VNEST", 0x166, 1, 0x0, [⟨"NEST", ⟨63, 0⟩, .rw⟩]⟩,
  ⟨"CS_VNSAVE", 0x167, 1, 0x0, [⟨"NEST", ⟨63, 0⟩, .rw⟩]⟩,
  ⟨"CS_VFINFO", 0x168, 1, 0x0, [⟨"CAUSE", ⟨1, 0⟩, .ro⟩]⟩,
  ⟨"CS_DBCTL", 0x180, 1, 0x0, [⟨"WNDB", ⟨0, 0⟩, .rw⟩]⟩,
  ⟨"CS_DBWIN", 0x181, 1, 0x0, [⟨"ADDR", ⟨63, 0⟩, .ro⟩]⟩,
  ⟨"CS_HSTAT", 0x1A0, 1, 0x0, [⟨"C", ⟨0, 0⟩, .rw⟩, ⟨"Z", ⟨1, 1⟩, .rw⟩, ⟨"N", ⟨2, 2⟩, .rw⟩, ⟨"V", ⟨3, 3⟩, .rw⟩, ⟨"H", ⟨4, 4⟩, .rw⟩, ⟨"DB", ⟨15, 8⟩, .rw⟩, ⟨"SUP", ⟨16, 16⟩, .rw⟩]⟩,
  ⟨"CS_HORG", 0x1A1, 1, 0x0, [⟨"ORG", ⟨63, 0⟩, .rw⟩]⟩]

def csRows5 : List CsRow := [
  ⟨"CS_HFINFO", 0x1A2, 1, 0x0, [⟨"CAUSE", ⟨2, 0⟩, .ro⟩, ⟨"OP", ⟨4, 3⟩, .ro⟩, ⟨"REGION", ⟨8, 5⟩, .ro⟩, ⟨"RVALID", ⟨9, 9⟩, .ro⟩, ⟨"INSN", ⟨31, 16⟩, .ro⟩, ⟨"WADDR", ⟨55, 32⟩, .ro⟩]⟩,
  ⟨"CS_HMPU", 0x1B0, 16, 0x0, [⟨"EN", ⟨0, 0⟩, .rw⟩, ⟨"SR", ⟨1, 1⟩, .rw⟩, ⟨"SW", ⟨2, 2⟩, .rw⟩, ⟨"SX", ⟨3, 3⟩, .rw⟩, ⟨"UR", ⟨4, 4⟩, .rw⟩, ⟨"UW", ⟨5, 5⟩, .rw⟩, ⟨"UX", ⟨6, 6⟩, .rw⟩, ⟨"BASE", ⟨23, 8⟩, .rw⟩, ⟨"LIMIT", ⟨39, 24⟩, .rw⟩]⟩,
  ⟨"CS_BRK", 0x1C0, 8, 0x0, [⟨"EN", ⟨0, 0⟩, .rw⟩, ⟨"ADDR", ⟨63, 1⟩, .rw⟩]⟩,
  ⟨"CS_WPA", 0x1C8, 4, 0x0, [⟨"ADDR", ⟨63, 0⟩, .rw⟩]⟩,
  ⟨"CS_WPC", 0x1CC, 4, 0x0, [⟨"EN", ⟨0, 0⟩, .rw⟩, ⟨"LD", ⟨1, 1⟩, .rw⟩, ⟨"ST", ⟨2, 2⟩, .rw⟩, ⟨"SIZE", ⟨7, 3⟩, .rw⟩]⟩,
  ⟨"CS_DBGCTL", 0x1D0, 1, 0x0, [⟨"SKIP", ⟨0, 0⟩, .rw⟩, ⟨"HIT", ⟨2, 1⟩, .ro⟩, ⟨"IDX", ⟨5, 3⟩, .ro⟩]⟩,
  ⟨"CS_PATCH", 0x1D8, 8, 0x0, [⟨"MATCH", ⟨31, 0⟩, .rw⟩, ⟨"MASK", ⟨63, 32⟩, .rw⟩]⟩]

/-- Every 64-bit core state register. -/
def csTable : List CsRow :=
  csRows0 ++ csRows1 ++ csRows2 ++ csRows3 ++ csRows4 ++ csRows5

/-- The row of `regTable` that register key `k` = unit × 2^24 + offset starts, if any. -/
def RegRow.starts (r : RegRow) (k : Nat) : Bool :=
  let u := k / 0x1000000
  let o := k % 0x1000000
  r.unitLo ≤ u && u ≤ r.unitHi && r.off ≤ o &&
    (List.range r.count2).any fun j =>
      let p := r.off + r.stride2 * j
      p ≤ o && (if r.count1 ≤ 1 then o == p else (o - p) % r.stride1 == 0 && (o - p) / r.stride1 < r.count1)

/-- The units of R36. -/
def unitExists (u : Nat) : Bool :=
  u < 0x90 || (0x100 ≤ u && u ≤ 0x12F) || (0x130 ≤ u && u ≤ 0x136) || u == 0x140 || u == 0x141 || u == 0x142 ||
    u == 0x150 || u == 0x160 || u == 0x170

/-- The register heading whose register starts at key `k` (R36: only in a unit that exists). -/
def regRowAt (k : Nat) : Option RegRow :=
  if unitExists (k / 0x1000000) then regTable.find? (fun r => r.starts k) else none

/-- The reset value of the control-space register at key `k` (R12); 0 where there is none. -/
def ctlReset (k : Nat) : Word :=
  match regRowAt k with
  | some r => BitVec.ofNat 64 r.reset
  | none => 0

/-- The row of the 64-bit core state register at index `i`. -/
def csRowAt (i : Nat) : Option CsRow := csTable.find? (fun r => r.idx ≤ i && i < r.idx + r.count)

/-- The reset value of core state register `i`; 0 where there is none. -/
def csReset (i : Nat) : Word :=
  match csRowAt i with
  | some r => BitVec.ofNat 64 r.reset
  | none => 0

end Sys2Proof.Machine
end

