-- ==== Sys2Proof/Machine/SMap.lean ====
section
/-!
DEFINITION. The one sparse map of the model: a list of (key, value) pairs in canonical form, keys strictly rising and
no entry equal to what an unlisted key reads as. Memory bytes, tags, poison, control-space registers and core state
registers are all held this way, so that equal contents are equal data.
-/
namespace Sys2Proof.Machine

/-- A sparse map from natural-number keys. -/
abbrev SMap (α : Type) := List (Nat × α)

/-- What key `k` reads as: its entry, or the value `d k` of an unlisted key. -/
def SMap.get {α : Type} (d : Nat → α) (m : SMap α) (k : Nat) : α :=
  match m with
  | [] => d k
  | (k', v) :: r => if k' = k then v else SMap.get d r k

/-- `m` without an entry for `k`. -/
def SMap.erase {α : Type} (m : SMap α) (k : Nat) : SMap α :=
  match m with
  | [] => []
  | (k', v) :: r => if k' = k then SMap.erase r k else (k', v) :: SMap.erase r k

/-- `m` with an entry (k, v) put in its place by key order; `m` holds no entry for `k`. -/
def SMap.insert {α : Type} (m : SMap α) (k : Nat) (v : α) : SMap α :=
  match m with
  | [] => [(k, v)]
  | (k', v') :: r => if k < k' then (k, v) :: (k', v') :: r else (k', v') :: SMap.insert r k v

/-- `m` with key `k` reading as `v`, in canonical form: writing what an unlisted key reads as removes the entry. -/
def SMap.set {α : Type} [DecidableEq α] (d : Nat → α) (m : SMap α) (k : Nat) (v : α) : SMap α :=
  if v = d k then SMap.erase m k else SMap.insert (SMap.erase m k) k v

/-- The canonical form: keys strictly rising, and no entry equal to what an unlisted key reads as. -/
def SMap.wf {α : Type} [DecidableEq α] (d : Nat → α) (m : SMap α) : Bool :=
  match m with
  | [] => true
  | [(k, v)] => decide (v ≠ d k)
  | (k, v) :: (k', v') :: r => decide (v ≠ d k) && decide (k < k') && SMap.wf d ((k', v') :: r)

/-- A key map applied to every entry, the results put back in canonical form; entries mapped to none are dropped. -/
def SMap.rekey {α : Type} [DecidableEq α] (d : Nat → α) (f : Nat → Option Nat) (m : SMap α) : SMap α :=
  m.foldl (fun acc (p : Nat × α) => match f p.1 with | some k => SMap.set d acc k p.2 | none => acc) []

end Sys2Proof.Machine
end

