-- ==== Sys2Proof/Machine/Types.lean ====
section
/-!
DEFINITION. The data types State is built of: coins (R38), purse entries (R44), the per-core structures (store buffer,
outstanding loads and long operations, TLBs, reports) and the units' own queues. Plain data throughout.
-/
namespace Sys2Proof.Machine

/-- A coin: 128 bits and a tag (R38). -/
structure Coin where
  bits : BitVec 128
  tag : Bool
  deriving DecidableEq, Repr

def Coin.zero : Coin := ⟨0, false⟩

/-- R38 [63:0]. -/
def Coin.cursor (c : Coin) : Word := c.bits.extractLsb' 0 64
/-- R38 [95:64]. -/
def Coin.purse (c : Coin) : Nat := getF c.bits ⟨95, 64⟩
/-- R38 [115:96]. -/
def Coin.issue (c : Coin) : Nat := getF c.bits ⟨115, 96⟩
/-- R38 [127:116]. -/
def Coin.rights (c : Coin) : BitVec 12 := c.bits.extractLsb' 116 12

def Coin.withCursor (c : Coin) (w : Word) : Coin := { c with bits := c.bits.extractLsb' 64 64 ++ w }
def Coin.withRights (c : Coin) (r : BitVec 12) : Coin := { c with bits := r ++ c.bits.extractLsb' 0 116 }
def Coin.withIssue (c : Coin) (i : Nat) : Coin := { c with bits := setF c.bits ⟨115, 96⟩ i }
/-- The coin of the given fields (R38). -/
def Coin.make (cursor : Word) (purse issue : Nat) (rights : BitVec 12) (tag : Bool) : Coin :=
  ⟨rights ++ BitVec.ofNat 20 issue ++ BitVec.ofNat 32 purse ++ cursor, tag⟩

/-- A purse entry as its four words (R44). -/
structure Purse where
  w0 : Word
  w1 : Word
  w2 : Word
  w3 : Word
  deriving DecidableEq, Repr

def Purse.base (p : Purse) : Nat := p.w0.toNat
def Purse.length (p : Purse) : Nat := p.w1.toNat
def Purse.issue (p : Purse) : Nat := getF p.w2 ⟨19, 0⟩
/-- 0 FREE, 1 LIVE, 2 RETIRED, 3 SWEEPING. -/
def Purse.state (p : Purse) : Nat := getF p.w2 ⟨21, 20⟩
def Purse.floor (p : Purse) : Nat := getF p.w2 ⟨23, 22⟩
/-- 0 DATA, 1 CODE, 2 ACCOUNT, 3 JOURNAL, 4 RING, 5 GATE, 6 HERITAGE, 7 reserved. -/
def Purse.type (p : Purse) : Nat := getF p.w2 ⟨26, 24⟩
def Purse.tring (p : Purse) : Nat := getF p.w2 ⟨28, 27⟩
def Purse.owner (p : Purse) : Nat := getF p.w2 ⟨47, 32⟩
def Purse.localok (p : Purse) : Bool := bitB p.w2 48
def Purse.sealld (p : Purse) : Bool := bitB p.w2 49
def Purse.rstk (p : Purse) : Bool := bitB p.w2 50
def Purse.parent (p : Purse) : Nat := getF p.w3 ⟨31, 0⟩
def Purse.link (p : Purse) : Nat := getF p.w3 ⟨63, 32⟩
def Purse.withState (p : Purse) (n : Nat) : Purse := { p with w2 := setF p.w2 ⟨21, 20⟩ n }
def Purse.withIssue (p : Purse) (n : Nat) : Purse := { p with w2 := setF p.w2 ⟨19, 0⟩ n }
def Purse.withLink (p : Purse) (n : Nat) : Purse := { p with w3 := setF p.w3 ⟨63, 32⟩ n }

/-- R45. -/
def Purse.malformed (p : Purse) : Bool :=
  p.type == 7 || getF p.w2 ⟨31, 29⟩ != 0 || getF p.w2 ⟨63, 51⟩ != 0 || (p.tring != 0 && p.type != 5) ||
    (p.rstk && p.type != 4) || decide (p.base + p.length > 2 ^ 64)

/-- The device modes of R28. -/
inductive Mode where
  | load | run | degraded | brumation | diagnostic | drain
  deriving DecidableEq, Repr

/-- The mode's code (R28). -/
def Mode.code : Mode → Nat
  | .load => 0 | .run => 1 | .degraded => 2 | .brumation => 3 | .diagnostic => 4 | .drain => 5

/-- What a core is doing: held before release, issuing, in WAIT (R229), halted by debug (R450), STOPPED (R210). -/
inductive CoreRun where
  | held | running | waiting | halted | stopped
  deriving DecidableEq, Repr

/-- Memory types of R240; 6 and 7 are reserved. -/
inductive MType where
  | normal | uncached | device | purse | journal | ring
  deriving DecidableEq, Repr

/-- One translated part of an access: physical address, length in bytes, memory type. -/
structure Half where
  pa : Nat
  len : Nat
  mt : MType
  deriving DecidableEq, Repr

/-- Destination of a load or long operation. -/
inductive Dst where
  | none
  | g (n : Nat)
  /-- a general register of the gecko bank, g16–g31 -/
  | gg (n : Nat)
  | c (n : Nat)
  /-- a coin register of the gecko bank, c8–c15 -/
  | gc (n : Nat)
  | v (n : Nat)
  /-- bits [63:0] of v n; the rest of v n is kept (R142) -/
  | f (n : Nat)
  /-- bits [127:0] of v n; the rest of v n is kept (R142) -/
  | q (n : Nat)
  | m (n : Nat)
  /-- a register of the heritage bank (R384) -/
  | h (n : Nat)
  deriving DecidableEq, Repr

/-- The register that a destination lies in: f and q lie in their v register (R98). -/
def Dst.base : Dst → Dst
  | .f n => .v n
  | .q n => .v n
  | d => d

/-- The value a load or long operation writes. -/
inductive DVal where
  | w (x : Word)
  | coin (c : Coin)
  | quad (x : BitVec 128)
  | vec (x : BitVec 4096)
  | mask (x : BitVec 512)
  deriving DecidableEq, Repr

/-- How the bytes of a load become its destination's value. -/
inductive LoadKind where
  /-- sign- or zero-extended into a g register (R112) -/
  | gpr (signed : Bool)
  /-- into f; 4 bytes are zero-extended to 64 bits (R142) -/
  | fpr
  /-- into q -/
  | qpr
  /-- LDC: 128 bits and tag, after the retirement test (R93) -/
  | coin
  /-- a K16 word into an h register (R387) -/
  | word16
  deriving DecidableEq, Repr

/-- One half of an outstanding load, with its bytes and tag once it is performed or forwarded from the store buffer (R113, R259). -/
structure LoadPart where
  half : Half
  got : Option (List Byte × Bool)
  deriving DecidableEq, Repr

/-- An outstanding load (R115, R133): checked and translated at issue, each half performed on its own (R113). -/
structure Load where
  dst : Dst
  parts : List LoadPart
  kind : LoadKind
  deriving DecidableEq, Repr

/-- The value a load's destination register held before the load, seen by the next instruction (R115). -/
structure Shadow where
  dst : Dst
  old : DVal
  deriving DecidableEq, Repr

/-- Flags of CS_FPFLAGS raised by an operation, as its bit set (bit i of R142's register). -/
abbrev FpFlags := BitVec 8

/-- An arithmetic exception to report (R153): cause code of CS_AXINFO, opcode and funct7 of the instruction, its address
and whether it was reported precisely. -/
structure AxReport where
  /-- the instruction's place in program order -/
  order : Nat
  cause : Nat
  opc : Nat
  funct7 : Nat
  pc : Word
  deriving DecidableEq, Repr

/-- A long operation still running (R152): its results and the flags it raises are decided by its operands at issue. -/
structure LongOp where
  writes : List (Dst × DVal)
  flags : FpFlags
  ax : Option AxReport
  deriving DecidableEq, Repr

/-- What a store-buffer entry does when it drains. -/
inductive SbKind where
  /-- data bytes; clears the tags of the granules written (R57) -/
  | data
  /-- a coin store: 16 bytes and their tag -/
  | coin (tag : Bool)
  /-- CZERO: 64 zero bytes, tags cleared -/
  | zero
  /-- a FENCE.SS marker (R255) -/
  | markSS
  /-- a FENCE.LS marker: later stores leave only after earlier loads are performed (R255) -/
  | markLS
  deriving DecidableEq, Repr

/-- What a store that has left for its home waits for before it is performed (R66, R253). -/
inductive SbWait where
  | none
  /-- the acknowledgement of the peer request with this TXID (R371) -/
  | peer (txid : Nat)
  /-- the completion of the purse write with this number (R66) -/
  | purse (id : Nat)
  deriving DecidableEq, Repr

/-- One store-buffer entry. -/
structure SbEntry where
  kind : SbKind
  pa : Nat
  bytes : List Byte
  mt : MType
  /-- a release: performed only after every earlier access (R256) -/
  release : Bool
  /-- the second half of a split store whose first half is the entry before this one (R113) -/
  half2 : Bool
  /-- sent, and not performed yet -/
  wait : SbWait
  deriving DecidableEq, Repr

/-- A store as it enters the buffer. -/
def SbEntry.of (kind : SbKind) (pa : Nat) (bytes : List Byte) (mt : MType) (release : Bool) : SbEntry :=
  ⟨kind, pa, bytes, mt, release, false, .none⟩

/-- The store buffer without the entries that `p` selects; `orphan` says that the entry before has just been removed. -/
def sbDrop (p : SbEntry → Bool) : Bool → List SbEntry → List SbEntry
  | _, [] => []
  | orphan, e :: r => if p e then sbDrop p true r else (if orphan then { e with half2 := false } else e) :: sbDrop p false r

/-- The store buffer without its entry i. -/
def sbErase : List SbEntry → Nat → List SbEntry
  | [], _ => []
  | _ :: [], 0 => []
  | _ :: f :: r, 0 => { f with half2 := false } :: r
  | e :: r, i + 1 => e :: sbErase r i

/-- An imprecise write notice on its way to, or waiting at, a core (R473). -/
structure Notice where
  pa : Nat
  init : Nat
  access : Bool
  notarget : Bool
  deriving DecidableEq, Repr

/-- A TLB leaf (R247): ASID, level, virtual page base, entry, and the entry's physical address. -/
structure TlbEntry where
  asid : Nat
  level : Nat
  vbase : Nat
  pte : Word
  ea : Nat
  deriving DecidableEq, Repr

/-- A walk-cache entry (R247): the table reached below `level` for the given upper address bits. -/
structure WalkEntry where
  asid : Nat
  level : Nat
  vbase : Nat
  table : Nat
  mt : Nat
  deriving DecidableEq, Repr

/-! Tellers (R291–R320) and their journal (R324–R346) -/

/-- Where a posting was submitted (R297, R299, R371). -/
inductive Origin where
  | post (core : Nat)
  | slot (ring slot : Nat)
  | peer (port txid : Nat)
  deriving DecidableEq, Repr

/-- A leg of a posting (R294) with what its teller has learnt: the physical line, the locked contents, the TXID of a lock at a
peer. -/
structure Leg where
  coin : Coin
  amount : BitVec 128
  pa : Option Nat
  cell : List Byte
  txid : Nat
  deriving DecidableEq, Repr

/-- How far a posting has come (R303–R308). -/
inductive PostPhase where
  /-- on its way to its intake teller -/
  | sent
  /-- in the intake queue; its CRCOIN has passed or not been checked yet -/
  | queued (checked : Bool)
  /-- on its way to its lead teller, or waiting there for a place -/
  | forwarded
  /-- the lock request for the line with this number in address order is on its way or waits -/
  | lockReq (i : Nat)
  /-- the grant of that lock is on its way back -/
  | granted (i : Nat)
  /-- every lock is held; the commit stage waits for a purse entry whose line is in use (R263, R305) -/
  | commitWait
  /-- the commit stage has passed; a number is asked for -/
  | numberReq
  /-- the number is on its way back -/
  | numbered
  /-- cell writes and their acknowledgements are under way -/
  | committing
  /-- waits for its durability point -/
  | durWait
  /-- its completion record is being written, or waits for room in the ring -/
  | completing
  deriving DecidableEq, Repr

/-- How far the completion record of a posting is (R301): CRCOIN not checked; the header's translation known; an index reserved, with the
header's CFG; the record's translation known. -/
inductive CrStage where
  | check
  | header (pa : Nat)
  | slot (prod cfg : Nat)
  | record (prod cfg pa : Nat)
  deriving DecidableEq, Repr

/-- A posting between its submission and its completion record. -/
structure Posting where
  id : Nat
  origin : Origin
  intake : Nat
  lead : Nat
  hdr : List Byte
  crcoin : Coin
  legs : List Leg
  ring : Nat
  asid : Nat
  mode : Nat
  root : Nat
  /-- accepted in DIAGNOSTIC (R320) -/
  diag : Bool
  phase : PostPhase
  /-- status, leg and cause met so far (R310); status below 0x10 for none -/
  status : Nat
  leg : Nat
  cause : Nat
  /-- conditions met in the lock stage, decided at its end (R309): status and leg -/
  lockFails : List (Nat × Nat)
  seq : Word
  time : Word
  /-- a fence marker covers it: its record is lost rather than waited for (R318) -/
  covered : Bool
  /-- counted in STALLS already (R331) -/
  stalled : Bool
  /-- lines whose new cell is on its way to its home teller -/
  commits : List Nat
  /-- lines whose acknowledgement is on its way back -/
  acks : List Nat
  /-- the translations its descriptor, CRCOIN and legs went through, for TLR_INVTLB (R314) -/
  used : List TlbEntry
  /-- the journal target of its class was cleared before its point was reached: its record is lost (R338) -/
  classLost : Bool
  /-- when it arrived at a lead with no place free (R315) -/
  arrived : Option Nat
  /-- the number of the message that its phase stands for, in the order sent (R260) -/
  sent : Nat
  /-- its completion record, and the translations that went through (R301, R314) -/
  cr : CrStage
  crUsed : List TlbEntry
  deriving DecidableEq, Repr

/-- Who holds or asks for the lock of a cell line (R304, R319). -/
inductive LockOwner where
  | posting (id : Nat)
  | peer (port txid src : Nat)
  deriving DecidableEq, Repr

/-- A lock, a waiting lock request, or a release on its way. -/
structure CellLock where
  line : Nat
  owner : LockOwner
  deriving DecidableEq, Repr

/-- A staged journal record (R330): its stream, bytes and sequence number; what it still needs before it leaves staging. -/
structure JRec where
  teller : Nat
  bytes : List Byte
  seq : Word
  /-- a mirror record received from a peer, with the port and TXID its acknowledgement answers -/
  mirrorOf : Option (Nat × Nat)
  /-- the TXID under which it was sent to the mirror -/
  txid : Nat
  needLocal : Bool
  needMirror : Bool
  /-- accepted by the device, the stream then this many bytes long -/
  written : Option Nat
  deriving DecidableEq, Repr

/-- A participant record under way at teller `teller` (R328): the port and number of the lead's posting, what its commits say of it, and
for each leg written here its line, the cell's LASTSEQ before, and the TXID of its commit. -/
structure PartRec where
  port : Nat
  teller : Nat
  seq : Word
  note : PostNote
  /-- the legs whose cells this teller writes -/
  mine : List (Nat × BitVec 128)
  got : List (Nat × Word × Nat)
  deriving DecidableEq, Repr

/-- A persistence flush in flight (R333): lane group, port, and for each teller with covered bytes the stream length covered. -/
structure Flush where
  group : Nat
  port : Nat
  covers : List (Nat × Nat)
  /-- tellers whose persistent mirror areas it covers (R334) -/
  mirrors : List Nat
  /-- the phase of the Global Persistent Flush under way: 1 only in the final flush of DRAIN (R354) -/
  phase : Nat
  deriving DecidableEq, Repr

/-- What a unit other than a core has cached of translations (R249). -/
structure XCache where
  tlb : List TlbEntry
  walk : List WalkEntry
  deriving DecidableEq, Repr

/-- A POST of a core awaiting its reply (R297): posting number or TXID, destination, and the reply once sent. -/
structure PostWait where
  id : Nat
  dst : Dst
  reply : Option Nat
  deriving DecidableEq, Repr

/-- An index in a core's mint reserve with the head word it came from (R79). -/
structure Reserve where
  idx : Nat
  head : Nat
  deriving DecidableEq, Repr

/-- What a recall instruction writes when its fence completes (R86, R87). -/
inductive RecallEnd where
  | status (code : Nat)
  | busError (poison : Bool)
  deriving DecidableEq, Repr

/-- The recall a core waits on (R87). `arrived` is none until the home slice has taken the request. -/
structure RecallWait where
  idx : Nat
  issue : Nat
  freeing : Bool
  /-- destination coin register and coin, for RECALL -/
  cd : Option (Nat × Coin)
  gd : Nat
  /-- the address of the coin check, for a bus error; none for the forms that check no coin -/
  va : Option Word
  arrived : Option RecallEnd
  fence : Nat
  deriving DecidableEq, Repr

/-- One core (R98, R102). -/
structure CoreState where
  run : CoreRun
  /-- g0–g31; entry 0 is never written (R99) -/
  g : Vector Word 32
  /-- the gecko bank's g16–g31 (R204) -/
  gg : Vector Word 16
  /-- c0–c15 (R42) -/
  c : Vector Coin 16
  /-- the gecko bank's c8–c15 (R204) -/
  gc : Vector Coin 8
  /-- v0–v31; f and q are their low bits (R98) -/
  v : Vector (BitVec 4096) 32
  /-- m0–m7 -/
  m : Vector (BitVec 512) 8
  /-- h0–h15 -/
  h : Vector (BitVec 16) 16
  /-- CS_PCC (R100) -/
  pcc : Coin
  /-- the 64-bit core state registers by index (R102) -/
  cs : SMap Word
  /-- the coin-valued core state registers by index, CS_PCC apart (R102) -/
  ccs : SMap Coin
  /-- a PFX word waiting for its instruction (R107) -/
  pfx : Option (BitVec 25)
  /-- the load shadow (R115) -/
  shadow : Option Shadow
  /-- loads awaiting data, oldest first -/
  loads : List Load
  /-- long operations in flight, oldest first -/
  longs : List LongOp
  /-- MODEL's own: long operations issued so far, to order reports -/
  opCount : Nat
  /-- the store buffer, oldest first -/
  sb : List SbEntry
  /-- FENCE.LL seen: later loads wait for the outstanding ones (R255) -/
  fenceLL : Bool
  /-- FENCE.SL seen: later loads wait for the store buffer to drain (R255) -/
  fenceSL : Bool
  /-- pending enabled arithmetic exceptions, oldest first (R153) -/
  ax : List AxReport
  /-- refused writes not yet reported back to the core (WRITE_NOTICE) -/
  refused : List Notice
  /-- pending trap 0x14 notices (R201) -/
  notices : List Notice
  /-- the interrupt lines as asserted at the core (R217) -/
  lineN : Bool
  lineG : Bool
  tlb : List TlbEntry
  walk : List WalkEntry
  /-- the purse cache (R65) -/
  pcache : List (Nat × Purse)
  /-- the mint reserve (R79) -/
  reserve : List Reserve
  /-- a refill of the reserve is under way (R79) -/
  refill : Bool
  /-- the recall instruction in progress (R87) -/
  recallW : Option RecallWait
  /-- POSTs awaiting their reply (R297) -/
  posts : List PostWait
  /-- the value of the last CS_TIME read (R26) -/
  lastTime : Word
  /-- an instruction, by its word, that has passed its check and awaits a peer (R89) -/
  flight : Option Nat
  /-- CS_DBGCTL has been written by the instruction under way: its SKIP is for the next one (R451) -/
  skipSet : Bool
  /-- single-step requested by debug: halt again after the next instruction (R450) -/
  step : Bool
  deriving DecidableEq, Repr

/-- A core right after device reset (R42, R184, R235): every register zero, the core held; CS registers at their tables'
reset values, listed nowhere. DESIGN CHOICE, log entry 2. -/
def CoreState.reset : CoreState where
  run := .held
  g := Vector.replicate 32 0
  gg := Vector.replicate 16 0
  c := Vector.replicate 16 Coin.zero
  gc := Vector.replicate 8 Coin.zero
  v := Vector.replicate 32 0
  m := Vector.replicate 8 0
  h := Vector.replicate 16 0
  pcc := Coin.zero
  cs := []
  ccs := []
  pfx := none
  shadow := none
  loads := []
  longs := []
  opCount := 0
  sb := []
  fenceLL := false
  fenceSL := false
  ax := []
  refused := []
  notices := []
  lineN := false
  lineG := false
  tlb := []
  walk := []
  pcache := []
  reserve := []
  refill := false
  recallW := none
  posts := []
  lastTime := 0
  flight := none
  skipSet := false
  step := false

/-- A purse write in progress (R66, R67): the entries written, the clusters not yet invalidated, the clusters whose
acknowledgement has not arrived, and the core it belongs to. -/
structure PurseWr where
  id : Nat
  idxs : List Nat
  inval : BitVec 16
  acks : BitVec 16
  core : Option Nat
  /-- a MINT's: the core's later stores, MINTs and recalls wait for it (R83) -/
  hold : Bool
  /-- the line of the head word held until it completes (R77) -/
  head : Option Nat
  deriving DecidableEq, Repr

/-- The agents that answer fence markers (R88). -/
abbrev Agent := FenceAgent

/-- Why a fence runs: a recall instruction of a core (R88) or the START of the sweep job with this number (R94). -/
inductive FenceKind where
  | recallOf (core : Nat)
  | sweep (job : Nat)
  deriving DecidableEq, Repr

/-- A fence in progress (R88): agents whose marker has not arrived, and agents whose acknowledgement has not arrived. -/
structure Fence where
  id : Nat
  kind : FenceKind
  markers : List Agent
  acks : List Agent
  /-- purse writes whose invalidations come before the markers (R88) -/
  after : List Nat
  /-- the purse indices the markers carry (R364) -/
  purses : List Nat
  /-- postings an agent's acknowledgement waits for; for a peer port, a nonempty list until its FAK (R377) -/
  waits : List (Agent × List Nat)
  deriving DecidableEq, Repr

/-- A line change on its way to a core (R217, R219). -/
structure LineMsg where
  core : Nat
  gecko : Bool
  level : Bool
  deriving DecidableEq, Repr

/-- The settings a shared source had before a write, still able to launch until `until` (R222). -/
structure OldSrc where
  src : Nat
  old : Word
  deadline : Nat
  deriving DecidableEq, Repr

/-- A line of a peer's memory held in the local L2s (R376): its window line address, 64 bytes, four tags. -/
structure RLine where
  pa : Nat
  data : List Byte
  tags : BitVec 4
  poison : Bool
  excl : Bool
  dirty : Bool
  deriving DecidableEq, Repr

/-- How a request to a peer ended (R371): the data with its tags and poison, or the status of its CMP. -/
inductive PeerReply where
  | data (bytes : List Byte) (tags : BitVec 4) (poison : Bool)
  | done (status : Nat)
  deriving DecidableEq, Repr

/-- A request of this socket to a peer, known by its TXID (R370). -/
structure PeerTx where
  txid : Nat
  port : Nat
  op : Nat
  pa : Nat
  /-- the unit number of the originator -/
  src : Nat
  reply : Option PeerReply
  deriving DecidableEq, Repr

/-- A Filvo Link message (R370). -/
structure PeerMsg where
  port : Nat
  op : Nat
  data : List Byte
  poison : Bool
  tags : BitVec 4
  txid : Nat
  src : Nat
  arg : Nat
  value : Word
  deriving DecidableEq, Repr

/-- What its home slice signals when purse writes have completed (R66): the answer to an outside request, a debug access's RESULT by
its value, or a message to a peer. -/
inductive PurseSignal where
  | answer (status : Nat) (data : List Byte)
  | debug (result : Nat)
  | peer (m : PeerMsg)
  deriving DecidableEq, Repr

/-- A signal that waits for the purse writes with these numbers (R66). -/
structure PurseDone where
  ids : List Nat
  act : PurseSignal
  deriving DecidableEq, Repr

/-! Coherence directories of the home slices (R280, R376) -/

/-- Who holds a line: sharers, or with `excl` one owner. Clusters by number in one directory, peer ports in the other. -/
structure Holders where
  who : BitVec 16
  excl : Bool
  deriving DecidableEq, Repr

/-- A request a home slice serves in order of arrival for its line (R263): a unit's coherence request, or a peer's message. -/
structure HomeReq where
  unit : Nat
  line : Nat
  excl : Bool
  msg : Option PeerMsg
  deriving DecidableEq, Repr

/-- A snoop sent and not answered: the line, and the unit number of the cluster or peer port. -/
structure Snoop where
  line : Nat
  agent : Nat
  inval : Bool
  txid : Nat
  deriving DecidableEq, Repr

/-! Filvo Link (R367–R378) -/

/-- A PAYLOAD flit kept for replay: its FSEQ, its slots of messages, how often it was resent (R373). -/
structure Flit where
  fseq : Nat
  slots : List (List PeerMsg)
  resends : Nat
  /-- the credits it returns (R372) -/
  cls : Nat
  cnt : Nat
  deriving DecidableEq, Repr

/-- The last NAK or CONTROL flit a port sent (R369). -/
inductive CtlFlit where
  | nak (ack : Nat)
  | ident (socket : Nat) (credits : List Nat)
  | treq (t1 : Word)
  | trsp (t2 t3 : Word)
  | down
  deriving DecidableEq, Repr

/-- The link layer of a peer port (R369–R373, R378). -/
structure Link where
  /-- FSEQ of the last PAYLOAD flit sent; FSEQ of the last one received in order -/
  txSeq : Nat
  rxSeq : Nat
  /-- credits held for REQ, RSP, SNP and PRI (R372) -/
  credits : Vector Nat 4
  /-- slots received and freed whose credits are not returned yet, by class -/
  owed : Vector Nat 4
  /-- unacknowledged PAYLOAD flits, oldest first -/
  replay : List Flit
  ctl : Option CtlFlit
  /-- times of the resends of the last millisecond -/
  resendTimes : List Nat
  /-- t1 of the TREQ awaiting its answer (R378) -/
  treq : Option Word
  /-- the first exchange has stepped the time base -/
  stepped : Bool
  /-- exchanges in a row with |θ| at most 2 ns -/
  close : Nat
  /-- the class after which the round-robin of RSP, SNP and REQ goes on: 1, 2 or 0 (R372) -/
  rr : Nat
  /-- the flits that the last sending put on the lanes, 256 bytes each (R369) -/
  wire : List (List Byte)
  deriving DecidableEq, Repr

def Link.reset : Link := ⟨0, 0, Vector.replicate 4 0, Vector.replicate 4 0, [], none, [], none, false, 0, 0, []⟩

/-- An IPI of a peer that waits for the writes its port made before it (R215). -/
structure RingWait where
  port : Nat
  core : Nat
  k : Nat
  reqs : List HomeReq
  deriving DecidableEq, Repr

/-- A fence marker of a peer not answered yet (R377): what it received before and has not completed. -/
structure FncWait where
  port : Nat
  txid : Nat
  /-- TXIDs of the messages received before it that are not complete, and its IPIs -/
  txs : List Nat
  rings : List RingWait
  deriving DecidableEq, Repr

/-- A forwarded POST arriving in pieces (R371). -/
structure PfwPart where
  port : Nat
  txid : Nat
  addr : Nat
  bytes : List Byte
  tags : List Bool
  deriving DecidableEq, Repr

/-! Lane groups -/

/-- A DMA request (R350): lane group, requester, address as the device gave it. -/
structure DmaReq where
  group : Nat
  rid : Nat
  translated : Bool
  pasid : Bool
  addr : Nat
  deriving DecidableEq, Repr

/-- What a request that passed its guard goes by until it completes (R365): its physical address, its number, the cached leaf that its
translation used, and whether an LGP_INVTLB write has removed that (R358). -/
structure Admission where
  pa : Nat
  id : Nat
  used : List TlbEntry
  removed : Bool
  deriving DecidableEq, Repr

/-- A DMA write accepted and not performed yet (R215), and its admission once it has one. -/
structure LaneWrite where
  req : DmaReq
  bytes : List Byte
  poison : Bool
  adm : Option Admission
  deriving DecidableEq, Repr

/-- What a DMA request that is no write does: a read, or an atomic of R371's number with its operands. -/
inductive DmaKind where
  | read
  | atomic (op gs gd : Nat)
  deriving DecidableEq, Repr

/-- A DMA read or atomic admitted and not answered yet (R365). -/
structure DmaOut where
  req : DmaReq
  kind : DmaKind
  len : Nat
  adm : Admission
  deriving DecidableEq, Repr

/-- An ATS invalidation not completed (R358): lane group, function entry, when it was sent. -/
structure AtsInv where
  group : Nat
  fn : Nat
  sent : Nat
  deriving DecidableEq, Repr

/-- An entry of a page-request ring whose group software has not answered (R357). -/
structure PrqEntry where
  group : Nat
  rid : Nat
  prgi : Nat
  deriving DecidableEq, Repr

/-! Start-up, management and debug -/

/-- The board's signals as the device sees them, and those it drives (R394, R453–R459, R464, R472). -/
structure Pins where
  /-- PWR_GOOD is high -/
  pwrGood : Bool
  /-- rail monitors reading valid, by the order of R453 -/
  rails : BitVec 10
  /-- REFCLK is present -/
  refclk : Bool
  /-- a diode has reached 115 °C since the last reset -/
  trip : Bool
  /-- THERMTRIP_N is asserted (low) -/
  thermtrip : Bool
  /-- when the last diode reading of 115 °C or more was made (R464) -/
  tripAt : Word
  /-- THERM_N is asserted (low): thermal control is lowering clocks (R463) -/
  thermN : Bool
  /-- DDR_PWREN[7:0] -/
  ddrPwren : BitVec 8
  deriving DecidableEq, Repr

/-- A flash command under way (R414): 1 ERASE or 2 PROGRAM, its address and, for PROGRAM, the buffer. -/
structure FlashOp where
  op : Nat
  addr : Nat
  data : List Byte
  deriving DecidableEq, Repr

/-- Whether the sequencer has been told to stop by a power failure in LOAD (R30). -/
inductive SeqStop where
  | no | atEnd | stopped
  deriving DecidableEq, Repr

/-- The image sequencer's settings and the eft (R404, R415, R417, R418). -/
structure Boot where
  /-- BOOTTOP in bytes -/
  top : Nat
  /-- mem.train = 1 -/
  trainFull : Bool
  /-- mem.ch[n].speed -/
  speed : SMap Nat
  stop : SeqStop
  /-- the eft has been released -/
  eftRunning : Bool
  /-- when the watchdog period last started -/
  kicked : Word
  /-- the MCTP endpoint ID assigned to the eft -/
  eid : BitVec 8
  /-- stage LANES has applied the layouts and started training -/
  lanesOn : Bool
  /-- the eft's own 256 KiB of data SRAM, by offset (R415) -/
  eftSram : SMap Byte
  /-- PLDM event messages that the eft has sent since reset, each the error record it is about (R417) -/
  events : List (List Byte)
  deriving DecidableEq, Repr

/-- A steward operation accepted and not complete (R420): unit, OP and ARG. -/
structure UnitOp where
  unit : Nat
  op : Nat
  arg : Nat
  deriving DecidableEq, Repr

/-- A brumation requested or current (R427): its change, whether the change could not be made, and what stood before it: the
granule code, VLT_PTBASE and CS_PTBASE, the sequencer, and the registers of unit 0x142. -/
structure Brumation where
  chg : Nat
  failed : Bool
  gran : Nat
  ptbase : Word
  seq : BitVec 60 × Bool × Bool
  regs : List (Nat × Word)
  deriving DecidableEq, Repr

/-- A brumation asked for. -/
def Brumation.asked (chg : Nat) : Brumation := ⟨chg, false, 0, 0, (1, false, false), []⟩

/-- The TAP (R447): what EXTEST drives on the lands, while it is selected, and what the boundary register holds. -/
structure Tap where
  extest : Option Nat
  boundary : Nat
  deriving DecidableEq, Repr

/-- What the device answers to an outside request: a status (0 success, 1 refused, 2 success with poisoned data) and data. -/
structure Answer where
  status : Nat
  data : List Byte
  deriving DecidableEq, Repr

end Sys2Proof.Machine
end

