-- ==== Sys2Proof/Machine/State.lean ====
section
/-!
DEFINITION. The state of the block: everything the manual gives the KD9128, as plain data, and the queue of commands
waiting. Control-space registers live in `csr` under their key (R6), each reading its reset value until written (R12);
INVENTORY.md lists every register.
-/
namespace Sys2Proof.Machine

/-- The faults of the model: none. No command stops the block: one whose condition does not hold leaves the state as it is. Safe:
nothing is claimed of a machine that has stopped. DESIGN CHOICE, log entry 6. -/
inductive Fault where
  deriving DecidableEq, Repr

/-- Commands without a meaning. DESIGN CHOICE, log entry 6. -/
inductive Refusal where
  /-- Raised by `exec` for a command whose meaning is not written. Safe: no effect is claimed. -/
  | notModelled (mnemonic : String)
  deriving DecidableEq, Repr

/-- The ledger sequencer (R311, R312): the next count, whether it issues, whether it has run out, the last issued. -/
structure Sequencer where
  next : BitVec 60
  isOpen : Bool
  exhausted : Bool
  last : Word
  deriving DecidableEq, Repr

/-- How far a sweep job has come (R94): waiting for peers' answers, waiting for copy engines or its fence, or scanning. -/
inductive SweepStage where
  | arm | start | scan
  deriving DecidableEq, Repr

/-- A list being swept (R94, R95): software's own, or one forwarded by a peer: `origin` is its port and TXID. -/
structure SweepJob where
  id : Nat
  origin : Option (Nat × Nat)
  list : List Nat
  stage : SweepStage
  /-- ports whose answer accepted or refused is awaited -/
  asked : List Nat
  /-- ports whose done is awaited -/
  undone : List Nat
  /-- tag engines, by unit, still scanning -/
  engines : List Nat
  deriving DecidableEq, Repr

/-- The sweep coordinator (R94–R96): software's list, the jobs in order of arrival, pieces of lists arriving from peers. -/
structure Sweep where
  list : List Nat
  jobs : List SweepJob
  pieces : List (Nat × List Nat)
  deriving DecidableEq, Repr

/-- The whole machine. -/
structure State where
  /-- commands waiting, first in first out -/
  pending : List Instr
  /-- the device is held in device reset (R394) -/
  inReset : Bool
  /-- the current mode (R28) -/
  mode : Mode
  /-- the time base, in ns (R25) -/
  time : Word
  /-- MODEL's own: the free-value counter -/
  free : Nat
  /-- control-space registers by key (R6–R12) -/
  csr : SMap Word
  /-- the cores 0x000–0x07F -/
  cores : Vector CoreState 128
  /-- this socket's ID (R35) -/
  socket : BitVec 3
  /-- the coherent bytes of local memory by local address (R34) -/
  mem : SMap Byte
  /-- tags by granule number, address ÷ 16 (R41) -/
  tags : SMap Bool
  /-- poison by line number, address ÷ 64 (R282) -/
  poison : SMap Bool
  /-- what the memory devices hold for lines with a newer value in a cache or pinned slot (R279, R128) -/
  back : SMap Byte
  /-- line numbers whose newest value is in a cache or pinned slot -/
  dirty : SMap Bool
  /-- the purse directories: clusters holding entry i (R65) -/
  purseDir : SMap (BitVec 16)
  /-- purse writes in progress (R66) -/
  purseWrs : List PurseWr
  /-- what is signalled when purse writes complete (R66) -/
  purseDone : List PurseDone
  /-- fences in progress (R88) -/
  fences : List Fence
  /-- the number the next purse write or fence takes -/
  nextId : Nat
  /-- the sweep coordinator's list and progress (R94) -/
  sweep : Sweep
  /-- ring counters of shared sources (R216) -/
  dbCnt : SMap Nat
  /-- due times of shared sources (R216) -/
  dbDue : SMap Nat
  /-- state of private sources: P, A, L as bits 0, 1, 2, by core × 64 + k (R216) -/
  dbPriv : SMap Nat
  /-- hub's asserted lines, by core × 2 + class (1 gecko) (R217) -/
  dbLine : SMap Bool
  /-- line changes sent and not yet at their core (R217) -/
  dbMsgs : List LineMsg
  /-- shared-source settings still able to launch (R222) -/
  dbOld : List OldSrc
  /-- the ledger sequencer -/
  seq : Sequencer
  /-- management SRAM by offset of unit 0x160: the error rings and the eft's own (R442) -/
  sram : SMap Byte
  /-- lines of peers' memory held in the local L2s (R376) -/
  rlines : List RLine
  /-- requests sent to peers and not yet consumed (R371) -/
  peerTx : List PeerTx
  /-- messages handed to the peer ports, oldest first, until the far side has acknowledged their flit (R373) -/
  peerOut : List PeerMsg
  /-- MODEL's own: the computation under way met something it has to wait for (a locked cell line, an unacknowledged write) -/
  blocked : Bool
  /-- postings between submission and completion, by age (R297–R308) -/
  postings : List Posting
  /-- locked cell lines (R304) -/
  cellLocks : List CellLock
  /-- lock requests waiting at their home tellers, in order of arrival (R305) -/
  lockWaits : List CellLock
  /-- lock releases on their way to a participant (R318) -/
  lockRels : List CellLock
  /-- staged journal records in staging order (R330) -/
  staging : List JRec
  /-- SPREV of each teller's next record (R324) -/
  jPrev : SMap Word
  /-- a TLR_JCTL write that set MIRROR and waits for the peer's answer, by teller: the TXID of its OPEN record (R346) -/
  jMirPend : SMap Nat
  /-- sequence numbers accepted from a mirrored stream, by teller (R334) -/
  jSeen : List (Nat × Word)
  /-- persistence flushes in flight (R333) -/
  flushes : List Flush
  /-- ports, as group × 8 + port, that have accepted journal writes since their last flush started (R333) -/
  jDirty : List Nat
  /-- participant records not complete yet (R328) -/
  parts : List PartRec
  /-- what arrived with commits not served yet, by port and TXID (R328) -/
  cmtNotes : List (Nat × Nat × PostNote)
  /-- whole mirror records that wait for staging room: teller, socket, port, TXID, bytes (R334) -/
  jWait : List (Nat × Nat × Nat × Nat × List Byte)
  /-- tellers that have staged their SEAL record (R339) -/
  sealed : List Nat
  /-- translations cached by tellers and lane groups, by unit (R249) -/
  xcache : SMap XCache
  /-- tellers that have finished their DRAIN (R339) -/
  drained : List Nat
  /-- pieces of mirror records and forwarded posts arriving from peers, by port and TXID (R371) -/
  jParts : List (Nat × Nat × List Byte)
  /-- directories of clusters holding local lines, by line number (R280) -/
  l2dir : SMap Holders
  /-- the clusters' snoop filters: the L2s, by core, that hold a line of local memory or of a peer's, by line number of its physical
  address (R280) -/
  l2s : SMap (BitVec 128)
  /-- local lines whose DRAM copy is poisoned under a good copy in a cache or pinned slot (R283) -/
  dramBad : List Nat
  /-- remote directories: peer ports holding local lines, by line number (R376) -/
  rdir : SMap Holders
  /-- snoops sent and not answered -/
  snoops : List Snoop
  /-- requests waiting at their home slices, in order of arrival (R263) -/
  homeReqs : List HomeReq
  /-- bytes and poison of CXL devices whose region is not enabled, by (lane group × 8 + port) × 2^48 + device offset -/
  devMem : SMap Byte
  devPoison : SMap Bool
  /-- messages received and held in BRUMATION or DRAIN, each with whether it ends its slot (R31) -/
  held : List (PeerMsg × Bool)
  /-- the layouts of the lane groups as last applied (R348) -/
  layouts : SMap Word
  /-- the link layers of the peer ports -/
  links : Vector Link 7
  /-- ATS invalidations under way (R358) -/
  atsInvs : List AtsInv
  /-- LGP_INVTLB writes held for them: group, initiator, value (R358) -/
  invHeld : List (Nat × Nat × Word)
  /-- MODEL's own: the answer to the last outside request that has one -/
  answer : Answer
  /-- values of guard registers and LGP_FNCTL before writes younger than 40 ns (R365), the register key as `src` -/
  guardOld : List OldSrc
  /-- fence markers of peers not answered yet (R377) -/
  fncs : List FncWait
  /-- IPIs of peers that wait for earlier writes, in order of arrival (R215) -/
  ringWaits : List RingWait
  /-- DMA writes accepted and not performed yet, in order of arrival (R215) -/
  laneWrites : List LaneWrite
  /-- DMA reads and atomics admitted by their guards and not answered yet (R88, R365) -/
  dmaOut : List DmaOut
  /-- forwarded POSTs arriving in pieces -/
  pfwParts : List PfwPart
  /-- lines of CXL memory whose device does not answer (R354) -/
  cxlLost : List Nat
  /-- page requests in the rings not answered yet (R357) -/
  prq : List PrqEntry
  /-- single increments of the time base still to be doubled, or withheld if negative, after a time exchange (R378) -/
  follow : Int
  /-- the rate that a follower of a peer has found, in parts per billion; it stays when the link goes down (R374, R378) -/
  followRate : Int
  /-- the board's signals and the lands the device drives -/
  pins : Pins
  /-- the flash by byte; erased bytes read 0xFF (R396, R397) -/
  flash : SMap Byte
  /-- bytes of the flash that are used (R396) -/
  flashSize : Nat
  /-- the flash command under way -/
  flashOp : Option FlashOp
  /-- the image sequencer's own settings and the eft -/
  boot : Boot
  /-- steward operations under way, in order of arrival (R421) -/
  unitOps : List UnitOp
  /-- cores that their cluster's fence has fenced (R422) -/
  byCluster : List Nat
  /-- clusters whose clock is stopped (R429) -/
  clkStopped : BitVec 16
  /-- the brumation requested or current -/
  brum : Option Brumation
  /-- detectors, by unit and number, whose injection period has expired (R445) -/
  injDue : List (Nat × Nat)
  /-- when the injection periods end next, by the key of ERRINJ_CTL (R445) -/
  injNext : SMap Nat
  /-- the time an armed snapshot latches at (R439) -/
  snapAt : Option Word
  /-- the time of the last failed unlock (R448) -/
  dbgFailAt : Option Word
  /-- power evaluations in a row below 98% of TDP (R462) -/
  pwrLow : Nat
  /-- clusters that power control has lowered and not raised back to their ceiling (R462) -/
  pwrHeld : BitVec 16
  /-- clusters that the last thermal evaluation lowered (R463) -/
  hot : BitVec 16
  /-- rate correction not yet amounting to an increment, in units of 10^-9 ns (R435) -/
  adjAcc : Int
  /-- time-base clocks until the next single increment may be withheld or doubled (R435) -/
  adjWait : Nat
  /-- the TAP -/
  tap : Tap
  deriving DecidableEq, Repr

/-- The block right after power is applied, held in device reset: registers at the reset values of their headings (R12);
what the manual gives no value for is named in notes/assumptions. DESIGN CHOICE, log entry 3. -/
def State.reset : State where
  pending := []
  inReset := true
  mode := .load
  time := 0
  free := 0
  csr := []
  cores := Vector.replicate 128 CoreState.reset
  socket := 0
  mem := []
  tags := []
  poison := []
  back := []
  dirty := []
  purseDir := []
  purseWrs := []
  purseDone := []
  fences := []
  nextId := 1
  sweep := ⟨[], [], []⟩
  dbCnt := []
  dbDue := []
  dbPriv := []
  dbLine := []
  dbMsgs := []
  dbOld := []
  seq := ⟨1, false, false, 0⟩
  sram := []
  rlines := []
  peerTx := []
  peerOut := []
  blocked := false
  postings := []
  cellLocks := []
  lockWaits := []
  lockRels := []
  staging := []
  jPrev := []
  jMirPend := []
  jSeen := []
  flushes := []
  jDirty := []
  xcache := []
  parts := []
  cmtNotes := []
  jWait := []
  sealed := []
  drained := []
  jParts := []
  l2dir := []
  l2s := []
  dramBad := []
  rdir := []
  snoops := []
  homeReqs := []
  devMem := []
  devPoison := []
  held := []
  layouts := []
  links := Vector.replicate 7 Link.reset
  atsInvs := []
  invHeld := []
  answer := ⟨0, []⟩
  guardOld := []
  fncs := []
  ringWaits := []
  laneWrites := []
  dmaOut := []
  pfwParts := []
  cxlLost := []
  prq := []
  follow := 0
  followRate := 0
  pins := ⟨false, 0, false, false, false, 0, false, 0⟩
  flash := []
  flashSize := 0x4000000
  flashOp := none
  boot := ⟨0, false, [], .no, false, 0, 0, false, [], []⟩
  unitOps := []
  byCluster := []
  clkStopped := 0
  brum := none
  injDue := []
  injNext := []
  snapAt := none
  dbgFailAt := none
  pwrLow := 0
  pwrHeld := 0
  hot := 0
  adjAcc := 0
  adjWait := 0
  tap := ⟨none, 0⟩

end Sys2Proof.Machine
end

