-- ==== Sys2Proof/Machine/Ops.lean ====
section
/-!
DEFINITION. Named operations over State that the meanings share: cores and their registers, control-space registers and
their fields, free values, bytes, tags and poison of memory, the physical address map (R34, R35, R268).
-/
namespace Sys2Proof.Machine

abbrev Res := Host.Outcome State Fault Refusal

/-! Free values -/

/-- DESIGN CHOICE, log entry 7. -/
def State.bumpFree (s : State) : State := { s with free := s.free + 1 }

/-- The units answer nothing while the device is held in device reset (R394). DESIGN CHOICE, log entry 5. -/
def State.alive (s : State) (f : State → State) : Res := .next (if s.inReset then s else f s)

/-- A cache of n entries after a fill: while it holds more, a free choice among the older entries leaves. DESIGN CHOICE, log entry 10. -/
def capTo {α : Type} (n free : Nat) (l : List α) : List α :=
  if l.length ≤ n then l
  else (List.range 4).foldl (fun l i => if l.length ≤ n then l else l.eraseIdx (1 + Config.freeVictim free i % (l.length - 1))) l

/-! Cores -/

def State.core (s : State) (k : CoreId) : CoreState := s.cores[k]
def State.setCore (s : State) (k : CoreId) (c : CoreState) : State := { s with cores := s.cores.set k c }
def State.modCore (s : State) (k : CoreId) (f : CoreState → CoreState) : State := s.setCore k (f (s.core k))

/-- `f` applied to every core in turn. -/
def State.eachCore (s : State) (f : CoreId → CoreState → CoreState) : State :=
  { s with cores := Vector.ofFn fun k => f k s.cores[k] }

/-- A core number from a natural number, modulo 128. -/
def coreOf (n : Nat) : CoreId := ⟨n % 128, Nat.mod_lt _ (by decide)⟩

/-! Control-space registers -/

/-- The value of the control-space register at key `k`. -/
def State.reg (s : State) (k : Nat) : Word := SMap.get ctlReset s.csr k
def State.setReg (s : State) (k : Nat) (v : Word) : State := { s with csr := SMap.set ctlReset s.csr k v }
/-- A field of the control-space register at key `k`. -/
def State.rf (s : State) (k : Nat) (f : Fld) : Nat := getF (s.reg k) f
def State.setRf (s : State) (k : Nat) (f : Fld) (n : Nat) : State := s.setReg k (setF (s.reg k) f n)
/-- A field of a control-space register raised by one, saturating at its largest value. -/
def State.incRf (s : State) (k : Nat) (f : Fld) : State :=
  s.setRf k f (satTo (2 ^ f.width - 1) (s.rf k f + 1))

/-! Core state registers -/

def CoreState.csGet (c : CoreState) (i : Nat) : Word := SMap.get csReset c.cs i
def CoreState.csSet (c : CoreState) (i : Nat) (v : Word) : CoreState := { c with cs := SMap.set csReset c.cs i v }
def CoreState.csF (c : CoreState) (i : Nat) (f : Fld) : Nat := getF (c.csGet i) f
def CoreState.csSetF (c : CoreState) (i : Nat) (f : Fld) (n : Nat) : CoreState := c.csSet i (setF (c.csGet i) f n)
def CoreState.ccGet (c : CoreState) (i : Nat) : Coin := SMap.get (fun _ => Coin.zero) c.ccs i
def CoreState.ccSet (c : CoreState) (i : Nat) (v : Coin) : CoreState :=
  { c with ccs := SMap.set (fun _ => Coin.zero) c.ccs i v }

/-- The current ring (R184). -/
def CoreState.ring (c : CoreState) : Nat := c.csF R.CS_STATUS F.CS_STATUS_RING
/-- The gecko bank is in use (R204). -/
def CoreState.gecko (c : CoreState) : Bool := c.csF R.CS_STATUS F.CS_STATUS_GECKO == 1
/-- The core is in heritage mode. -/
def CoreState.her (c : CoreState) : Bool := c.csF R.CS_STATUS F.CS_STATUS_HER == 1
/-- The current ASID (R50). -/
def CoreState.asid (c : CoreState) : Nat := c.csF R.CS_ASID F.CS_ASID_ASID

/-! Register files. A register in a bank is named by `Dst`, so that a write lands in the bank it was issued for (R197). -/

/-- The general register n of the bank in use (R204). -/
def CoreState.gDst (c : CoreState) (n : Nat) : Dst :=
  if n = 0 then .none else if n ≥ 16 && c.gecko then .gg n else .g n
/-- The coin register n of the bank in use (R204). -/
def CoreState.cDst (c : CoreState) (n : Nat) : Dst := if n ≥ 8 && c.gecko then .gc n else .c n

/-- What a register holds, the load shadow aside. -/
def CoreState.read (c : CoreState) (d : Dst) : DVal :=
  match d with
  | .none => .w 0
  | .g n => .w (if n % 32 = 0 then 0 else c.g[n % 32]'(Nat.mod_lt _ (by decide)))
  | .gg n => .w (c.gg[n % 16]'(Nat.mod_lt _ (by decide)))
  | .c n => .coin (c.c[n % 16]'(Nat.mod_lt _ (by decide)))
  | .gc n => .coin (c.gc[n % 8]'(Nat.mod_lt _ (by decide)))
  | .v n => .vec (c.v[n % 32]'(Nat.mod_lt _ (by decide)))
  | .f n => .w ((c.v[n % 32]'(Nat.mod_lt _ (by decide))).extractLsb' 0 64)
  | .q n => .quad ((c.v[n % 32]'(Nat.mod_lt _ (by decide))).extractLsb' 0 128)
  | .m n => .mask (c.m[n % 8]'(Nat.mod_lt _ (by decide)))
  | .h n => .w ((c.h[n % 16]'(Nat.mod_lt _ (by decide))).zeroExtend 64)

/-- The core with register `d` holding `x`; a write to g0 is discarded (R99). -/
def CoreState.write (c : CoreState) (d : Dst) (x : DVal) : CoreState :=
  match d, x with
  | .g n, .w x => if n % 32 = 0 then c else { c with g := c.g.set (n % 32) x (Nat.mod_lt _ (by decide)) }
  | .gg n, .w x => { c with gg := c.gg.set (n % 16) x (Nat.mod_lt _ (by decide)) }
  | .c n, .coin x => { c with c := c.c.set (n % 16) x (Nat.mod_lt _ (by decide)) }
  | .gc n, .coin x => { c with gc := c.gc.set (n % 8) x (Nat.mod_lt _ (by decide)) }
  | .v n, .vec x => { c with v := c.v.set (n % 32) x (Nat.mod_lt _ (by decide)) }
  | .f n, .w x =>
    let o := c.v[n % 32]'(Nat.mod_lt _ (by decide))
    { c with v := c.v.set (n % 32) (o.extractLsb' 64 4032 ++ x) (Nat.mod_lt _ (by decide)) }
  | .q n, .quad x =>
    let o := c.v[n % 32]'(Nat.mod_lt _ (by decide))
    { c with v := c.v.set (n % 32) (o.extractLsb' 128 3968 ++ x) (Nat.mod_lt _ (by decide)) }
  | .m n, .mask x => { c with m := c.m.set (n % 8) x (Nat.mod_lt _ (by decide)) }
  | .h n, .w x => { c with h := c.h.set (n % 16) (x.extractLsb' 0 16) (Nat.mod_lt _ (by decide)) }
  | _, _ => c

def DVal.word : DVal → Word
  | .w x => x
  | _ => 0
def DVal.coinOf : DVal → Coin
  | .coin x => x
  | _ => Coin.zero
def DVal.vecOf : DVal → BitVec 4096
  | .vec x => x
  | _ => 0
def DVal.maskOf : DVal → BitVec 512
  | .mask x => x
  | _ => 0

/-- What the instruction executing now reads in register `d`: the old value in the shadow of a load of `d` (R115). -/
def CoreState.look (c : CoreState) (d : Dst) : DVal :=
  match c.shadow with
  | some sh => if sh.dst = d.base then sh.old else c.read d
  | none => c.read d

/-- General register n as an operand (R99, R115). -/
def CoreState.gR (c : CoreState) (n : Nat) : Word := (c.look (c.gDst n)).word
/-- Coin register n as an operand. -/
def CoreState.cR (c : CoreState) (n : Nat) : Coin := (c.look (c.cDst n)).coinOf
/-- Vector register n as an operand. -/
def CoreState.vR (c : CoreState) (n : Nat) : BitVec 4096 := (c.look (.v n)).vecOf
/-- Mask register n. -/
def CoreState.mR (c : CoreState) (n : Nat) : BitVec 512 := (c.look (.m n)).maskOf
/-- f register n: bits [63:0] of v n (R98). -/
def CoreState.fR (c : CoreState) (n : Nat) : Word := (c.vR n).extractLsb' 0 64
/-- q register n: bits [127:0] of v n (R98). -/
def CoreState.qR (c : CoreState) (n : Nat) : BitVec 128 := (c.vR n).extractLsb' 0 128

/-- h register n (R384). -/
def CoreState.hR (c : CoreState) (n : Nat) : Nat := (c.look (.h n)).word.toNat % 2 ^ 16

def CoreState.setH (c : CoreState) (n x : Nat) : CoreState := c.write (.h n) (.w (BitVec.ofNat 64 x))
def CoreState.setG (c : CoreState) (n : Nat) (x : Word) : CoreState := c.write (c.gDst n) (.w x)
def CoreState.setC (c : CoreState) (n : Nat) (x : Coin) : CoreState := c.write (c.cDst n) (.coin x)
def CoreState.setV (c : CoreState) (n : Nat) (x : BitVec 4096) : CoreState := c.write (.v n) (.vec x)
def CoreState.setFp (c : CoreState) (n : Nat) (x : Word) : CoreState := c.write (.f n) (.w x)
def CoreState.setQ (c : CoreState) (n : Nat) (x : BitVec 128) : CoreState := c.write (.q n) (.quad x)
def CoreState.setM (c : CoreState) (n : Nat) (x : BitVec 512) : CoreState := c.write (.m n) (.mask x)

/-! Bytes, tags and poison of local memory -/

/-- DESIGN CHOICE, log entry 37. -/
def zeroByte (_ : Nat) : Byte := 0
def noFlag (_ : Nat) : Bool := false

/-- The coherent byte at local address `a`. DESIGN CHOICE, log entry 36. DESIGN CHOICE, log entry 37. -/
def State.memB (s : State) (a : Nat) : Byte := SMap.get zeroByte s.mem a
def State.setMemB (s : State) (a : Nat) (b : Byte) : State := { s with mem := SMap.set zeroByte s.mem a b }

/-- `n` bytes from local address `a` upward. -/
def State.readBytes (s : State) (a : Nat) : Nat → List Byte
  | 0 => []
  | n + 1 => s.memB a :: s.readBytes (a + 1) n
/-- The bytes `bs` written from local address `a` upward. -/
def State.putBytes (s : State) (a : Nat) : List Byte → State
  | [] => s
  | b :: bs => (s.setMemB a b).putBytes (a + 1) bs

/-- The little-endian value of `n` bytes at `a` (R4). -/
def State.readNat (s : State) (a n : Nat) : Nat := bytesNat (s.readBytes a n)

def State.tagAt (s : State) (a : Nat) : Bool := SMap.get noFlag s.tags (a / 16)
def State.setTag (s : State) (a : Nat) (t : Bool) : State := { s with tags := SMap.set noFlag s.tags (a / 16) t }
def State.poisoned (s : State) (a : Nat) : Bool := SMap.get noFlag s.poison (a / 64)
def State.setPoison (s : State) (a : Nat) (p : Bool) : State := { s with poison := SMap.set noFlag s.poison (a / 64) p }

/-- The granule addresses that bytes [a, a + n) touch. -/
def granules (a n : Nat) : List Nat :=
  if n = 0 then [] else (List.range ((a + n - 1) / 16 - a / 16 + 1)).map fun i => (a / 16 + i) * 16
/-- The line addresses that bytes [a, a + n) touch. -/
def linesOf (a n : Nat) : List Nat :=
  if n = 0 then [] else (List.range ((a + n - 1) / 64 - a / 64 + 1)).map fun i => (a / 64 + i) * 64

/-- The tags of every granule touched set to `t` (R57). -/
def State.setTags (s : State) (a n : Nat) (t : Bool) : State := (granules a n).foldl (fun s g => s.setTag g t) s
/-- Any line touched is poisoned (R282). -/
def State.anyPoison (s : State) (a n : Nat) : Bool := (linesOf a n).any s.poisoned

/-- The device bytes of a line, as last written back. DESIGN CHOICE, log entry 36. -/
def State.backB (s : State) (a : Nat) : Byte := SMap.get zeroByte s.back a
def State.isDirty (s : State) (a : Nat) : Bool := SMap.get noFlag s.dirty (a / 64)
def State.setDirty (s : State) (a : Nat) (d : Bool) : State := { s with dirty := SMap.set noFlag s.dirty (a / 64) d }

/-- Bytes [a, a + n) of the devices made equal to the coherent bytes. -/
def State.copyBack (s : State) (a : Nat) : Nat → State
  | 0 => s
  | n + 1 => ({ s with back := SMap.set zeroByte s.back a (s.memB a) } : State).copyBack (a + 1) n
/-- The line of `a` written back to its device (R128). DESIGN CHOICE, log entry 36. -/
def State.writeBack (s : State) (a : Nat) : State :=
  let s := (s.copyBack (a / 64 * 64) 64).setDirty a false
  { s with dramBad := s.dramBad.filter (· != a / 64 * 64) }

/-- Every line touched by [a, a + n) marked as newer in a cache. DESIGN CHOICE, log entry 36. -/
def State.markDirty (s : State) (a n : Nat) : State := (linesOf a n).foldl (fun s l => s.setDirty l true) s

/-! Waiting -/

/-- Some line of local bytes [a, a + n) is locked by a posting (R305). -/
def State.lineLocked (s : State) (a n : Nat) : Bool := (linesOf a n).any fun l => s.cellLocks.any (·.line == l)
def noHolders (_ : Nat) : Holders := ⟨0, false⟩
/-- The peer ports that hold the line of local address `a` (R376). -/
def State.peersOf (s : State) (a : Nat) : Holders := SMap.get noHolders s.rdir (a / 64)
def State.setPeers (s : State) (a : Nat) (h : Holders) : State := { s with rdir := SMap.set noHolders s.rdir (a / 64) h }
/-- The clusters that hold the line of local address `a` in an L2 (R280). -/
def State.clustersOf (s : State) (a : Nat) : Holders := SMap.get noHolders s.l2dir (a / 64)
def noCores (_ : Nat) : BitVec 128 := 0
/-- The L2s, by core, that hold the line of physical address `pa`: the snoop filters of the clusters (R280). For a line of a peer's memory
they count while it is held. -/
def State.l2sOf (s : State) (pa : Nat) : BitVec 128 := SMap.get noCores s.l2s (pa / 64)
def State.setL2s (s : State) (pa : Nat) (h : BitVec 128) : State := { s with l2s := SMap.set noCores s.l2s (pa / 64) h }
/-- The cores of the clusters of `who`. -/
def coresOf (who : BitVec 16) : BitVec 128 :=
  BitVec.ofNat 128 ((List.range 16).foldl (fun n i => n + b2n (bitB who i) * 255 * 2 ^ (8 * i)) 0)
/-- The clusters that hold local line a changed; the filter of a cluster that lost it follows. -/
def State.setClusters (s : State) (a : Nat) (h : Holders) : State :=
  { s with l2dir := SMap.set noHolders s.l2dir (a / 64) h, l2s := SMap.set noCores s.l2s (a / 64) (s.l2sOf a &&& coresOf h.who) }
/-- The holder numbers of an entry. -/
def Holders.list (h : Holders) : List Nat := (List.range 16).filter fun i => bitB h.who i
/-- Holder i added, exclusive or shared. -/
def Holders.grant (h : Holders) (i : Nat) (excl : Bool) : Holders :=
  if excl then ⟨BitVec.ofNat 16 (2 ^ i), true⟩ else ⟨h.who ||| BitVec.ofNat 16 (2 ^ i), false⟩
/-- Cluster i reads the line into an L2, or writes it there; an owner that reads stays the owner. -/
def Holders.touch (h : Holders) (i : Nat) (excl : Bool) : Holders := if !excl && h.excl && bitB h.who i then h else h.grant i excl
/-- The computation under way cannot complete now. -/
def State.block (s : State) : State := { s with blocked := true }
def State.blockIf (s : State) (b : Bool) : State := if b then s.block else s
/-- What an event that had to wait leaves: the state before it. DEDUCED, log entry 8. -/
def State.orWait (s s' : State) : State := if s'.blocked then s else s'
def State.unblock (s : State) : State := { s with blocked := false }

/-! The physical address map -/

/-- Where a physical access goes (R34, R35, R268). -/
inductive Target where
  /-- local memory: the local address, its home slice, and the CXL region or none for DDR -/
  | local (a : Nat) (home : Nat) (region : Option Nat)
  /-- a peer's memory: socket and its local address -/
  | window (socket : Nat) (a : Nat)
  | bar (a : Nat)
  | control (key : Nat)
  | none
  deriving DecidableEq, Repr

/-- R268: the interleave granule in bytes. -/
def State.gran (s : State) : Nat :=
  match s.rf (R.VLT_ILV 0x100) F.VLT_ILV_GRAN with
  | 0 => 256 | 1 => 4096 | 2 => 65536 | _ => 2097152
/-- DDRTOP of R267. -/
def State.ddrTop (s : State) : Nat := s.rf (R.VLT_ILV 0x100) F.VLT_ILV_DDRTOP * 2 ^ 28

/-- R268: the home slice index of local address `a` for granule `g`. -/
def homeOf (g a : Nat) : Nat := ((a / g) % 16) ^^^ ((a / g / 16) % 16)
def State.home (s : State) (a : Nat) : Nat := homeOf s.gran a

/-! The directory of a home slice (R280) -/

/-- The entries `d` of a directory of the given number of sets of 16 ways, at the home slice of line l, in the set of l, where they fill it. -/
def State.fullSet (s : State) (d : SMap Holders) (sets l : Nat) : List Nat :=
  if d.length < 16 then []
  else
    let es := (d.map fun e => e.1 * 64).filter fun x =>
      s.home x == s.home l && Config.dirSet sets (x / 64) % sets == Config.dirSet sets (l / 64) % sets
    if es.length < 16 then [] else es

/-- Room for an entry of line l among the 262,144 in 16 ways: a full set gives up one entry, which is free, and every cluster it names
loses its line; modified data is received (R280). -/
def State.dirRoom (s : State) (l : Nat) : State :=
  if (s.clustersOf l).who != 0 then s
  else
    let es := s.fullSet s.l2dir 16384 l
    match es[Config.freeVictim s.free l % es.length]? with
    | some x => s.setClusters x ⟨0, false⟩
    | none => s

/-- Core k's L2 has the line of physical address `pa`, alone in the socket after a write. -/
def State.joinL2 (s : State) (k : CoreId) (pa : Nat) (excl : Bool) : State :=
  s.setL2s pa (BitVec.ofNat 128 (2 ^ k.val) ||| if excl then 0 else s.l2sOf pa)

/-- The lines of local bytes [a, a + n) enter the L2 of core k (R280). -/
def State.enterL2 (s : State) (k : CoreId) (a n : Nat) (excl : Bool) : State :=
  (linesOf a n).foldl (fun s l =>
    let s := s.dirRoom l
    (s.setClusters l ((s.clustersOf l).touch (k.val / 8) excl)).joinL2 k l excl) s
/-- R268: the channel address of DDR address `a` for granule `g`. -/
def chanAddr (g a : Nat) : Nat := (a / g / 16) * g + a % g

/-- FRONTIER of channel `n` as a channel address; the whole channel once DONE (R273). DESIGN CHOICE, log entry 37. -/
def State.frontier (s : State) (n : Nat) : Nat :=
  if s.rf (R.MEM_INIT (0x110 + n)) F.MEM_INIT_DONE = 1 then 2 ^ 48
  else s.rf (R.MEM_INIT (0x110 + n)) F.MEM_INIT_FRONTIER * 4096
/-- Channel `n` is READY (R268). -/
def State.chanReady (s : State) (n : Nat) : Bool := s.rf (R.MEM_CFG (0x110 + n)) F.MEM_CFG_STATE == 3

/-- The region of local address `a` in slice `u`'s registers: enabled, covering a (R270). -/
def State.cxlRegionAt (s : State) (u a : Nat) : Option Nat :=
  (List.range 16).find? fun r =>
    let k := R.VLT_CXLR u r
    let base := s.rf k F.VLT_CXLR_BASE * 2 ^ 30
    s.rf k F.VLT_CXLR_EN == 1 && s.rf k F.VLT_CXLR_READY == 1 && base ≤ a &&
      a < base + s.rf k F.VLT_CXLR_SIZE * 2 ^ 30

/-- MGMT_USTAT.STATE of a unit as stored: 0 ACTIVE … 7 HANDEDOVER. -/
def State.unitState (s : State) (u : Nat) : Nat := s.rf (R.MGMT_USTAT u) F.MGMT_USTAT_STATE

/-- R268 and R271: the home and region of local address `a`, or none; a line homed at a fenced slice (R422), or whose device does
not answer (R354), has no target. -/
def State.decodeLocal (s : State) (a : Nat) : Option (Nat × Option Nat) :=
  let h := s.home a
  if s.unitState (0x100 + h) = 2 then none
  else if a < s.ddrTop then
    if chanAddr s.gran a < s.frontier h && s.chanReady h then some (h, none) else none
  else
    match s.cxlRegionAt 0x100 a with
    | none => none
    | some r =>
      if (s.cxlRegionAt (0x100 + h) a).isSome && !s.cxlLost.contains (a / 64 * 64) then some (h, some r) else none

/-- The target of physical address `pa` (R34, R35). -/
def State.target (s : State) (pa : Nat) : Target :=
  let loc (a : Nat) : Target :=
    match s.decodeLocal a with
    | some (h, r) => .local a h r
    | none => .none
  if pa < 0x100000000000 then loc pa
  else if pa < 0x900000000000 then
    let so := pa / 0x100000000000 - 1
    if so = s.socket.toNat then loc (pa % 0x100000000000) else .window so (pa % 0x100000000000)
  else if pa < 0xF00000000000 then .bar pa
  else if pa < 0xFF0000000000 then .none
  else if pa < 0x1000000000000 then .control (pa - 0xFF0000000000)
  else .none

/-- The local address that `pa` names, if it names local memory (R35). -/
def State.localOf (s : State) (pa : Nat) : Option Nat :=
  match s.target pa with
  | .local a _ _ => some a
  | _ => none

/-! Units -/

/-- The unit serves requests: neither FENCED, OFFLINE, RETIRED nor STOPPED. -/
def State.unitUp (s : State) (u : Nat) : Bool :=
  let x := s.unitState u
  x == 0 || x == 6 || x == 7 || x == 1
/-- The clock of cluster n is stopped (R429). -/
def State.clockStopped (s : State) (n : Nat) : Bool := bitB s.clkStopped (n % 16)
/-- Core `k` is in service: neither it nor its cluster is fenced or being fenced, and its clock runs. -/
def State.coreServes (s : State) (k : Nat) : Bool :=
  s.unitState k == 0 && s.unitState (0x80 + k / 8) == 0 && !s.clockStopped (k / 8)
/-- Core `k` is fenced, offline or STOPPED (R217). -/
def State.coreOut (s : State) (k : Nat) : Bool :=
  !s.unitUp k || (s.core (coreOf k)).run == .stopped

/-! The physical address of local memory -/

/-- An access through the socket's own window is an access to the local address (R35). -/
def State.canon (s : State) (pa : Nat) : Nat := if pa / 0x100000000000 = s.socket.toNat + 1 then pa % 0x100000000000 else pa

/-- [a, a + n) and [b, b + m) share a byte. -/
def overlaps (a n b m : Nat) : Bool := a < b + m && b < a + n && n != 0 && m != 0

/-- Two physical ranges share a byte (R35). -/
def State.sharesByte (s : State) (a n b m : Nat) : Bool := overlaps (s.canon a) n (s.canon b) m

/-! Purse table geometry (R43) -/

def State.ptbSize (s : State) : Nat := s.rf (R.VLT_PTBASE 0x100) F.VLT_PTBASE_PTB_SIZE
def State.ptbOk (s : State) : Bool := 10 ≤ s.ptbSize && s.ptbSize ≤ 30
/-- Number of entries; 0 when the socket has no purse table. -/
def State.ptbCount (s : State) : Nat := if s.ptbOk then 2 ^ s.ptbSize else 0
/-- R73: address bits below PTB_SIZE + 5 are taken as zero. -/
def State.ptbBase (s : State) : Nat :=
  s.rf (R.VLT_PTBASE 0x100) F.VLT_PTBASE_PTB_BASE * 4096 / 2 ^ (s.ptbSize + 5) * 2 ^ (s.ptbSize + 5)
/-- R43: the physical address of entry i. -/
def State.entryAddr (s : State) (i : Nat) : Nat := s.ptbBase + 32 * i
/-- Indices of the purse entries that local bytes [a, a + n) touch. -/
def State.entriesIn (s : State) (a n : Nat) : List Nat :=
  let b := s.ptbBase
  let e := b + 32 * s.ptbCount
  if n = 0 || e ≤ a || a + n ≤ b then []
  else
    let lo := (max a b - b) / 32
    let hi := (min (a + n) e - 1 - b) / 32
    (List.range (hi - lo + 1)).map (lo + ·)

/-! What a line waits for (R263) -/

/-- A purse write on the line of `l` has not completed (R70). -/
def State.purseBusy (s : State) (l : Nat) : Bool :=
  s.purseWrs.any fun w => w.idxs.any fun i => s.entryAddr i / 64 == l / 64
/-- The home slice holds the line of `l` for a pop or a push, until its purse write has completed (R77). -/
def State.headHeld (s : State) (l : Nat) : Bool := s.purseWrs.any fun w => w.head == some (l / 64 * 64)
/-- A request waits at its home slice for the line of `l`; a later one does not overtake it (R263). -/
def State.lineQueued (s : State) (l : Nat) : Bool := s.homeReqs.any fun r => r.line == l / 64 * 64
/-- A read of local bytes [a, a + n) waits: a line is locked, a peer owns it, requests wait for it, or it holds a head word in use. -/
def State.readHeld (s : State) (a n : Nat) : Bool :=
  s.lineLocked a n || (linesOf a n).any fun l => (s.peersOf l).excl || s.lineQueued l || s.headHeld l
/-- A write waits: a line is locked, a peer holds it, or requests wait for it. -/
def State.lineHeld (s : State) (a n : Nat) : Bool :=
  s.lineLocked a n || (linesOf a n).any fun l => (s.peersOf l).who != 0 || s.lineQueued l
/-- A write waits: as above, for a purse write on the line that has not completed, or for a head word in use. -/
def State.writeHeld (s : State) (a n : Nat) : Bool :=
  s.lineHeld a n || (linesOf a n).any fun l => s.purseBusy l || s.headHeld l

end Sys2Proof.Machine
end

