-- ==== Sys2Proof/Machine/Hub.lean ====
section
/-!
DEFINITION. The doorbell hub (R212–R234): source state and coalescing, lines and delivery messages, claim and done,
masking with its 48 ns window, timers, inter-processor doorbells and write notices as doorbells.
-/
namespace Sys2Proof.Machine

/-! Source state -/

def zeroNat (_ : Nat) : Nat := 0

def State.dbCntOf (s : State) (x : Nat) : Nat := SMap.get zeroNat s.dbCnt x
def State.setDbCnt (s : State) (x n : Nat) : State := { s with dbCnt := SMap.set zeroNat s.dbCnt x n }
def State.dbDueOf (s : State) (x : Nat) : Nat := SMap.get zeroNat s.dbDue x
def State.setDbDue (s : State) (x n : Nat) : State := { s with dbDue := SMap.set zeroNat s.dbDue x n }

/-- Private source k of core c: bit 0 P, bit 1 A, bit 2 L. -/
def State.privOf (s : State) (c k : Nat) : Nat := SMap.get zeroNat s.dbPriv (c * 64 + k)
def State.setPriv (s : State) (c k v : Nat) : State := { s with dbPriv := SMap.set zeroNat s.dbPriv (c * 64 + k) v }

def privP (v : Nat) : Bool := v % 2 == 1
def privA (v : Nat) : Bool := v / 2 % 2 == 1
def privL (v : Nat) : Bool := v / 4 % 2 == 1
def mkPriv (p a l : Bool) : Nat := b2n p + 2 * b2n a + 4 * b2n l

/-- Mask and class of private source k of core c, from the core's window. -/
def State.privMask (s : State) (c k : Nat) : Bool := bitB (s.reg (R.DBH_PCFG c)) k
def State.privGecko (s : State) (c k : Nat) : Bool := bitB (s.reg (R.DBH_PCLASS c)) k

/-- R213: the private sources the hub never sets pending. -/
def privReserved (k : Nat) : Bool := (3 ≤ k && k ≤ 7) || (0x18 ≤ k && k ≤ 0x1F) || (0x29 ≤ k)

/-- The shared sources with P = 1, ascending: an unlisted DBH_SRC has P = 0. -/
def State.sharedPending (s : State) : List Nat :=
  s.csr.filterMap fun (key, v) =>
    if R.DBH_SRC 0 ≤ key && key < R.DBH_SRC 65536 && getF v F.DBH_SRC_P == 1 then some ((key - R.DBH_SRC 0) / 8) else none

/-- The private sources of core c with P = 1, ascending. -/
def State.privPending (s : State) (c : Nat) : List Nat :=
  s.dbPriv.filterMap fun (key, v) => if key / 64 == c && privP v then some (key % 64) else none

/-! Lines -/

/-- The setting of hub item `src` that launches still go by: the oldest one younger than 48 ns, or none (R222). DEDUCED, log entry 12. -/
def State.oldSetting (s : State) (src : Nat) : Option Word := (s.dbOld.find? fun o => o.src == src && s.time.toNat < o.deadline).map (·.old)

/-- MASK, TARGET and GECKO of shared source x as launches go by them (R222). -/
def State.launchSrc (s : State) (x : Nat) : Word := (s.oldSetting x).getD (s.reg (R.DBH_SRC x))

/-- Mask and class of private source k of core c as launches go by them (R222). -/
def State.launchMask (s : State) (c k : Nat) : Bool := match s.oldSetting (0x10000 + c * 64 + k) with | some o => bitB o 0 | none => s.privMask c k
def State.launchGecko (s : State) (c k : Nat) : Bool := match s.oldSetting (0x10000 + c * 64 + k) with | some o => bitB o 1 | none => s.privGecko c k

/-- DBH_HOLD of a class as launches go by it (R222). -/
def State.launchHold (s : State) (gecko : Bool) : Bool :=
  match s.oldSetting (0x20000 + b2n gecko) with
  | some o => bitB o 0
  | none => s.rf R.DBH_HOLD (if gecko then F.DBH_HOLD_GECKO else F.DBH_HOLD_NORMAL) == 1

/-- R217: deliveries of a class to a core are blocked. -/
def State.lineBlocked (s : State) (c : Nat) (gecko : Bool) : Bool :=
  s.launchHold gecko || s.coreOut c || s.mode == .brumation || s.mode == .drain || s.mode == .load

def lineKey (c : Nat) (gecko : Bool) : Nat := c * 2 + b2n gecko

/-- R217: the line that shared source x is deliverable on, as a line key. -/
def State.sharedWant (s : State) (x : Nat) : Option Nat :=
  let w := s.launchSrc x
  if s.rf (R.DBH_SRC x) F.DBH_SRC_A == 0 && getF w F.DBH_SRC_MASK == 0 then
    some (lineKey (getF w F.DBH_SRC_TARGET) (getF w F.DBH_SRC_GECKO == 1)) else none

/-- R217: the line that private source k of core c, in state v, is deliverable on. -/
def State.privWant (s : State) (c k v : Nat) : Option Nat :=
  if privP v && !privA v && !s.launchMask c k then some (lineKey c (s.launchGecko c k)) else none

/-- R217: the lines that some deliverable source calls for, as line keys. -/
def State.lineWants (s : State) : List Nat :=
  s.sharedPending.filterMap s.sharedWant ++ s.dbPriv.filterMap fun (key, v) => s.privWant (key / 64) (key % 64) v

/-- R217: every source deliverable on an asserted line is marked launched to its core. One already launched keeps its LCORE until it is
claimed (R222). -/
def State.markLaunched (s : State) (on : List Nat) : State :=
  let s := s.sharedPending.foldl (fun s x =>
    let v := s.reg (R.DBH_SRC x)
    match s.sharedWant x with
    | some lk => if on.contains lk && getF v F.DBH_SRC_L == 0 then
        s.setReg (R.DBH_SRC x) (setF (setF v F.DBH_SRC_L 1) F.DBH_SRC_LCORE (lk / 2)) else s
    | none => s) s
  s.dbPriv.foldl (fun s (key, v) =>
    match s.privWant (key / 64) (key % 64) v with
    | some lk => if on.contains lk then s.setPriv (key / 64) (key % 64) (mkPriv true false true) else s
    | none => s) s

/-- R217, R223: the lines recomputed; every change is sent as a delivery message, in ascending core number with gecko
before normal. -/
def State.relines (s : State) : State :=
  let on := s.lineWants.filter fun lk => !s.lineBlocked (lk / 2) (lk % 2 == 1)
  let s := (List.range 128).foldl (fun s c =>
    [true, false].foldl (fun s gecko =>
      let lk := lineKey c gecko
      let now := SMap.get noFlag s.dbLine lk
      let want := on.contains lk
      if now = want then s
      else { s with dbLine := SMap.set noFlag s.dbLine lk want, dbMsgs := s.dbMsgs ++ [⟨c, gecko, want⟩] }) s) s
  s.markLaunched on

/-- The mode with its consequences for the hub's lines (R28, R217). -/
def State.setMode (s : State) (m : Mode) : State := ({ s with mode := m } : State).relines

/-- A unit fenced moves RUN to DEGRADED (R29). -/
def State.degrade (s : State) : State := if s.mode = .run then s.setMode .degraded else s

/-! Firing -/

/-- fire(s) of R216 for a shared source. -/
def State.fireShared (s : State) (x : Nat) : State :=
  let x := x % 65536
  let s := (s.setRf (R.DBH_SRC x) F.DBH_SRC_P 1).setDbCnt x 0
  let s := if s.coreOut (s.rf (R.DBH_SRC x) F.DBH_SRC_TARGET) then s.incRf R.DBH_STAT F.DBH_STAT_HELDTGT else s
  s.relines

/-- fire(s) of R216 for private source k of core c; reserved sources are never set pending (R213). -/
def State.firePriv (s : State) (c k : Nat) : State :=
  if privReserved k then s
  else
    let v := s.privOf c k
    let s := s.setPriv c k (mkPriv true (privA v) (privL v))
    let s := if s.coreOut c then s.incRf R.DBH_STAT F.DBH_STAT_HELDTGT else s
    s.relines

/-- The first tick at or after `t` (R216). -/
def tickAt (t : Nat) : Nat := (t + 31) / 32 * 32

/-- The last of the EVENT codes from 0x10 up that R437 gives unit u; 0x0F for none. -/
def lastEvent (u : Nat) : Nat :=
  if u < 0x80 then 0x17 else if u < 0x90 then 0x12 else if u < 0x110 then 0x16 else if u < 0x120 then 0x14 else if u < 0x137 then 0x13
  else if u = 0x140 ∨ u = 0x142 then 0x11 else 0x0F

/-- EVENT code ev is listed for counter n of unit u (R437). Counters 12–15 of a cluster, home slice, memory controller or lane group
count its mesh stop. The codes of all units are those of a mesh stop too: DEDUCED, log entry 67. -/
def evListed (u n ev : Nat) : Bool :=
  ev == 1 || ev == 2 ||
    (if 12 ≤ n ∧ 0x80 ≤ u ∧ u < 0x130 then decide (0x20 ≤ ev ∧ ev ≤ 0x27) else decide (0x10 ≤ ev ∧ ev ≤ lastEvent u))

/-- The counters of unit u that select event ev, as control-space keys of their TEL_EVSEL (R437). -/
def State.countersOf (s : State) (u ev : Nat) : List Nat :=
  s.csr.filterMap fun (key, v) =>
    if R.TEL_EVSEL u 0 ≤ key && key < R.TEL_EVSEL u 16 && (key - R.TEL_EVSEL u 0) % 32 == 0 && evListed u ((key - R.TEL_EVSEL u 0) / 32) ev &&
        getF v F.TEL_EVSEL_EVENT == ev
    then some key else none

/-- A wrap of counter k of unit u: TEL_OVF, and with OVFINT CTROVF of a core (R438). The shared source that another unit rings is
the caller's. -/
def State.wrapped (s : State) (u k : Nat) : State :=
  let s := s.setReg (R.TEL_OVF u) (s.reg (R.TEL_OVF u) ||| BitVec.ofNat 64 (2 ^ k))
  if u < 0x80 && s.rf (R.TEL_EVSEL u k) F.TEL_EVSEL_OVFINT == 1 then s.firePriv u 2 else s

/-- `n` events counted at the counter whose TEL_EVSEL has key `key`, of unit u. -/
def State.countOne (s : State) (u key n : Nat) : State :=
  let c := key + 8
  let x := s.rf c F.TEL_CTR_COUNT + n
  let s := s.setReg c (BitVec.ofNat 64 (x % 2 ^ 48))
  if x ≥ 2 ^ 48 then s.wrapped u ((key - R.TEL_EVSEL u 0) / 32) else s

/-- `n` events `ev` at unit u counted; the result also says how many wraps ring TEL_OVFSRC. -/
def State.countAll (s : State) (u ev n : Nat) : State × Nat :=
  (s.countersOf u ev).foldl (fun (r : State × Nat) key =>
    let w := r.1.rf (key + 8) F.TEL_CTR_COUNT + n ≥ 2 ^ 48 && u ≥ 0x80 && r.1.rf key F.TEL_EVSEL_OVFINT == 1
    (r.1.countOne u key n, r.2 + b2n w)) (s, 0)

/-- ring(s) of R216. -/
def State.ringBare (s : State) (x : Nat) : State :=
  let x := x % 65536
  let n := satTo 255 (s.dbCntOf x + 1)
  let s := s.setDbCnt x n
  let now := s.time.toNat
  let tm := s.rf (R.DBH_SRC x) F.DBH_SRC_TIME
  let s := if n = 1 then s.setDbDue x (if tm = 0 then now else tickAt (now + tm * 32)) else s
  if n ≥ max (s.rf (R.DBH_SRC x) F.DBH_SRC_COUNT) 1 ∨ now ≥ s.dbDueOf x then s.fireShared x else s

/-- Wrap rings of TEL_OVFSRC, each itself a ring that the hub counts; `fuel` covers a wrap of every hub counter. -/
def State.wrapRings (s : State) : Nat → Nat → State
  | 0, _ => s
  | fuel + 1, n =>
    let x := s.rf R.TEL_OVFSRC F.TEL_OVFSRC_SOURCE
    if n = 0 ∨ x = 0xFFFF then s
    else
      let (s, m) := (s.ringBare x).countAll 0x140 0x10 1
      s.wrapRings fuel (n - 1 + m)

/-- `n` events `ev` at unit u counted by its telemetry counters (R437, R438). DEDUCED, log entry 67. -/
def State.count (s : State) (u ev n : Nat) : State :=
  let (s, m) := s.countAll u ev n
  s.wrapRings 64 m

/-- A ring accepted by the hub. DEDUCED, log entry 67. -/
def State.ring (s : State) (x : Nat) : State := (s.ringBare x).count 0x140 0x10 1

/-- A unit's internal ring of its doorbell field; 0xFFFF names none (R214). -/
def State.ringSrc (s : State) (x : Nat) : State := if x = 0xFFFF then s else s.ring x

/-- A DBH_RING write (R214). -/
def State.dbRingWrite (s : State) (v : Nat) : State :=
  if v / 65536 % 65536 = 0 then s.ring v else s.incRf R.DBH_STAT F.DBH_STAT_BADRING

/-- A tick at which source x is past its due time (R216). -/
def State.dbTick (s : State) (x : Nat) : State :=
  if s.dbCntOf x ≥ 1 ∧ s.time.toNat / 32 * 32 ≥ s.dbDueOf x then s.fireShared x else s

/-- Item `src` is governed by its new settings alone (R222). -/
def State.dropOld (s : State) (src : Nat) : State := { s with dbOld := s.dbOld.filter fun o => o.src != src }

/-- A DBH_UNPEND write: P, L and cnt cleared, A unchanged. -/
def State.dbUnpend (s : State) (x : Nat) : State :=
  let x := x % 65536
  let v := s.reg (R.DBH_SRC x)
  (((s.setReg (R.DBH_SRC x) (setF (setF v F.DBH_SRC_P 0) F.DBH_SRC_L 0)).setDbCnt x 0).dropOld x).relines

/-- A DBH_PPEND write: each 1 fires its private source, reserved ones ignored (R213). -/
def State.dbPpend (s : State) (c : Nat) (v : Word) : State :=
  (List.range 64).foldl (fun s k => if bitB v k then s.firePriv c k else s) s

/-! Claim and done -/

/-- The lowest-numbered claimable source of a class for core c, shared before private (R218). -/
def State.claimable (s : State) (c : Nat) (gecko : Bool) : Option Nat :=
  let sh := s.sharedPending.find? fun x =>
    let v := s.reg (R.DBH_SRC x)
    getF v F.DBH_SRC_A == 0 && (getF v F.DBH_SRC_GECKO == 1) == gecko &&
      ((getF v F.DBH_SRC_MASK == 0 && getF v F.DBH_SRC_TARGET == c) || (getF v F.DBH_SRC_L == 1 && getF v F.DBH_SRC_LCORE == c))
  match sh with
  | some x => some x
  | none =>
    ((s.privPending c).find? fun k =>
      let v := s.privOf c k
      !privA v && s.privGecko c k == gecko && (!s.privMask c k || privL v)).map (0x10000 + ·)

/-- The source that claim(c, classes) of R218 returns. -/
def State.claimPeek (s : State) (c : Nat) (classes : List Bool) : Option Nat := classes.findSome? (s.claimable c)

/-- Source x taken active by core c (R218); the claim of a launched source ends its older settings (R222). -/
def State.take (s : State) (c x : Nat) : State :=
  if x < 0x10000 then
    let v := s.reg (R.DBH_SRC x)
    let s := if getF v F.DBH_SRC_L = 1 then s.dropOld x else s
    s.setReg (R.DBH_SRC x) (setF (setF (setF (setF v F.DBH_SRC_P 0) F.DBH_SRC_A 1) F.DBH_SRC_L 0) F.DBH_SRC_LCORE c)
  else
    let k := x - 0x10000
    let s := if privL (s.privOf c k) then s.dropOld (0x10000 + c * 64 + k) else s
    s.setPriv c k (mkPriv false true false)

/-- The first queued line change for core c applied at the core (R217); an asserted line completes WAIT (R229). -/
def State.lineArrive (s : State) (k : CoreId) : State :=
  match s.dbMsgs.find? (fun m => m.core == k.val) with
  | none => s
  | some m =>
    let s := { s with dbMsgs := s.dbMsgs.erase m }
    s.modCore k fun c =>
      let c := if m.gecko then { c with lineG := m.level } else { c with lineN := m.level }
      if m.level && c.run == .waiting then { c with run := .running } else c

/-- Every line change queued for core k applied (R219). -/
def State.linesArrive (s : State) (k : CoreId) : State :=
  (s.dbMsgs.filter (fun m => m.core == k.val)).foldl (fun s _ => s.lineArrive k) s

/-- claim(c, classes): the claim and the line changes it causes, applied before the data arrives (R218, R219). -/
def State.claim (s : State) (c : Nat) (classes : List Bool) : Word × State :=
  match s.claimPeek c classes with
  | some x => (BitVec.ofNat 64 x, (((s.take c x).relines).linesArrive (coreOf c)).count 0x140 0x11 1)
  | none => (0xFFFFFFFF, s)

/-- done(c, x) of R220. -/
def State.dbDone (s : State) (c x : Nat) : State :=
  let bad := s.incRf R.DBH_STAT F.DBH_STAT_BADDONE
  if x < 0x10000 then
    let v := s.reg (R.DBH_SRC x)
    if getF v F.DBH_SRC_A = 1 ∧ getF v F.DBH_SRC_LCORE = c then
      (s.setReg (R.DBH_SRC x) (setF v F.DBH_SRC_A 0)).relines
    else bad
  else if x < 0x10040 then
    let v := s.privOf c (x - 0x10000)
    if privA v then (s.setPriv c (x - 0x10000) (mkPriv (privP v) false (privL v))).relines else bad
  else bad

/-! Settings -/

/-- Older settings still in force for launches. DEDUCED, log entry 12. -/
def State.oldKept (s : State) : List OldSrc := s.dbOld.filter fun e => s.time.toNat < e.deadline

/-- A DBH_SRC write: the new TARGET, GECKO, MASK, COUNT and TIME; P, A, L and LCORE kept; a change of the first three
opens the 48 ns window of R222. -/
def State.dbSrcWrite (s : State) (x : Nat) (v : Word) : State :=
  let k := R.DBH_SRC x
  let o := s.reg k
  let n := setF (setF (setF (setF (setF o F.DBH_SRC_TARGET (getF v F.DBH_SRC_TARGET)) F.DBH_SRC_GECKO (getF v F.DBH_SRC_GECKO))
    F.DBH_SRC_MASK (getF v F.DBH_SRC_MASK)) F.DBH_SRC_COUNT (getF v F.DBH_SRC_COUNT)) F.DBH_SRC_TIME (getF v F.DBH_SRC_TIME)
  let changed := getF o F.DBH_SRC_TARGET != getF n F.DBH_SRC_TARGET || getF o F.DBH_SRC_GECKO != getF n F.DBH_SRC_GECKO ||
    getF o F.DBH_SRC_MASK != getF n F.DBH_SRC_MASK
  let s := s.setReg k n
  let s : State := { s with dbOld := s.oldKept ++ if changed then [OldSrc.mk x o (s.time.toNat + 48)] else [] }
  s.relines

/-- A write of DBH_PCFG or DBH_PCLASS of core c (R222): each source whose bit changes keeps its old setting for 48 ns. -/
def State.dbPrivCfg (s : State) (c : Nat) (cls : Bool) (v : Word) : State :=
  let o := s.reg (if cls then R.DBH_PCLASS c else R.DBH_PCFG c)
  let ch := (List.range 64).filter fun k => bitB o k != bitB v k
  let olds := ch.map fun k => OldSrc.mk (0x10000 + c * 64 + k) (BitVec.ofNat 64 (b2n (s.privMask c k) + 2 * b2n (s.privGecko c k))) (s.time.toNat + 48)
  (({ s with dbOld := s.oldKept ++ olds } : State).setReg (if cls then R.DBH_PCLASS c else R.DBH_PCFG c) v).relines

/-- DBH_PPEND and DBH_PACT as read: the P or A bits of core c's private sources. -/
def State.privBits (s : State) (c : Nat) (p : Nat → Bool) : Word :=
  BitVec.ofNat 64 ((List.range 64).foldl (fun n k => n + b2n (p (s.privOf c k)) * 2 ^ k) 0)

/-- DBH_SPENDw as read. -/
def State.spend (s : State) (w : Nat) : Word :=
  BitVec.ofNat 64 ((s.sharedPending.filter fun x => x / 64 == w).foldl (fun n x => n + 2 ^ (x % 64)) 0)

/-- A DBH_IPI write (R233). -/
def ipiLocal (so : BitVec 3) (v : Word) : Bool := getF v F.DBH_IPI_REMOTE == 0 || getF v F.DBH_IPI_SOCKET == so.toNat

/-- A DBH_HOLD write (R222, R223). -/
def State.dbHoldWrite (s : State) (v : Word) : State :=
  let ch := [false, true].filter fun g =>
    let f := if g then F.DBH_HOLD_GECKO else F.DBH_HOLD_NORMAL
    s.rf R.DBH_HOLD f != getF v f
  let was (g : Bool) : Nat := s.rf R.DBH_HOLD (if g then F.DBH_HOLD_GECKO else F.DBH_HOLD_NORMAL)
  let s : State := { s with dbOld := s.oldKept ++ ch.map fun g => OldSrc.mk (0x20000 + b2n g) (BitVec.ofNat 64 (was g)) (s.time.toNat + 48) }
  (s.setReg R.DBH_HOLD (setF (setF (s.reg R.DBH_HOLD) F.DBH_HOLD_NORMAL (getF v F.DBH_HOLD_NORMAL)) F.DBH_HOLD_GECKO
    (getF v F.DBH_HOLD_GECKO))).relines

/-! Timers (R232) -/

def timerEn (n : Nat) : Fld := if n = 0 then F.DBH_TCTL_EN0 else F.DBH_TCTL_EN1
def timerCmp (c n : Nat) : Nat := if n = 0 then R.DBH_TCMP0 c else R.DBH_TCMP1 c

/-- Timer n of core c fires if it is armed and its compare value is reached: TIMERn fires and ENn is cleared. -/
def State.timerFire (s : State) (c n : Nat) : State :=
  if s.rf (R.DBH_TCTL c) (timerEn n) = 1 ∧ s.time.toNat ≥ (s.reg (timerCmp c n)).toNat then
    (s.setRf (R.DBH_TCTL c) (timerEn n) 0).firePriv c n
  else s

/-- A DBH_TCTL write; arming with a compare value already past fires at once. -/
def State.dbTctlWrite (s : State) (c : Nat) (v : Word) : State :=
  let s := s.setReg (R.DBH_TCTL c) (setF (setF (s.reg (R.DBH_TCTL c)) F.DBH_TCTL_EN0 (getF v F.DBH_TCTL_EN0))
    F.DBH_TCTL_EN1 (getF v F.DBH_TCTL_EN1))
  (s.timerFire c 0).timerFire c 1

/-! Write notices (R234) -/

/-- A notice recorded in DBH_WNADDR of core c, firing WNOTE. -/
def State.wnoteRecord (s : State) (c : Nat) (n : Notice) : State :=
  let k := R.DBH_WNADDR c
  let v := s.reg k
  let v := if getF v F.DBH_WNADDR_VALID = 1 then setF v F.DBH_WNADDR_OVF 1
    else setF (setF (setF v F.DBH_WNADDR_ADDR n.pa) F.DBH_WNADDR_INIT n.init) F.DBH_WNADDR_VALID 1
  (s.setReg k v).firePriv c 0x28

end Sys2Proof.Machine
end

