-- ==== Sys2Proof/Machine/Errors.lean ====
section
/-!
DEFINITION. CRC-32C (R327), the error rings and their records (R442, R443), and messages to peer ports (R370).
-/
namespace Sys2Proof.Machine

/-- One bit step of the reflected CRC-32C register (polynomial 0x1EDC6F41 reflected, R327). -/
def crcBit (r : BitVec 32) : BitVec 32 := if bitB r 0 then (r >>> 1) ^^^ 0x82F63B78 else r >>> 1

/-- One byte taken into the CRC register. -/
def crcByte (r : BitVec 32) (b : Byte) : BitVec 32 :=
  let r := r ^^^ b.zeroExtend 32
  crcBit (crcBit (crcBit (crcBit (crcBit (crcBit (crcBit (crcBit r)))))))

/-- CRC-32C of a byte list (R327). -/
def crc32c (bs : List Byte) : BitVec 32 := bs.foldl crcByte 0xFFFFFFFF ^^^ 0xFFFFFFFF

/-! Management SRAM -/

def State.sramB (s : State) (o : Nat) : Byte := SMap.get zeroByte s.sram o
def State.setSram (s : State) (o : Nat) : List Byte → State
  | [] => s
  | b :: bs => ({ s with sram := SMap.set zeroByte s.sram o b } : State).setSram (o + 1) bs

/-! Error records -/

/-- The steward that owns unit u (R21); 48 for the eft's own units. -/
def stewardOf (u : Nat) : Nat :=
  if u < 0x80 then u / 8
  else if u < 0x90 then u - 0x80
  else if 0x100 ≤ u ∧ u ≤ 0x10F then 16 + (u - 0x100)
  else if 0x110 ≤ u ∧ u ≤ 0x11F then 32 + (u - 0x110)
  else if 0x120 ≤ u ∧ u ≤ 0x12F then 32 + (u - 0x120)
  else 48

/-- The steward of a unit of this machine: a peer port belongs to the steward of the lane group it is configured in (R21).
DEDUCED, log entry 99. -/
def State.steward (s : State) (u : Nat) : Nat :=
  if 0x130 ≤ u ∧ u ≤ 0x136 then 32 + s.rf (R.PEER_CFG u) F.PEER_CFG_LGRP else stewardOf u

/-- The classes of R442. -/
inductive ErrClass where
  | corrected | deferred | fatal
  deriving DecidableEq, Repr

def ErrClass.code : ErrClass → Nat
  | .corrected => 1 | .deferred => 2 | .fatal => 3

/-- What a detector reports (R442). -/
structure ErrReport where
  unit : Nat
  det : Nat
  cls : ErrClass
  injected : Bool
  addr : Option Nat
  syndrome : Word
  fenced : Bool
  /-- DETAIL, bytes 32–55, the low bytes first; missing bytes are zero -/
  detail : List Byte
  deriving DecidableEq, Repr

/-- `bs` cut or zero-filled to `n` bytes. -/
def padTo (n : Nat) (bs : List Byte) : List Byte := (bs ++ List.replicate n 0).take n

/-- The 64-byte record of R442, its CRC in bytes 60–63. -/
def errRecordBytes (time : Word) (seq steward : Nat) (e : ErrReport) : List Byte :=
  let body := natBytes 8 time.toNat ++ natBytes 2 e.unit ++ natBytes 1 e.det ++ natBytes 1 e.cls.code ++
    natBytes 1 (b2n e.injected + 2 * b2n e.addr.isSome + 4 * b2n e.fenced) ++ natBytes 1 steward ++ natBytes 2 seq ++
    natBytes 8 (e.addr.getD 0) ++ natBytes 8 e.syndrome.toNat ++ padTo 24 e.detail ++ natBytes 4 0
  body ++ natBytes 4 (crc32c (body ++ natBytes 4 0)).toNat

/-- A record written to its steward's ring, or dropped and counted when the ring is full; the class's doorbell rung; a
DEFERRED or FATAL record latched in MGMT_ESTAT (R442, R443). A FATAL record of a unit that cannot be fenced sets DEVFATAL (R423). -/
def State.errRecord (s : State) (e : ErrReport) : State :=
  let st := s.steward e.unit
  let k := R.MGMT_EPTR st
  let prod := s.rf k F.MGMT_EPTR_PROD
  let cons := s.rf k F.MGMT_EPTR_CONS
  let s :=
    if (prod + 65536 - cons) % 65536 = 64 then
      if e.cls = .corrected then s.incRf k F.MGMT_EPTR_DROPC else s.incRf k F.MGMT_EPTR_DROPS
    else
      ((s.setSram (0x400000 + 0x1000 * st + 64 * (prod % 64)) (errRecordBytes s.time prod st e)).setRf k F.MGMT_EPTR_PROD (prod + 1)).count e.unit 0x02 1
  let s := match e.cls with
    | .corrected => s
    | .deferred => ((s.setRf R.MGMT_ESTAT F.MGMT_ESTAT_DEFERRED 1).setRf R.MGMT_ESTAT F.MGMT_ESTAT_LUNIT e.unit).setRf R.MGMT_ESTAT F.MGMT_ESTAT_LDET e.det
    | .fatal => ((s.setRf R.MGMT_ESTAT F.MGMT_ESTAT_FATAL 1).setRf R.MGMT_ESTAT F.MGMT_ESTAT_LUNIT e.unit).setRf R.MGMT_ESTAT F.MGMT_ESTAT_LDET e.det
  let s := if e.cls = .fatal ∧ e.unit ≥ 0x140 then s.setRf R.MGMT_ESTAT F.MGMT_ESTAT_DEVFATAL 1 else s
  -- the eft sends a PLDM event message for a DEFERRED or FATAL record (R417). DESIGN CHOICE, log entry 82
  let s : State := if e.cls = .corrected || !s.boot.eftRunning then s
    else { s with boot := { s.boot with events := s.boot.events ++ [errRecordBytes s.time prod st e] } }
  s.ringSrc (s.rf R.MGMT_ERRDB (match e.cls with
    | .corrected => F.MGMT_ERRDB_CSRC | .deferred => F.MGMT_ERRDB_DSRC | .fatal => F.MGMT_ERRDB_FSRC))

/-- A DEFERRED record of detector `det` of unit `u` at address `a`. -/
def State.deferred (s : State) (u det : Nat) (a : Option Nat) : State :=
  s.errRecord ⟨u, det, .deferred, false, a, 0, false, []⟩

/-! Reports of refused writes (R47) -/

/-- TLR_LASTERR of teller n. -/
def State.lastErr (s : State) (n status cause ring slot : Nat) : State :=
  s.setReg (R.TLR_LASTERR (0x100 + n))
    (setF (setF (setF (setF (setF 0 F.TLR_LASTERR_STATUS status) F.TLR_LASTERR_CAUSE cause) F.TLR_LASTERR_RING ring)
      F.TLR_LASTERR_SLOT slot) F.TLR_LASTERR_VALID 1)

/-- A cell write that R47 discards: the manual names no code for the report of a teller's path, which is TLR_LASTERR with a free STATUS.
DESIGN CHOICE, log entry 109. -/
def State.cellRefused (s : State) (n ring slot : Nat) : State := (s.lastErr n (Config.freeNat s.free % 256) 0 ring slot).bumpFree

/-- The error report of unit u's path for a write that R47 discards, where nothing answers it: the NSRC of its guard set.
DESIGN CHOICE, log entry 109. -/
def State.ringGuardOf (s : State) (u : Nat) : State :=
  if 0x120 ≤ u ∧ u < 0x137 then s.ringSrc (s.rf (R.GUARD_CTL (u - 0x120)) F.GUARD_CTL_NSRC) else s

/-! Peer ports -/

/-- DEDUCED, log entry 99. -/
def pp (p : Nat) : Nat := 0x130 + p
/-- The window address of local address a of the socket behind port p (R34). -/
def State.windowPa (s : State) (p a : Nat) : Nat :=
  0x100000000000 * (s.rf (R.PEER_CFG (pp p)) F.PEER_CFG_SOCKET + 1) + a % 0x100000000000
def State.peerSock (s : State) (p : Nat) : Nat := s.rf (R.PEER_CFG (pp p)) F.PEER_CFG_SOCKET
def State.peerState (s : State) (p : Nat) : Nat := s.rf (R.PEER_STAT (pp p)) F.PEER_STAT_STATE
def State.setPeerState (s : State) (p n : Nat) : State := s.setRf (R.PEER_STAT (pp p)) F.PEER_STAT_STATE n

/-- Peer port p is UP (R367). -/
def State.portUp (s : State) (p : Nat) : Bool := s.rf (R.PEER_STAT (0x130 + p)) F.PEER_STAT_STATE == 2
/-- The link of peer port p is not declared down: UP, or in RETRAIN with its messages kept (R373). DEDUCED, log entry 35. -/
def State.portLinked (s : State) (p : Nat) : Bool := s.portUp p || s.rf (R.PEER_STAT (0x130 + p)) F.PEER_STAT_STATE == 3
/-- The port that the window of socket `so` decodes to: its port while that is UP (R367). -/
def State.portOf (s : State) (so : Nat) : Option Nat :=
  (List.range 7).find? fun p => s.portUp p && s.rf (R.PEER_CFG (0x130 + p)) F.PEER_CFG_SOCKET == so
/-- The port that takes messages for socket `so` which no window decodes: in RETRAIN they wait (R373). DEDUCED, log entry 35. -/
def State.portTo (s : State) (so : Nat) : Option Nat :=
  (List.range 7).find? fun p => s.portLinked p && s.rf (R.PEER_CFG (0x130 + p)) F.PEER_CFG_SOCKET == so
/-- The port that an access at window address `pa` of socket `so` goes by: one whose request for the line is under way has its answer
after the retrain (R373). DEDUCED, log entry 35. -/
def State.portVia (s : State) (so pa : Nat) : Option Nat :=
  match s.portOf so with
  | some p => some p
  | none => if (s.peerTx.any fun t => t.pa / 64 == pa / 64 && t.op != 0x25) then s.portTo so else none
/-- The trained peer ports (R88). -/
def State.upPorts (s : State) : List Nat := (List.range 7).filter s.portLinked

/-- A write of core k was refused or found no target: a notice is on its way (R473). -/
def State.refuse (s : State) (k : CoreId) (n : Notice) : State :=
  s.modCore k fun c => { c with refused := c.refused ++ [n] }

/-- A message handed to its port (R370). -/
def State.send (s : State) (m : PeerMsg) : State := { s with peerOut := s.peerOut ++ [m] }

/-- A peer message that writes part of a line, refused with WNT rather than CMP (R366): WRL, WRP, WRC. -/
def isStore (op : Nat) : Bool := op == 0x04 || op == 0x05 || op == 0x09

/-- A request sent to a peer under a new TXID and remembered until its reply is consumed. -/
def State.request (s : State) (port op pa src arg : Nat) (data : List Byte) (tags : BitVec 4) (poison : Bool) : State :=
  let t := s.nextId % 65536
  ({ s with nextId := s.nextId + 1, peerTx := s.peerTx ++ [PeerTx.mk t port op pa src none] } : State).send
    ⟨port, op, data, poison, tags, t, src, arg, BitVec.ofNat 64 (pa % 0x100000000000)⟩

end Sys2Proof.Machine
end

