-- ==== Sys2Proof/Machine/Purses.lean ====
section
/-!
DEFINITION. Purse entries in memory, writes of local memory with the rules of purse-table lines (R47, R66–R70), purse
directories and caches (R65), free lists (R76–R79), and the coin check of R50 as a function of the entry read.
-/
namespace Sys2Proof.Machine

/-! Entries in memory -/

/-- The outcome of reading a purse entry. -/
inductive PurseRead where
  | ok (p : Purse)
  | poison
  | notarget
  deriving DecidableEq, Repr

def State.word64 (s : State) (a : Nat) : Word := BitVec.ofNat 64 (s.readNat a 8)

/-- The entry at local address `a`. -/
def State.purseAt (s : State) (a : Nat) : Purse := ⟨s.word64 a, s.word64 (a + 8), s.word64 (a + 16), s.word64 (a + 24)⟩

/-- Entry i as its home slice holds it: one atomic 32-byte read (R50, R55, R70). -/
def State.purseRead (s : State) (i : Nat) : PurseRead :=
  match s.localOf (s.entryAddr i) with
  | none => .notarget
  | some a => if s.poisoned a then .poison else .ok (s.purseAt a)

/-- The bytes of an entry (R44). -/
def Purse.bytes (p : Purse) : List Byte :=
  natBytes 8 p.w0.toNat ++ natBytes 8 p.w1.toNat ++ natBytes 8 p.w2.toNat ++ natBytes 8 p.w3.toNat

/-! Purse directories -/

def noClusters (_ : Nat) : BitVec 16 := 0

def State.dirOf (s : State) (i : Nat) : BitVec 16 := SMap.get noClusters s.purseDir i
def State.setDir (s : State) (i : Nat) (v : BitVec 16) : State := { s with purseDir := SMap.set noClusters s.purseDir i v }

/-- Cluster n holds no valid purse-cache entries of its own accord (R69): fenced, offline or clock-stopped. -/
def State.clusterOut (s : State) (n : Nat) : Bool := !s.unitUp (0x80 + n) || s.clockStopped n

/-- A purse write of entries `is` starts: an invalidation goes to every cluster the directories name (R66). -/
def State.startPurseWr (s : State) (is : List Nat) (core : Option Nat) : State :=
  let cl := is.foldl (fun acc i => acc ||| s.dirOf i) 0
  if is.isEmpty || cl == 0 then s
  else
    let n := ((List.range 16).filter fun i => bitB cl i).length
    ({ s with nextId := s.nextId + 1, purseWrs := s.purseWrs ++ [PurseWr.mk s.nextId is cl cl core false none] } : State).count
      (0x100 + s.home (s.entryAddr (is.headD 0))) 0x16 n

/-- Cluster n drops entries `is` from all its purse caches and leaves their directory records (R67). -/
def State.purseDrop (s : State) (is : List Nat) (n : Nat) : State :=
  let s := s.eachCore fun k c =>
    if k.val / 8 = n then { c with pcache := c.pcache.filter fun e => !is.contains e.1 } else c
  is.foldl (fun s i => s.setDir i (s.dirOf i &&& ~~~(BitVec.ofNat 16 (2 ^ n)))) s

/-- The invalidation of purse write `id` at cluster n (R67). A number that no purse write has is the index of an entry whose record
its directory evicts (R65). DESIGN CHOICE, log entry 108. -/
def State.purseInval (s : State) (id n : Nat) : State :=
  match s.purseWrs.find? (·.id == id) with
  | none => s.purseDrop [id] n
  | some w =>
    if bitB w.inval n then
      let s := s.purseDrop w.idxs n
      { s with purseWrs := s.purseWrs.map (fun e => if e.id = id then { e with inval := e.inval &&& ~~~(BitVec.ofNat 16 (2 ^ n)) } else e) }
    else s

/-- What a completed purse write signals (R66). -/
def State.signal (s : State) (a : PurseSignal) : State :=
  match a with
  | .answer n d => { s with answer := ⟨n, d⟩ }
  | .debug n => s.setRf R.DBG_MCTL F.DBG_MCTL_RESULT n
  | .peer m => s.send m

/-- Purse write `id` completes: its store leaves the store buffer of its core, and what waited for it alone is signalled (R66). -/
def State.purseCompleted (s : State) (id : Nat) : State :=
  let s := s.eachCore fun _ c => { c with sb := sbDrop (·.wait == .purse id) false c.sb }
  let ds := s.purseDone.map fun d => { d with ids := d.ids.filter (· != id) }
  (ds.filter (·.ids.isEmpty)).foldl (fun s d => s.signal d.act)
    { s with purseWrs := s.purseWrs.filter (·.id != id), purseDone := ds.filter fun d => !d.ids.isEmpty }

/-- Cluster n's acknowledgement reaches the home slice; after the last one the purse write completes (R66, R67). -/
def State.purseAck (s : State) (id n : Nat) : State :=
  let ws := s.purseWrs.map fun e =>
    if e.id = id && !bitB e.inval n then { e with acks := e.acks &&& ~~~(BitVec.ofNat 16 (2 ^ n)) } else e
  let s : State := { s with purseWrs := ws }
  if s.purseWrs.any (fun e => e.id == id && e.inval == 0 && e.acks == 0) then s.purseCompleted id else s

/-- A purse write carried to its completion: every invalidation applied and acknowledged (R67). -/
def State.finishPurseWr (s : State) (id : Nat) : State :=
  ((List.range 16).foldl (fun s n => (s.purseInval id n).purseAck id n) s)

/-- The purse writes numbered from `n` on carried to their completion. -/
def State.finishSince (s : State) (n : Nat) : State :=
  ((s.purseWrs.filter fun w => n ≤ w.id).map (·.id)).foldl (fun s i => s.finishPurseWr i) s

/-- `a` signalled once the purse writes numbered from `n` on have completed: at once where there are none (R66). -/
def State.signalAfter (s : State) (n : Nat) (a : PurseSignal) : State :=
  match (s.purseWrs.filter fun w => n ≤ w.id).map (·.id) with
  | [] => s.signal a
  | ids => { s with purseDone := s.purseDone ++ [⟨ids, a⟩] }

/-- The purse writes on the line of `a`, and those that hold it for a head word, carried to their completion: the next write follows
them (R70, R77). -/
def State.finishLine (s : State) (a : Nat) : State :=
  ((s.purseWrs.filter fun w => w.head == some (a / 64 * 64) || w.idxs.any fun i => s.entryAddr i / 64 == a / 64).map (·.id)).foldl
    (fun s i => s.finishPurseWr i) s

/-- Every purse write of core k completed (R71, R255). -/
def State.finishCorePurseWrs (s : State) (k : Nat) : State :=
  (s.purseWrs.filter (·.core == some k)).foldl (fun s w => s.finishPurseWr w.id) s

/-! Writes of local memory -/

/-- R47: entry i is treated as sealed: SEALLD is 1, or its line is poisoned. -/
def State.entrySealed (s : State) (i : Nat) : Bool :=
  let a := s.entryAddr i
  s.poisoned a || (s.purseAt a).sealld

/-- Entry i as the write of `bs` at `a` would leave it. -/
def State.entryAfter (s : State) (i a : Nat) (bs : List Byte) : Purse :=
  let e := s.entryAddr i
  let w (j : Nat) : Word := BitVec.ofNat 64 (bytesNat ((List.range 8).map fun t =>
    let x := e + 8 * j + t
    if a ≤ x && x < a + bs.length then bs.getD (x - a) 0 else s.memB x))
  ⟨w 0, w 1, w 2, w 3⟩

/-- R47: the write of `bs` at `a` is discarded for entry i. DEDUCED, log entry 93. -/
def State.discards (s : State) (i a : Nat) (bs : List Byte) : Bool :=
  let n := s.entryAfter i a bs
  (s.entrySealed i && n != s.purseAt (s.entryAddr i)) || (!(s.purseAt (s.entryAddr i)).sealld && n.sealld)

/-- What a write of local memory did: the state, and whether some purse entry was refused under R47. -/
structure WriteRes where
  s : State
  refused : Bool
  deriving DecidableEq, Repr

/-- How a write treats the tags of the granules it writes (R57). -/
inductive TagRule where
  | clear
  | set (t : Bool)
  deriving DecidableEq, Repr

/-- A write of `bs` at local address `a` at its home slice: the bytes of refused purse entries keep their value (R47), tags
follow R57, L2s lose the line (R263), a whole line that is none of the purse table loses its poison (R282, R47), and entries written
start a purse write (R66). `cached` writes make the line newer than its device; others reach the device. DEDUCED, log entry 93. -/
def State.localWrite (s : State) (a : Nat) (bs : List Byte) (tr : TagRule) (cached : Bool) (core : Option Nat) : WriteRes :=
  let es := s.entriesIn a bs.length
  let bad := es.filter fun i => s.discards i a bs
  let keep (x : Nat) : Bool := bad.any fun i => s.entryAddr i ≤ x && x < s.entryAddr i + 32
  let idx := List.range bs.length
  let s1 := idx.foldl (fun s' j => if keep (a + j) then s' else s'.setMemB (a + j) (bs.getD j 0)) s
  let s2 := (granules a bs.length).foldl (fun s' g =>
    if (List.range 16).all fun t => keep (g + t) || g + t < a || a + bs.length ≤ g + t then s'
    else s'.setTag g (match tr with | .clear => false | .set t => t)) s1
  let s3 := (linesOf a bs.length).foldl (fun s' l =>
    let whole := a ≤ l && l + 64 ≤ a + bs.length && !(List.range 64).any fun t => keep (l + t)
    let s' := if whole && (s.entriesIn l 64).isEmpty then s'.setPoison l false else s'
    let s' := if whole && !cached then { s' with dramBad := s'.dramBad.filter (· != l) } else s'
    let s' := s'.setClusters l ⟨0, false⟩
    if cached then s'.setDirty l true else s'.copyBack (max a l) (min (a + bs.length) (l + 64) - max a l)) s2
  ⟨s3.startPurseWr (es.filter fun i => !bad.contains i) core, !bad.isEmpty⟩

/-- A device write that is over when the step is: the purse writes on its lines first (R70), then its own to their completion (R66). -/
def State.settledWrite (s : State) (a : Nat) (bs : List Byte) (cached : Bool) : WriteRes :=
  let s := (linesOf a bs.length).foldl (fun s l => s.finishLine l) s
  let w := s.localWrite a bs .clear cached none
  ⟨w.s.finishSince s.nextId, w.refused⟩

/-- A device write of one entry, after the writes of its line before it: purse changes by MINT, recalls, sweeps and free-list operations
(R57: clears tags; R70). -/
def State.writeEntry (s : State) (i : Nat) (p : Purse) (core : Option Nat) : State :=
  ((s.finishLine (s.entryAddr i)).localWrite (s.entryAddr i) p.bytes .clear true core).s

/-- Entry i written by a MINT of core k: the core's later stores, MINTs and recalls wait for the purse write (R83). -/
def State.writeMinted (s : State) (i : Nat) (p : Purse) (k : CoreId) : State :=
  let t := s.writeEntry i p (some k.val)
  { t with purseWrs := t.purseWrs.map fun w => if s.nextId ≤ w.id then { w with hold := true } else w }

/-- The link of entry i written by a pop or push on the head word in line h, which stays held until the purse write completes (R77). -/
def State.writeLink (s : State) (h i : Nat) (p : Purse) (core : Option Nat) : State :=
  let t := s.writeEntry i p core
  { t with purseWrs := t.purseWrs.map fun w => if s.nextId ≤ w.id then { w with head := some (h / 64 * 64) } else w }

/-! Free lists -/

/-- R76: the head word at `h` is usable. -/
def State.headUsable (s : State) (h : Nat) : Bool :=
  match s.localOf h with
  | some a => h % 8 == 0 && (s.entriesIn a 8).isEmpty
  | none => false

/-- The result of a pop (R77). -/
inductive PopRes where
  | entry (i : Nat)
  | empty
  | badlist
  deriving DecidableEq, Repr

/-- The entry may be popped or pushed: readable, FREE, not sealed, not malformed (R77). -/
def State.entryFree (s : State) (i : Nat) : Option Purse :=
  match s.purseRead i with
  | .ok e => if e.state == 0 && !e.sealld && !e.malformed then some e else none
  | _ => none

/-- The head word (SEQ + 1, i) written at its home slice (R77). -/
def State.setHead (s : State) (h seq i : Nat) (core : Option Nat) : State :=
  match s.localOf h with
  | none => s
  | some a => (s.localWrite a (natBytes 8 ((seq + 1) % 2 ^ 32 * 2 ^ 32 + i)) .clear true core).s

/-- What a pop or a push of entry i waits for: the line of i (R70, R376). -/
def State.takeEntry (s : State) (i : Nat) : State :=
  let s := s.finishLine (s.entryAddr i)
  s.blockIf (s.writeHeld (s.entryAddr i) 32)
/-- What it waits for first: the line of the head word at local address a (R76, R77). -/
def State.takeHead (s : State) (a : Nat) : State :=
  let s := s.finishLine a
  s.blockIf (s.writeHeld a 8)

/-- pop(h) of R77. DEDUCED, log entry 47. -/
def State.pop (s : State) (h : Nat) (core : Option Nat) : PopRes × State :=
  match s.localOf h with
  | none => (.badlist, s)
  | some a =>
    let s := s.takeHead a
    if !s.headUsable h || s.poisoned a then (.badlist, s)
    else
      let w := s.word64 a
      let i := getF w ⟨31, 0⟩
      if i = 0xFFFFFFFF then (.empty, s)
      else if i ≥ s.ptbCount then (.badlist, s)
      else
        let s := s.takeEntry i
        match s.entryFree i with
        | none => (.badlist, s)
        | some e => (.entry i, (s.setHead h (getF w ⟨63, 32⟩) e.link core).writeLink a i (e.withLink 0) core)

/-- A device push of entry i onto the list at h; none when its checks fail, and then nothing changed (R77). -/
def State.push (s : State) (h i : Nat) (core : Option Nat) : Option State :=
  match s.localOf h with
  | none => none
  | some a =>
    let s := (s.takeHead a).takeEntry i
    if !s.headUsable h || s.poisoned a || i ≥ s.ptbCount then none
    else match s.entryFree i with
      | none => none
      | some e =>
        let w := s.word64 a
        some ((s.setHead h (getF w ⟨63, 32⟩) i core).writeLink a i (e.withLink (getF w ⟨31, 0⟩)) core)

/-- A reserved index given back to its list, or left FREE on no list (R79); its purse write is carried to its completion. -/
def State.giveBack (s : State) (r : Reserve) : State :=
  let t := match s.push r.head r.idx none with
    | some s' => s'
    | none => match s.purseRead r.idx with
      | .ok e => (s.takeEntry r.idx).writeEntry r.idx (e.withLink 0xFFFFFFFF) none
      | _ => s
  t.finishSince s.nextId

/-- Core k's mint reserve pushed back, its refill over (R79). -/
def State.dropReserve (s : State) (k : CoreId) : State :=
  ((s.core k).reserve.foldl State.giveBack s).modCore k fun c => { c with reserve := [], refill := false }

/-! Trace (R452) -/

/-- Unit u's records of the given type (bit of TYPES) are traced. -/
def State.traces (s : State) (u ty : Nat) : Bool :=
  s.rf R.DBG_TRCTL F.DBG_TRCTL_EN == 1 && bitB (s.reg R.DBG_TRCTL) (F.DBG_TRCTL_TYPES.lo + ty) &&
    (if u < 64 then bitB (s.reg R.DBG_TRCORE0) u else if u < 128 then bitB (s.reg R.DBG_TRCORE1) (u - 64) else true)

/-- The bytes of a trace record of unit u: TYPE holds the type's number plus one. -/
def State.traceBytes (s : State) (u ty : Nat) (src dst : Word) : List Byte :=
  natBytes 8 s.time.toNat ++ natBytes 2 u ++ natBytes 1 (ty + 1) ++ List.replicate 5 0 ++ natBytes 8 src.toNat ++ natBytes 8 dst.toNat

/-- One 32-byte trace record of unit u: type 0 taken branch, 1 trap entry, 2 posting applied. With WRAP = 0 nothing is written once the
buffer is full. A record whose line is held, or whose bytes R47 refuses, is one the writer cannot accept. DESIGN CHOICE, log entry 143. -/
def State.trace (s : State) (u ty : Nat) (src dst : Word) : State :=
  if !s.traces u ty then s
  else
    let size := s.rf R.DBG_TRBUF F.DBG_TRBUF_SIZE * 0x100000
    let n := (s.reg R.DBG_TRPTR).toNat
    if size = 0 || (n + 32 > size && s.rf R.DBG_TRCTL F.DBG_TRCTL_WRAP == 0) then s
    else
      let a := (s.rf R.DBG_TRBUF F.DBG_TRBUF_BASE * 0x10000 + n % size) % 0x100000000000
      let w := s.settledWrite a (s.traceBytes u ty src dst) true
      if s.lineHeld a 32 || w.refused then s.incRf R.DBG_TRCTL F.DBG_TRCTL_DROPS
      else w.s.setReg R.DBG_TRPTR (BitVec.ofNat 64 (n + 32))

/-! The coin check (R50) -/

/-- Access kinds needing the bounds step are 0–11; the rights each kind needs (R48). -/
def neededRights (kind : Nat) : BitVec 12 :=
  match kind with
  | 0 => 0x001 | 1 => 0x002 | 2 => 0x003 | 3 => 0x004 | 4 => 0x009 | 5 => 0x012 | 6 => 0x001 | 7 => 0x002
  | 8 => 0x001 | 9 => 0x002 | 10 => 0x080 | 11 => 0x100 | 12 => 0x040 | 13 => 0x400 | 14 => 0x200
  | _ => 0

/-- R49: purse type `ty` (with RSTK) permits `kind` in `ring`. -/
def typePermits (ty : Nat) (rstk : Bool) (kind ring : Nat) : Bool :=
  match ty with
  | 0 => [0, 1, 2, 4, 5, 6, 7, 8, 9, 13, 14].contains kind
  | 1 => [0, 1, 2, 3, 4, 6, 13, 14].contains kind
  | 2 => [0, 6, 10, 11, 13, 14].contains kind || (ring == 0 && [1, 2, 7].contains kind)
  | 3 => [0, 6, 13, 14].contains kind || (ring == 0 && [1, 2, 7].contains kind)
  | 4 => if rstk then [13, 14].contains kind else [0, 1, 2, 4, 5, 6, 7, 8, 9, 13, 14].contains kind
  | 5 => [12, 14].contains kind
  | 6 => [0, 1, 2, 6, 7, 13, 14].contains kind
  | _ => false

/-- Cause codes of R56. -/
inductive CoinCause where
  | tag | index | issue | malformed | state | asid | bounds | reserved | sealed | rights | type | gl | ring
  deriving DecidableEq, Repr

def CoinCause.code : CoinCause → Nat
  | .tag => 1 | .index => 2 | .issue => 3 | .malformed => 4 | .state => 5 | .asid => 6 | .bounds => 7
  | .reserved => 8 | .sealed => 9 | .rights => 10 | .type => 11 | .gl => 12 | .ring => 13

/-- The trap each cause raises (R56). -/
def CoinCause.trap : CoinCause → Nat
  | .tag => 0x03 | .index => 0x04 | .issue => 0x04 | .malformed => 0x05 | .state => 0x05 | .asid => 0x05
  | .bounds => 0x06 | .reserved => 0x07 | .sealed => 0x07 | .rights => 0x07 | .type => 0x07 | .gl => 0x07 | .ring => 0x08

/-- The row of R52's table that the cause's trap has. -/
def CoinCause.row (c : CoinCause) : Nat := c.trap + 1

/-- Of the fault of the check itself and one an instruction adds to it, the one whose row of R52 comes first. -/
def firstCause (a b : Option CoinCause) : Option CoinCause :=
  match a, b with
  | some x, some y => if y.row < x.row then some y else some x
  | some x, none => some x
  | none, y => y

/-- The steps of R50 before the entry is read. -/
def checkBefore (ptbCount : Nat) (c : Coin) : Option CoinCause :=
  if !c.tag then some .tag else if c.purse ≥ ptbCount then some .index else none

/-- The steps of R50 from ISSUE onward, with the rights `need`; `a` is c.cursor + o without wrap. -/
def checkEntryN (need : BitVec 12) (p : Purse) (c : Coin) (a : Int) (size kind : Nat) (v : Option Coin) (ring asid : Nat) :
    Option CoinCause :=
  if c.issue ≠ p.issue then some .issue
  else if p.malformed then some .malformed
  else if p.state ≠ 1 then some .state
  else if p.owner ≠ 0 ∧ p.owner ≠ asid then some .asid
  else if kind ≤ 11 ∧ (a < p.base ∨ a + size > p.base + p.length) then some .bounds
  else if bitB c.rights 11 then some .reserved
  else if bitB c.rights 6 ∧ kind ≠ 12 then some .sealed
  else if need &&& ~~~c.rights ≠ 0 then some .rights
  else if ¬ typePermits p.type p.rstk kind ring then some .type
  else if kind = 5 ∧ (match v with | some x => x.tag && !bitB x.rights 5 && !p.localok | none => false) = true then some .gl
  else if ring > p.floor then some .ring
  else none

/-- The steps of R50 from ISSUE onward for an access of the given kind (R48). -/
def checkEntry (p : Purse) (c : Coin) (a : Int) (size kind : Nat) (v : Option Coin) (ring asid : Nat) : Option CoinCause :=
  checkEntryN (neededRights kind) p c a size kind v ring asid

/-- c.cursor + o, the cursor unsigned and o signed, without wrap (R50). -/
def checkAddr (c : Coin) (o : Int) : Int := (c.cursor.toNat : Int) + o

/-! Purse caches -/

/-- The directory of entry i's slice holds 65,536 records, none of i: one has to be evicted first (R65). -/
def State.dirFull (s : State) (i : Nat) : Bool :=
  let h (i : Nat) : Nat := s.home (s.entryAddr i)
  s.dirOf i == 0 && (s.purseDir.filter fun e => h e.1 == h i).length ≥ 65536

/-- Core k reads entry i from the table and keeps it in its purse cache of 512 entries (R65). -/
def State.purseLoad (s : State) (k : CoreId) (i : Nat) : PurseRead × State :=
  let s := s.blockIf (s.readHeld (s.entryAddr i) 32 || s.dirFull i)
  match s.purseRead i with
  | .ok p =>
    let s := s.modCore k fun c => { c with pcache := capTo 512 s.free ((i, p) :: c.pcache.filter fun e => e.1 != i) }
    (.ok p, s.setDir i (s.dirOf i ||| BitVec.ofNat 16 (2 ^ (k.val / 8))))
  | r => (r, s)

/-- Core k reads entry i through its purse cache (R65). A cached copy is used unless it was evicted, which is free.
DEDUCED, log entry 10. -/
def State.purseCached (s : State) (k : CoreId) (i : Nat) : PurseRead × State :=
  match (s.core k).pcache.find? (fun e => e.1 == i) with
  | some (_, p) => if Config.freeBool s.free then s.bumpFree.purseLoad k i else (.ok p, s.bumpFree)
  | none => s.purseLoad k i

/-- R93: the tag a coin keeps when core k moves it between memory and a register. -/
def State.retire (s : State) (k : CoreId) (c : Coin) : Coin × State :=
  if !c.tag then (c, s)
  else if c.purse ≥ s.ptbCount then ({ c with tag := false }, s)
  else match s.purseCached k c.purse with
    | (.ok p, s') => if p.state ≥ 2 then ({ c with tag := false }, s') else (c, s')
    | (_, s') => ({ c with tag := false }, s')

end Sys2Proof.Machine
end

