-- ==== Sys2Proof/Machine/Xlate.lean ====
section
/-!
DEFINITION. Translation (R235–R247) as one function of a context (mode, root, ASID, ring, cached entries), shared by the
cores, the tellers and the lane groups, and physical reads through the coherent memory, peers' lines included (R246).
-/
namespace Sys2Proof.Machine

/-! Physical reads -/

/-- The outcome of a physical read. `wait` means a peer's line has to be fetched first, or a posting holds the line (R305). -/
inductive PhysRead where
  | ok (bs : List Byte) (tags : BitVec 4)
  | poison
  | notarget
  | wait
  deriving DecidableEq, Repr

/-- The line of a peer's memory at window address `pa`, if held (R376). -/
def State.rlineAt (s : State) (pa : Nat) : Option RLine := s.rlines.find? (fun l => l.pa == pa / 64 * 64)

/-- The four tags of the line of local address `a`. -/
def State.lineTags (s : State) (a : Nat) : BitVec 4 :=
  BitVec.ofNat 4 ((List.range 4).foldl (fun n j => n + b2n (s.tagAt (a / 64 * 64 + 16 * j)) * 2 ^ j) 0)

/-- `n` bytes at physical address `pa` within one line: coherent local memory, or a held line of a peer. -/
def State.physRead (s : State) (pa n : Nat) : PhysRead :=
  match s.target pa with
  | .local a _ _ =>
    if s.readHeld a n then .wait else if s.poisoned a then .poison else .ok (s.readBytes a n) (s.lineTags a)
  | .window so _ =>
    if (s.portVia so pa).isNone then .notarget
    else match s.rlineAt pa with
      | some l => if l.poison then .poison else .ok ((l.data.drop (pa % 64)).take n) l.tags
      | none => .wait
  | _ => .notarget

/-- The line of window address `pa` asked for from its peer by unit `src`, unless a request for it is under way:
RDS shared, RDX exclusive (R371). -/
def State.fetchRemote (s : State) (pa src : Nat) (excl : Bool) : State :=
  let l := pa / 64 * 64
  match (match s.target pa with | .window so _ => s.portVia so pa | _ => none) with
  | none => s
  | some p =>
    let op := if excl then 0x02 else 0x01
    if s.peerTx.any (fun t => t.pa / 64 * 64 == l && (t.op == op || isStore t.op) && t.reply.isNone) then s
    else s.request p op l src 0 [] 0 false

/-- The reply to unit `unit`'s request `op` for `pa`, taken from the peer requests; none if not there yet. A granted line read
leaves no reply, it installs the line. -/
def State.takeReply (s : State) (unit op pa : Nat) : Option PeerReply × State :=
  match s.peerTx.find? fun t => t.src == unit && t.op == op && t.pa == pa && t.reply.isSome with
  | none => (none, s)
  | some t => (t.reply, { s with peerTx := s.peerTx.filter fun x => x.txid != t.txid })

/-- The line of a window address that this socket holds given up; a modified line goes back with WBK (R371, R376). -/
def State.dropRLine (s : State) (pa : Nat) (keep : Bool) : State :=
  match s.rlineAt pa with
  | none => s
  | some l =>
    let s := if l.dirty then
        match s.portTo (pa / 0x100000000000 - 1) with
        | some p => s.request p 0x06 l.pa (0x130 + p) 0 l.data l.tags l.poison
        | none => s
      else s
    if keep then { s with rlines := s.rlines.map fun x => if x.pa = l.pa then { x with dirty := false } else x }
    else { s with rlines := s.rlines.filter fun x => x.pa != l.pa }

/-- Before a request for part of the line goes to its home, a modified copy held here goes back (R376). -/
def State.returnRLine (s : State) (pa : Nat) : State :=
  match s.rlineAt pa with
  | some l => if l.dirty then s.dropRLine pa false else s
  | none => s

/-- The lines of a peer's memory still held in `s0` where only the requests of `s1` count: a line whose write-back is one of them has left. -/
def State.linesLeft (s0 s1 : State) : List RLine :=
  s0.rlines.filter fun l => !(s1.peerTx.any fun t => t.op == 0x06 && t.pa == l.pa && !(s0.peerTx.any fun x => x.txid == t.txid))

/-- A held line of a peer's memory rewritten by this socket, which owns it. -/
def State.setRLine (s : State) (pa : Nat) (bs : List Byte) (tags : BitVec 4) : State :=
  { s with rlines := s.rlines.map fun l =>
      if l.pa = pa / 64 * 64 then
        let o := pa % 64
        { l with data := l.data.take o ++ bs ++ l.data.drop (o + bs.length), tags := tags, dirty := true,
                 poison := l.poison && !(o == 0 && bs.length == 64) }
      else l }

/-! Outstanding loads performed (R113, R253) -/

/-- The bytes and tag of one half, from coherent memory or a held line of a peer. -/
def State.sampleHalf (s : State) (h : Half) : List Byte × Bool :=
  match s.physRead h.pa h.len with
  | .ok bs t => (bs, bitB t (h.pa % 64 / 16))
  | _ => (match s.localOf h.pa with | some a => s.readBytes a h.len | none => List.replicate h.len 0, false)

/-- A half performed now, if it is not yet: its data is fixed (R253). DEDUCED, log entry 89. -/
def State.performPart (s : State) (p : LoadPart) : LoadPart := if p.got.isSome then p else { p with got := some (s.sampleHalf p.half) }
/-- The halves of load l that touch [pa, pa + n) performed now. -/
def State.samplePart (s : State) (l : Load) (pa n : Nat) : Load :=
  { l with parts := l.parts.map fun p => if s.sharesByte p.half.pa p.half.len pa n then s.performPart p else p }
/-- Load l performed now. -/
def State.sampleLoad (s : State) (l : Load) : Load := { l with parts := l.parts.map s.performPart }
/-- The bytes of a performed load, and whether every half has a tag. -/
def Load.data (l : Load) : List Byte × Bool :=
  let r := l.parts.map fun p => p.got.getD ([], false)
  ((r.map (·.1)).flatten, r.all (·.2))

/-- A half that cannot be performed yet: its line is held (R263). -/
def State.partHeld (s : State) (p : LoadPart) : Bool :=
  p.got.isNone && match s.localOf p.half.pa with | some a => s.readHeld a p.half.len | none => false
/-- An outstanding load that still has to read a line that is held. -/
def State.loadHeld (s : State) (l : Load) : Bool := l.parts.any s.partHeld

/-- Core k's outstanding loads that touch [pa, pa + n) performed now: they are older than what is about to be written. -/
def State.sampleOverlapping (s : State) (k : CoreId) (pa n : Nat) : State :=
  let s := s.blockIf ((s.core k).loads.any fun l => l.parts.any fun p => s.sharesByte p.half.pa p.half.len pa n && s.partHeld p)
  s.modCore k fun c => { c with loads := c.loads.map fun l => s.samplePart l pa n }

/-- Every outstanding load of core k performed now. -/
def State.sampleAll (s : State) (k : CoreId) : State :=
  let s := s.blockIf ((s.core k).loads.any s.loadHeld)
  s.modCore k fun c => { c with loads := c.loads.map s.sampleLoad }

/-- Poison is about to reach the line of local address a. A load that has issued met no bus error: it was performed before (R282, R473).
DEDUCED, log entry 89. -/
def State.beforePoison (s : State) (a : Nat) : State :=
  s.eachCore fun _ c => { c with loads := c.loads.map fun l => s.samplePart l (a / 64 * 64) 64 }
/-- The line of local address a becomes poisoned. -/
def State.poisonLine (s : State) (a : Nat) : State := (s.beforePoison a).setPoison a true

/-- A whole line written with its tags and poison: granules of a purse entry that R47 keeps keep their tags (R62). -/
def State.lineWrite (s : State) (l : Nat) (bs : List Byte) (tags : BitVec 4) (poison : Bool) : WriteRes :=
  let bad := (s.entriesIn l 64).filter fun i => s.discards i l bs
  let w := (if poison then s.beforePoison l else s).localWrite l bs .clear true none
  let t := (List.range 4).foldl (fun (s' : State) j =>
    if bad.any (fun i => s.entryAddr i / 32 == (l + 16 * j) / 32) then s' else s'.setTag (l + 16 * j) (bitB tags j)) w.s
  ⟨if poison then t.setPoison l true else t, w.refused⟩

/-! Page-table entries (R237) -/

def pteV (e : Word) : Bool := bitB e 0
def pteRD (e : Word) : Bool := bitB e 1
def pteWR (e : Word) : Bool := bitB e 2
def pteEX (e : Word) : Bool := bitB e 3
def pteUS (e : Word) : Bool := bitB e 4
def pteG (e : Word) : Bool := bitB e 5
def pteA (e : Word) : Bool := bitB e 6
def pteD (e : Word) : Bool := bitB e 7
def ptePS (e : Word) : Bool := bitB e 8
def pteMT (e : Word) : Nat := getF e ⟨11, 9⟩
def ptePA (e : Word) : Nat := getF e ⟨47, 12⟩ * 4096

/-- Memory type of an entry's MT code. 6 and 7 pass R239 in no walk; where software has put one into an entry between its walk and
its mark, whose value R244 gives the access, it is taken as RING. DESIGN CHOICE, log entry 104. -/
def mtypeOf (n : Nat) : MType :=
  match n with
  | 0 => .normal | 1 => .uncached | 2 => .device | 3 => .purse | 4 => .journal | _ => .ring

/-- R238: the size of a page at level lv. -/
def pageSize (lv : Nat) : Nat := 2 ^ (12 + 9 * lv)

/-- R239: an entry at level lv with V = 1 is reserved-malformed. -/
def pteMalformed (e : Word) (lv : Nat) : Bool :=
  let leaf := lv == 0 || ptePS e
  getF e ⟨63, 48⟩ != 0 || decide (pteMT e ≥ 6) || (ptePS e && (lv == 4 || lv == 0)) ||
    (leaf && ptePA e % pageSize lv != 0) || (!leaf && getF e ⟨8, 1⟩ != 0)

/-! Accesses -/

/-- What an access is to the type rules of R240. -/
inductive XUse where
  /-- an access of one of the kinds of R48 -/
  | kind
  /-- a return-stack push or pop -/
  | retstack
  /-- a save area or vector frame -/
  | area
  /-- CCLEAN and CFLUSH: any type (R241) -/
  | clean
  /-- CZERO -/
  | zero
  /-- a heritage access: NORMAL or UNCACHED only (R383) -/
  | heritage
  deriving DecidableEq, Repr

structure XAcc where
  kind : Nat
  use : XUse
  reads : Bool
  writes : Bool
  fetch : Bool
  /-- the whole access is not aligned to its size (R241) -/
  misaligned : Bool
  deriving DecidableEq, Repr

/-- The access of one of the kinds of R48 (R243's classification). -/
def xKind (kind : Nat) (misaligned : Bool) : XAcc :=
  ⟨kind, .kind, [0, 4, 6, 8, 2, 10, 11].contains kind, [1, 5, 7, 9, 2, 10, 11].contains kind, kind == 3, misaligned⟩
/-- DEDUCED, log entry 97. -/
def xRetstack (write : Bool) : XAcc := ⟨15, .retstack, !write, write, false, false⟩
def xArea (write : Bool) : XAcc := ⟨15, .area, !write, write, false, false⟩
def xClean : XAcc := ⟨0, .clean, true, false, false, false⟩
def xZero : XAcc := ⟨1, .zero, false, true, false, false⟩

/-- R240: kinds a memory type permits, in a ring. -/
def mtPermitsKind (mt : MType) (kind ring : Nat) : Bool :=
  match mt with
  | .normal => decide (kind ≤ 11)
  | .uncached => [0, 1, 2, 6, 7].contains kind
  | .device => [0, 1].contains kind
  | .purse => ring == 0 && [0, 1, 2, 4, 5].contains kind
  | .journal => kind == 0 || (ring == 0 && [1, 2].contains kind)
  | .ring => [0, 1, 2, 4, 5, 8, 9].contains kind

/-- R240, R241: the type `mt` of physical address `pa` permits the access. -/
def xPermits (a : XAcc) (mt : MType) (pa ring : Nat) : Bool :=
  (if pa ≥ 0xFF0000000000 then mt == .device
   else if pa ≥ 0x900000000000 then mt == .device || mt == .uncached else true) &&
  (match a.use with
   | .kind => mtPermitsKind mt a.kind ring
   | .retstack => mt == .ring
   | .area => mt == .normal
   | .clean => true
   | .zero => mt != .uncached && mt != .device && mtPermitsKind mt 1 ring
   | .heritage => mtPermitsKind mt a.kind ring && (mt == .normal || mt == .uncached))

/-- Cause codes of R245. -/
inductive XCause where
  | noncanon | bare | notpresent | user | read | write | exec | type | align | rsvd | walktype
  deriving DecidableEq, Repr

def XCause.code : XCause → Nat
  | .noncanon => 1 | .bare => 2 | .notpresent => 3 | .user => 4 | .read => 5 | .write => 6 | .exec => 7 | .type => 8
  | .align => 9 | .rsvd => 10 | .walktype => 11

def XCause.trap : XCause → Nat
  | .noncanon => 0x09 | .bare => 0x09 | .notpresent => 0x09
  | .user => 0x0A | .read => 0x0A | .write => 0x0A | .exec => 0x0A | .type => 0x0A | .align => 0x0A
  | .rsvd => 0x0B | .walktype => 0x0B

/-- The leaf checks of R243 in order. -/
def leafCheck (e : Word) (a : XAcc) (pa ring : Nat) : Option XCause :=
  if !pteV e then some .notpresent
  else if ring ≠ 0 ∧ !pteUS e then some .user
  else if a.reads ∧ !pteRD e then some .read
  else if a.writes ∧ !pteWR e then some .write
  else if a.fetch ∧ !pteEX e then some .exec
  else if !xPermits a (mtypeOf (pteMT e)) pa ring then some .type
  else if mtypeOf (pteMT e) = .device ∧ a.use ≠ .clean ∧ a.misaligned then some .align
  else none

/-- Whose translation it is and what it has cached. -/
structure XCtx where
  mode : Nat
  root : Nat
  asid : Nat
  ring : Nat
  tlb : List TlbEntry
  walk : List WalkEntry
  /-- the unit number that asks -/
  unit : Nat
  deriving DecidableEq, Repr

/-- Report of a translation fault (R245): `level` 7 and no entry where no walk was made. -/
structure XFault where
  cause : XCause
  level : Nat
  tlb : Bool
  pte : Word
  ea : Option Nat
  deriving DecidableEq, Repr

inductive XRes where
  | ok (pa : Nat) (mt : MType)
  | fault (f : XFault)
  | bus (ea : Nat) (poison : Bool)
  | wait
  deriving DecidableEq, Repr

/-- A translation's outcome with the state after its marks and the context after its installs. -/
structure XOut where
  res : XRes
  s : State
  ctx : XCtx
  deriving DecidableEq, Repr

/-- R236. An address that is non-canonical and used by rings 1 to 3 is reported as NONCANON: DESIGN CHOICE, log entry 135. -/
def xBare (va : Nat) (a : XAcc) (ring : Nat) : XRes :=
  let bad (c : XCause) : XRes := .fault ⟨c, 7, false, 0, none⟩
  let pa := va % 2 ^ 48
  if va / 2 ^ 48 ≠ 0 then bad .noncanon
  else if ring ≠ 0 then bad .bare
  else
    let hi := pa ≥ 0x900000000000
    let mt : MType := if hi then .device else if a.use = .retstack then .ring else .normal
    if !xPermits a mt pa ring then bad .type
    else if mt = .device ∧ a.use ≠ .clean ∧ a.misaligned then bad .align
    else .ok pa mt

/-- Bits [63:w − 1] of va all equal (R235). -/
def canonical (va w : Nat) : Bool :=
  let t := va / 2 ^ (w - 1)
  t == 0 || t == 2 ^ (65 - w) - 1

/-- The index of va at level lv (R238). -/
def vaIndex (va lv : Nat) : Nat := va / 2 ^ (12 + 9 * lv) % 512

/-- Where a walk stopped: at a leaf, or on a fault, bus error or wait. -/
inductive WalkRes where
  | leaf (e : Word) (ea lv : Nat) (news : List WalkEntry)
  | stop (r : XRes)
  deriving DecidableEq, Repr

/-- The walk of R242 from table `tbl` at level lv downward; `fuel` bounds the levels. -/
def State.walkFrom (s : State) (va asid : Nat) : Nat → Nat → Nat → List WalkEntry → WalkRes
  | 0, _, _, _ => .stop .wait
  | fuel + 1, tbl, lv, news =>
    let ea := tbl + 8 * vaIndex va lv
    match s.physRead ea 8 with
    | .poison => .stop (.bus ea true)
    | .notarget => .stop (.bus ea false)
    | .wait => .stop .wait
    | .ok bs _ =>
      let e : Word := BitVec.ofNat 64 (bytesNat bs)
      let bad (c : XCause) : WalkRes := .stop (.fault ⟨c, lv, false, e, some ea⟩)
      if !pteV e then bad .notpresent
      else if pteMalformed e lv then bad .rsvd
      else if lv = 0 ∨ ptePS e then .leaf e ea lv news
      else if pteMT e = 2 ∨ pteMT e = 4 ∨ pteMT e = 5 then bad .walktype
      else s.walkFrom va asid fuel (ptePA e) (lv - 1)
        (⟨asid, lv - 1, va / 2 ^ (12 + 9 * lv), ptePA e, pteMT e⟩ :: news)

/-- The window address whose line a waiting walk needs, if any: the first entry address not readable yet. -/
def State.walkNeeds (s : State) (va : Nat) : Nat → Nat → Nat → Option Nat
  | 0, _, _ => none
  | fuel + 1, tbl, lv =>
    let ea := tbl + 8 * vaIndex va lv
    match s.physRead ea 8 with
    | .wait => some ea
    | .ok bs _ =>
      let e : Word := BitVec.ofNat 64 (bytesNat bs)
      if lv = 0 ∨ ptePS e ∨ !pteV e then none else s.walkNeeds va fuel (ptePA e) (lv - 1)
    | _ => none

/-- mark(ea, write) of R244 at local address `a`: A, and D for a write with WR, set if V = 1; a purse-table line makes it a
purse write. Returns the entry as it stands after, unmarked where R47 discards the write, and whether it was discarded. -/
def State.markAt (s : State) (a : Nat) (write : Bool) (core : Option Nat) : Word × WriteRes :=
  let e := s.word64 a
  if !pteV e then (e, ⟨s, false⟩)
  else
    let e' := setF e ⟨6, 6⟩ 1
    let e' := if write && pteWR e then setF e' ⟨7, 7⟩ 1 else e'
    let w := s.localWrite a (natBytes 8 e'.toNat) .clear true core
    (w.s.word64 a, w)

/-- The outcome of a mark anywhere: the entry after it, or a stop. -/
def State.mark (s : State) (ea : Nat) (write : Bool) (unit : Nat) : Option Word × State :=
  match s.target ea with
  | .local a _ _ =>
    if s.writeHeld a 8 then (none, s)
    else
      let (e, w) := s.markAt a write (if unit < 0x80 then some unit else none)
      let s' := w.s.finishSince s.nextId
      -- a discarded mark is reported as any write of its initiator (R47)
      (some e, if !w.refused then s'
        else if unit < 0x80 then s'.refuse (coreOf unit) ⟨ea, 0x100 + s.home a, false, false⟩
        else if 0x100 ≤ unit ∧ unit < 0x110 then s'.cellRefused (unit - 0x100) 16 0
        else s'.ringGuardOf unit)
  | .window _ _ =>
    match s.rlineAt ea with
    | some l =>
      if l.excl then
        let e : Word := BitVec.ofNat 64 (bytesNat ((l.data.drop (ea % 64)).take 8))
        let e' := if pteV e then (let x := setF e ⟨6, 6⟩ 1; if write && pteWR e then setF x ⟨7, 7⟩ 1 else x) else e
        (some e', s.setRLine ea (natBytes 8 e'.toNat) l.tags)
      else (none, s.fetchRemote ea unit true)
    | none => (none, s.fetchRemote ea unit true)
  | _ => (none, s)

/-- The leaf checks, the mark where one is needed and the install (R242, R244). `noMark`: PREF and PREFW never mark. -/
def State.finishXlate (s : State) (ctx : XCtx) (va : Nat) (a : XAcc) (e : Word) (ea lv : Nat) (hit noMark : Bool) : XOut :=
  let paOf (e : Word) : Nat := ptePA e + va % pageSize lv
  let bad (s : State) (c : XCause) (e : Word) : XOut := ⟨.fault ⟨c, lv, hit, e, some ea⟩, s, ctx⟩
  match leafCheck e a (paOf e) ctx.ring with
  | some c => bad s c e
  | none =>
    let install (e : Word) : XCtx :=
      let t : TlbEntry := ⟨ctx.asid, lv, va / pageSize lv, e, ea⟩
      { ctx with tlb := t :: ctx.tlb.filter fun x => !(x.level == lv && x.vbase == t.vbase && (x.asid == ctx.asid || pteG x.pte)) }
    if !pteA e || (a.writes && !pteD e) then
      if noMark then ⟨.wait, s, ctx⟩
      else match s.mark ea a.writes ctx.unit with
        | (none, s') =>
          match s.takeReply ctx.unit 0x02 (ea / 64 * 64) with
          | (some _, s) => ⟨.bus ea false, s, ctx⟩
          | (none, _) => ⟨.wait, s', ctx⟩
        | (some e', s') =>
          match leafCheck e' a (paOf e') ctx.ring with
          | some c => bad s' c e'
          | none => ⟨.ok (paOf e') (mtypeOf (pteMT e')), s', if pteA e' then install e' else ctx⟩
    else ⟨.ok (paOf e) (mtypeOf (pteMT e)), s, install e⟩

/-- translate(va, kind, ring) of R242. Cached entries are used unless evicted, which is free (R247). DEDUCED, log entry 10. -/
def State.translate (s : State) (ctx : XCtx) (va : Nat) (a : XAcc) (noMark : Bool) : XOut :=
  if ctx.mode = 0 then ⟨xBare va a ctx.ring, s, ctx⟩
  else
    let top := ctx.mode + 1
    let w := 12 + 9 * (top + 1)
    if !canonical va w then ⟨.fault ⟨.noncanon, 7, false, 0, none⟩, s, ctx⟩
    else
      let hit := ctx.tlb.find? fun t => t.vbase == va / pageSize t.level && (t.asid == ctx.asid || pteG t.pte)
      let (use, s) := match hit with
        | some _ => (!Config.freeBool s.free, s.bumpFree)
        | none => (false, s)
      match hit, use with
      | some t, true => s.finishXlate ctx va a t.pte t.ea t.level true noMark
      | _, _ =>
        let wc := (ctx.walk.filter fun e => e.asid == ctx.asid && e.vbase == va / 2 ^ (12 + 9 * (e.level + 1)) && e.level < top)
        let best := wc.foldl (fun (b : Option WalkEntry) e => match b with
          | none => some e
          | some x => if e.level < x.level then some e else some x) none
        let (start, s) := match best with
          | some e => if Config.freeBool s.free then ((ctx.root, top), s.bumpFree) else ((e.table, e.level), s.bumpFree)
          | none => ((ctx.root, top), s)
        match s.walkFrom va ctx.asid 5 start.1 start.2 [] with
        | .stop .wait =>
          match s.walkNeeds va 5 start.1 start.2 with
          | some ea =>
            match s.takeReply ctx.unit 0x01 (ea / 64 * 64) with
            | (some _, s) => ⟨.bus ea false, s, ctx⟩
            | (none, s) => ⟨.wait, s.fetchRemote ea ctx.unit false, ctx⟩
          | none => ⟨.wait, s, ctx⟩
        | .stop r => ⟨r, s, ctx⟩
        | .leaf e ea lv news =>
          let ctx := { ctx with walk := news ++ ctx.walk.filter fun x =>
            !(news.any fun n => n.asid == x.asid && n.level == x.level && n.vbase == x.vbase) }
          s.finishXlate ctx va a e ea lv false noMark

end Sys2Proof.Machine
end

