-- ==== Sys2Proof/Machine/Fields.lean ====
section
/-!
DEFINITION. Field types of control-space and core state registers (R9, R10) and the match of an access to a register (R7,
R8): what a plain read or write of a register does by its field table alone.
-/
namespace Sys2Proof.Machine

/-- A write of `v` to one field of a register holding `o`, by the field's type; `load` is mode LOAD or the image sequencer. -/
def writeField (load : Bool) (v : Word) (o : Word) (f : RegField) : Word :=
  match f.ty with
  | .rw => setF o f.fld (getF v f.fld)
  | .rwl => if load then setF o f.fld (getF v f.fld) else o
  | .w1c => o &&& ~~~(v &&& f.fld.mask 64)
  | .w1s => o ||| (v &&& f.fld.mask 64)
  | .ro | .wo | .rc => o

/-- A write of `v` to a register holding `o` (R9): each field by its type. -/
def writeFields (load : Bool) (fs : List RegField) (o v : Word) : Word := fs.foldl (writeField load v) o

/-- The value a read returns: WO fields and bits under no field read zero (R9). -/
def readFields (fs : List RegField) (o : Word) : Word :=
  fs.foldl (fun r f => match f.ty with | .wo => r | _ => r ||| (o &&& f.fld.mask 64)) 0

/-- What a read leaves in the register: RC fields cleared (R9). -/
def clearFields (fs : List RegField) (o : Word) : Word :=
  fs.foldl (fun r f => match f.ty with | .rc => r &&& ~~~(f.fld.mask 64) | _ => r) o

/-- How an access of `len` bytes at key `k` meets the registers (R7, R8). -/
inductive RegHit where
  /-- exactly the register of this row -/
  | exact (r : RegRow)
  /-- overlaps no register -/
  | hole
  /-- overlaps a register without matching it -/
  | clash
  deriving DecidableEq, Repr

def regHit (k len : Nat) : RegHit :=
  match regRowAt k with
  | some r => if r.width = len then .exact r else .clash
  | none =>
    -- a register starting inside the access, or one starting before it and reaching into it
    if (List.range (len + 7)).any fun i =>
        let st := k + i - 7
        st != k && k + i ≥ 7 && (match regRowAt st with | some r => decide (st + r.width > k) | none => false)
    then .clash else .hole

/-- A plain write of a register by its field types. -/
def State.plainWrite (s : State) (load : Bool) (k : Nat) (r : RegRow) (v : Word) : State :=
  s.setReg k (writeFields load r.fields (s.reg k) v)

/-- A plain read of a register: its value, and RC fields cleared. -/
def State.plainRead (s : State) (k : Nat) (r : RegRow) : Word × State :=
  let o := s.reg k
  (readFields r.fields o, s.setReg k (clearFields r.fields o))

end Sys2Proof.Machine
end

