-- ==== Sys2Proof/Machine/CsRegs.lean ====
section
/-!
DEFINITION. Core state registers as storage (R101, R102): which indices are assigned, who may reach them, and what a write leaves
in a 64-bit register.
-/
namespace Sys2Proof.Machine

/-! Core state registers: who may access an index -/

/-- The access rule of an index: coin-valued or not, the highest ring that may read, the highest that may write, and whether a
write changes nothing (R101, R102). -/
structure CsRule where
  coin : Bool
  rd : Nat
  wr : Nat
  ro : Bool
  deriving DecidableEq, Repr

/-- The rule of index i; none where it is unassigned. `bank` is CS_BANKWIN.BANK (R206). DEDUCED, log entry 25. -/
def csRule (bank i : Nat) : Option CsRule :=
  if i = 0x000 then some ⟨false, 3, 0, false⟩
  else if i = 0x001 then some ⟨true, 3, 3, true⟩
  else if (0x008 ≤ i ∧ i ≤ 0x011) then some ⟨false, 3, 3, true⟩
  else if 0x020 ≤ i ∧ i ≤ 0x02C then some ⟨false, 3, 3, false⟩
  else if i = 0x030 then some ⟨true, 3, 0, false⟩
  else if 0x040 ≤ i ∧ i ≤ 0x043 then some ⟨true, 0, 0, false⟩
  else if i = 0x048 then some ⟨false, 0, 3, true⟩
  else if i = 0x080 then some ⟨false, 3, 0, false⟩
  else if i = 0x081 then some ⟨false, 0, 0, false⟩
  else if 0x082 ≤ i ∧ i ≤ 0x084 then some ⟨false, 2, 2, true⟩
  else if i = 0x0C0 ∨ i = 0x0C1 then some ⟨false, 0, 0, true⟩
  else if i = 0x0C2 then some ⟨false, 0, 0, false⟩
  else if i = 0x100 then some ⟨false, 0, 0, false⟩
  else if 0x101 ≤ i ∧ i ≤ 0x103 then some ⟨false, 2, 2, true⟩
  else if 0x104 ≤ i ∧ i ≤ 0x107 then some ⟨true, i - 0x104, i - 0x104, false⟩
  else if i = 0x108 then some ⟨true, 2, 2, true⟩
  else if i = 0x109 then some ⟨true, 0, 0, false⟩
  else if i = 0x10A ∨ i = 0x10B then some ⟨false, 0, 0, false⟩
  else if 0x110 ≤ i ∧ i ≤ 0x11F then some ⟨true, 0, 0, false⟩
  else if 0x120 ≤ i ∧ i ≤ 0x12F then if bank = 0 then none else some ⟨false, 0, 0, false⟩
  else if 0x130 ≤ i ∧ i ≤ 0x137 then if bank = 1 ∨ bank = 2 then some ⟨true, 0, 0, false⟩ else none
  else if i = 0x140 ∨ i = 0x141 then some ⟨false, 3, 3, false⟩
  else if i = 0x142 ∨ i = 0x143 then some ⟨false, 3, 3, true⟩
  else if i = 0x160 ∨ i = 0x161 then some ⟨false, 3, 3, false⟩
  else if i = 0x162 then some ⟨false, 3, 0, false⟩
  else if i = 0x163 ∨ i = 0x164 ∨ i = 0x168 then some ⟨false, 3, 3, true⟩
  else if i = 0x165 then some ⟨true, 0, 0, false⟩
  else if i = 0x166 ∨ i = 0x167 then some ⟨false, 0, 0, false⟩
  else if i = 0x180 then some ⟨false, 3, 0, false⟩
  else if i = 0x181 then some ⟨false, 3, 3, true⟩
  else if i = 0x1A0 ∨ i = 0x1A1 ∨ (0x1B0 ≤ i ∧ i ≤ 0x1BF) then some ⟨false, 0, 0, false⟩
  else if i = 0x1A2 then some ⟨false, 2, 2, true⟩
  else if (0x1C0 ≤ i ∧ i ≤ 0x1D0) ∨ (0x1D8 ≤ i ∧ i ≤ 0x1DF) then some ⟨false, 0, 0, false⟩
  else none

/-- The window register that index i names under BANK 1 or 2 (R206). -/
def winDst (bank i : Nat) : Dst :=
  if i < 0x130 then if bank = 3 then .h (i - 0x120) else (if bank = 1 then .g (16 + (i - 0x120)) else .gg (16 + (i - 0x120)))
  else (if bank = 1 then .c (8 + (i - 0x130)) else .gc (8 + (i - 0x130)))

/-- A write of CS_VL: min(512, max(16, v with bits [3:0] cleared)). DEDUCED, log entry 26. -/
def CoreState.setVL (c : CoreState) (v : Word) : CoreState :=
  c.csSet R.CS_VL (BitVec.ofNat 64 (min 512 (max 16 (v.toNat / 16 * 16))))

/-- A write of CS_VCTL: SEW 5–7 leaves SEW unchanged. DEDUCED, log entry 26. -/
def CoreState.setVCTL (c : CoreState) (v : Word) : CoreState :=
  let sew := getF v F.CS_VCTL_SEW
  let o := c.csF R.CS_VCTL F.CS_VCTL_SEW
  c.csSet R.CS_VCTL (setF (setF 0 F.CS_VCTL_SEW (if sew ≤ 4 then sew else o)) F.CS_VCTL_ZM (getF v F.CS_VCTL_ZM))

/-- A write of a register by its field types (R9, R101). DEDUCED, log entry 25. -/
def CoreState.csPlain (c : CoreState) (i : Nat) (v : Word) : CoreState :=
  match csRowAt i with
  | some r => c.csSet i (writeFields false r.fields (c.csGet i) v)
  | none => c

/-- A rounding code of 5–7 leaves its field unchanged. -/
def keepCode (o v : Word) (f : Fld) : Word := if getF v f ≤ 4 then v else Sys2Proof.setF v f (getF o f)

/-- A register of 64 bits after a write of v: its field types, and the fields that keep their value for codes they do not have. -/
def CoreState.csNext (c : CoreState) (i : Nat) (v : Word) : CoreState :=
  if i = R.CS_FPCTL then c.csPlain i (keepCode (c.csGet i) (keepCode (c.csGet i) v F.CS_FPCTL_BRM) F.CS_FPCTL_DRM)
  else if i = R.CS_VL then c.setVL v
  else if i = R.CS_VCTL then c.setVCTL v
  else if i = R.CS_EMINFO then
    c.csPlain i (if getF v F.CS_EMINFO_EMDEPTH ≤ 16 then v else Sys2Proof.setF v F.CS_EMINFO_EMDEPTH (c.csF i F.CS_EMINFO_EMDEPTH))
  else if R.CS_WPC 0 ≤ i ∧ i ≤ R.CS_WPC 3 then
    c.csPlain i (if getF v F.CS_WPC_SIZE ≤ 12 then v else Sys2Proof.setF v F.CS_WPC_SIZE (c.csF i F.CS_WPC_SIZE))
  else c.csPlain i v

/-- A value of CS_TIME: the time base up to 5 ns late, never below the last one read (R26). DESIGN CHOICE, log entry 11. -/
def State.timeRead (s : State) (k : CoreId) : Word × State :=
  let t := s.time.toNat
  let v := t - Config.freeNat s.free % 6
  let last := (s.core k).lastTime.toNat
  let v := if v < last ∧ last ≤ t then last else v
  (BitVec.ofNat 64 v, (s.bumpFree).modCore k fun c => { c with lastTime := BitVec.ofNat 64 v })

/-- Core state registers that show what stands elsewhere: CS_CORE, CS_PTBASE (R73) and CS_DBWIN. -/
def State.csFixed (s : State) (k : CoreId) (i : Nat) : Option Word :=
  if i = R.CS_CORE then some (BitVec.ofNat 64 (k.val + s.socket.toNat * 2 ^ 16))
  else if i = R.CS_PTBASE then some (s.reg (R.VLT_PTBASE 0x100))
  else if i = R.CS_DBWIN then some (BitVec.ofNat 64 (0xFF0140400000 + 0x1000 * k.val))
  else none

/-- A write of CS_FREEHEAD: the reserve goes back, purse writes complete, and a refill starts where EN is set (R79). -/
def State.freeheadWrite (s : State) (k : CoreId) (v : Word) : State :=
  ((s.dropReserve k).finishCorePurseWrs k.val).modCore k fun c =>
    let c := c.csNext R.CS_FREEHEAD v
    { c with refill := c.csF R.CS_FREEHEAD F.CS_FREEHEAD_EN == 1 }

end Sys2Proof.Machine
end

