-- ==== Sys2Proof/Machine/HubCmd.lean ====
section
/-!
DEFINITION. The commands of the doorbell hub (R212–R234): rings and pends, ticks, claims and DONE, settings, timers,
inter-processor doorbells, wake latches, and the arrival of line changes at cores.
-/
namespace Sys2Proof.Machine

/-- A DBH_IPI write: fired here, or forwarded to the hub of its socket (R233). -/
def State.ipiWrite (s : State) (v : Word) : State :=
  let c := getF v F.DBH_IPI_CORE
  let i := getF v F.DBH_IPI_INDEX
  if ipiLocal s.socket v then s.firePriv c (0x20 + i)
  else
    match s.portTo (getF v F.DBH_IPI_SOCKET) with
    | some p => s.send ⟨p, 0x30, [], false, 0, 0, 0x140, c + i * 128, 0⟩
    | none => s.incRf R.DBH_STAT F.DBH_STAT_BADRING

/-- A claim read from outside: its data is the answer (R218). DESIGN CHOICE, log entry 49. -/
def State.claimAnswer (s : State) (c : Nat) (classes : List Bool) : State :=
  let (v, s) := s.claim c classes
  { s with answer := ⟨0, natBytes 4 v.toNat⟩ }

def execDbhRing (v : Word) (s : State) : Res := s.alive fun s => s.dbRingWrite v.toNat
def execDbhPend (v : Word) (s : State) : Res := s.alive fun s => s.fireShared (v.toNat % 65536)
def execDbhUnpend (v : Word) (s : State) : Res := s.alive fun s => s.dbUnpend (v.toNat % 65536)
def execDbhIpi (v : Word) (s : State) : Res := s.alive fun s => s.ipiWrite v
def execDbhHoldWrite (v : Word) (s : State) : Res := s.alive fun s => s.dbHoldWrite v
def execDbhPpendWrite (k : CoreId) (v : Word) (s : State) : Res := s.alive fun s => s.dbPpend k.val v
def execDbhDone (k : CoreId) (v : Word) (s : State) : Res := s.alive fun s => s.dbDone k.val (v.toNat % 2 ^ 32)
def execDbhTctlWrite (k : CoreId) (v : Word) (s : State) : Res := s.alive fun s => s.dbTctlWrite k.val v
def execDbhClaim (k : CoreId) (s : State) : Res := s.alive fun s => s.claimAnswer k.val [true, false]
def execDbhClaimg (k : CoreId) (s : State) : Res := s.alive fun s => s.claimAnswer k.val [true]
def execDbhClaimn (k : CoreId) (s : State) : Res := s.alive fun s => s.claimAnswer k.val [false]

/-- DBH_PEEK: the value a claim would return, nothing else changed (R218). -/
def execDbhPeek (k : CoreId) (s : State) : Res :=
  s.alive fun s => { s with answer := ⟨0, natBytes 4 ((s.claimPeek k.val [true, false]).getD 0xFFFFFFFF)⟩ }

/-- A tick of R216 for shared source x. -/
def execDbhTickFire (x : Nat) (s : State) : Res := s.alive fun s => s.dbTick (x % 65536)
def execDbhSrcWrite (x : Nat) (v : Word) (s : State) : Res := s.alive fun s => s.dbSrcWrite (x % 65536) v
def execDbhTimerFire (k : CoreId) (n : Fin 2) (s : State) : Res := s.alive fun s => s.timerFire k.val n.val
/-- A line change reaches its core; one for a cluster whose clock is stopped waits for the clock (R230). -/
def execInterruptLineChange (k : CoreId) (s : State) : Res :=
  s.alive fun s => if s.clockStopped (k.val / 8) then s else s.lineArrive k

/-- R231: the edge is selected by EDGE. -/
def edgeSel (e : Nat) (rising : Bool) : Bool := e == 3 || (e == 1 && rising) || (e == 2 && !rising)

/-- An edge caught by wake latch k: HIT set and SOURCE rung (R231). The latches work whatever clocks are stopped; the eft that
EFT = 1 wakes is firmware, whose sleep is no state of the device. DESIGN CHOICE, log entry 48. -/
def execWakeLatchEdge (latch : Fin 33) (rising : Bool) (s : State) : Res :=
  s.alive fun s =>
    let k := R.DBH_WAKE latch.val
    if edgeSel (s.rf k F.DBH_WAKE_EDGE) rising then (s.setRf k F.DBH_WAKE_HIT 1).ring (s.rf k F.DBH_WAKE_SOURCE) else s

end Sys2Proof.Machine
end

