-- ==== Sys2Proof/Machine/Crypto.lean ====
section
/-!
DEFINITION. SHA-384 (FIPS 180-4) and ECDSA P-384 verification (FIPS 186-5), as image slots and debug unlocks use them (R399,
R448).
-/
namespace Sys2Proof

/-! SHA-384 -/

def rotr64 (x : Word) (n : Nat) : Word := (x >>> n) ||| (x <<< (64 - n))
def shaCh (x y z : Word) : Word := (x &&& y) ^^^ (~~~x &&& z)
def shaMaj (x y z : Word) : Word := (x &&& y) ^^^ (x &&& z) ^^^ (y &&& z)
def shaS0 (x : Word) : Word := rotr64 x 28 ^^^ rotr64 x 34 ^^^ rotr64 x 39
def shaS1 (x : Word) : Word := rotr64 x 14 ^^^ rotr64 x 18 ^^^ rotr64 x 41
def shaG0 (x : Word) : Word := rotr64 x 1 ^^^ rotr64 x 8 ^^^ (x >>> 7)
def shaG1 (x : Word) : Word := rotr64 x 19 ^^^ rotr64 x 61 ^^^ (x >>> 6)

/-- The round constants. -/
def shaK : List Word :=
  [0x428a2f98d728ae22, 0x7137449123ef65cd, 0xb5c0fbcfec4d3b2f, 0xe9b5dba58189dbbc, 0x3956c25bf348b538] ++
  [0x59f111f1b605d019, 0x923f82a4af194f9b, 0xab1c5ed5da6d8118, 0xd807aa98a3030242, 0x12835b0145706fbe] ++
  [0x243185be4ee4b28c, 0x550c7dc3d5ffb4e2, 0x72be5d74f27b896f, 0x80deb1fe3b1696b1, 0x9bdc06a725c71235] ++
  [0xc19bf174cf692694, 0xe49b69c19ef14ad2, 0xefbe4786384f25e3, 0x0fc19dc68b8cd5b5, 0x240ca1cc77ac9c65] ++
  [0x2de92c6f592b0275, 0x4a7484aa6ea6e483, 0x5cb0a9dcbd41fbd4, 0x76f988da831153b5, 0x983e5152ee66dfab] ++
  [0xa831c66d2db43210, 0xb00327c898fb213f, 0xbf597fc7beef0ee4, 0xc6e00bf33da88fc2, 0xd5a79147930aa725] ++
  [0x06ca6351e003826f, 0x142929670a0e6e70, 0x27b70a8546d22ffc, 0x2e1b21385c26c926, 0x4d2c6dfc5ac42aed] ++
  [0x53380d139d95b3df, 0x650a73548baf63de, 0x766a0abb3c77b2a8, 0x81c2c92e47edaee6, 0x92722c851482353b] ++
  [0xa2bfe8a14cf10364, 0xa81a664bbc423001, 0xc24b8b70d0f89791, 0xc76c51a30654be30, 0xd192e819d6ef5218] ++
  [0xd69906245565a910, 0xf40e35855771202a, 0x106aa07032bbd1b8, 0x19a4c116b8d2d0c8, 0x1e376c085141ab53] ++
  [0x2748774cdf8eeb99, 0x34b0bcb5e19b48a8, 0x391c0cb3c5c95a63, 0x4ed8aa4ae3418acb, 0x5b9cca4f7763e373] ++
  [0x682e6ff3d6b2b8a3, 0x748f82ee5defb2fc, 0x78a5636f43172f60, 0x84c87814a1f0ab72, 0x8cc702081a6439ec] ++
  [0x90befffa23631e28, 0xa4506cebde82bde9, 0xbef9a3f7b2c67915, 0xc67178f2e372532b, 0xca273eceea26619c] ++
  [0xd186b8c721c0c207, 0xeada7dd6cde0eb1e, 0xf57d4f7fee6ed178, 0x06f067aa72176fba, 0x0a637dc5a2c898a6] ++
  [0x113f9804bef90dae, 0x1b710b35131c471b, 0x28db77f523047d84, 0x32caab7b40c72493, 0x3c9ebe0a15c9bebc] ++
  [0x431d67c49c100d4c, 0x4cc5d4becb3e42b6, 0x597f299cfc657e2a, 0x5fcb6fab3ad6faec, 0x6c44198c4a475817]

/-- The initial hash value of SHA-384. -/
def sha384Init : List Word :=
  [0xcbbb9d5dc1059ed8, 0x629a292a367cd507, 0x9159015a3070dd17, 0x152fecd8f70e5939] ++
  [0x67332667ffc00b31, 0x8eb44a8768581511, 0xdb0c2e0d64f98fa7, 0x47b5481dbefa4fa4]

/-- The message schedule extended by `n` words; `w` holds the words so far, the newest first. -/
def shaExtend : Nat → List Word → List Word
  | 0, w => w
  | n + 1, w => shaExtend n ((shaG1 (w.getD 1 0) + w.getD 6 0 + shaG0 (w.getD 14 0) + w.getD 15 0) :: w)

/-- One round on the eight working words. -/
def shaRound (v : List Word) (kw : Word × Word) : List Word :=
  match v with
  | [a, b, c, d, e, f, g, h] =>
    let t1 := h + shaS1 e + shaCh e f g + kw.1 + kw.2
    let t2 := shaS0 a + shaMaj a b c
    [t1 + t2, a, b, c, d + t1, e, f, g]
  | _ => v

/-- One block of 16 words. -/
def shaBlock (h : List Word) (block : List Word) : List Word :=
  let w := (shaExtend 64 block.reverse).reverse
  List.zipWith (· + ·) h ((shaK.zip w).foldl shaRound h)

/-- The big-endian number of a byte list. -/
def beNat (bs : List Byte) : Nat := bs.foldl (fun n b => n * 256 + b.toNat) 0
/-- `n` big-endian bytes of x. -/
def beBytes (n x : Nat) : List Byte := (natBytes n x).reverse

/-- The words of a byte list, 8 bytes each, `n` of them. -/
def beWords : Nat → List Byte → List Word
  | 0, _ => []
  | n + 1, bs => BitVec.ofNat 64 (beNat (bs.take 8)) :: beWords n (bs.drop 8)

/-- The blocks of a padded message taken into the hash, `n` of them. -/
def shaBlocks : Nat → List Byte → List Word → List Word
  | 0, _, h => h
  | n + 1, bs, h => shaBlocks n (bs.drop 128) (shaBlock h (beWords 16 (bs.take 128)))

/-- The message padded to whole blocks. -/
def shaPad (bs : List Byte) : List Byte :=
  let n := bs.length
  let z := (128 - (n + 17) % 128) % 128
  bs ++ [0x80] ++ List.replicate z 0 ++ beBytes 16 (8 * n)

/-- SHA-384: 48 bytes. PRESUMED, log entry 85. -/
def sha384 (bs : List Byte) : List Byte :=
  let p := shaPad bs
  (((shaBlocks (p.length / 128) p sha384Init).take 6).map fun w => beBytes 8 w.toNat).flatten

/-! P-384 -/

def p384P : Nat := 2 ^ 384 - 2 ^ 128 - 2 ^ 96 + 2 ^ 32 - 1
def p384B : Nat := 0xb3312fa7e23ee7e4988e056be3f82d19181d9c6efe8141120314088f5013875ac656398d8a2ed19d2a85c8edd3ec2aef
def p384N : Nat := 0xffffffffffffffffffffffffffffffffffffffffffffffffc7634d81f4372ddf581a0db248b0a77aecec196accc52973
def p384G : Nat × Nat :=
  (0xaa87ca22be8b05378eb1c71ef320ad746e1d3b628ba79b9859f741e082542a385502f25dbf55296c3a545e3872760ab7,
   0x3617de4a96262c6f5d9e98bf9292dc29f8f41dbd289a147ce9da3113b5f0b8c00a60b1ce1d7e819d7a431d7c90ea0e5f)

/-- b^e mod m by squaring; `f` bounds the bits of e. -/
def powMod (m : Nat) : Nat → Nat → Nat → Nat → Nat
  | 0, _, _, acc => acc
  | f + 1, b, e, acc => powMod m f (b * b % m) (e / 2) (if e % 2 = 1 then acc * b % m else acc)
/-- The inverse of a modulo the prime m. -/
def invMod (m a : Nat) : Nat := powMod m 384 (a % m) (m - 2) 1

/-- A point in Jacobian coordinates; Z = 0 is the point at infinity. -/
structure JPoint where
  x : Nat
  y : Nat
  z : Nat
  deriving DecidableEq, Repr

def subP (a b : Nat) : Nat := (a + p384P - b % p384P) % p384P

def JPoint.dbl (q : JPoint) : JPoint :=
  if q.z = 0 ∨ q.y = 0 then ⟨1, 1, 0⟩
  else
    let p := p384P
    let y2 := q.y * q.y % p
    let s := 4 * q.x * y2 % p
    let z2 := q.z * q.z % p
    let m := 3 * (subP q.x z2) * (q.x + z2) % p
    let x := subP (m * m) (2 * s)
    ⟨x, subP (m * subP s x) (8 * y2 * y2), 2 * q.y * q.z % p⟩

def JPoint.add (a b : JPoint) : JPoint :=
  if a.z = 0 then b
  else if b.z = 0 then a
  else
    let p := p384P
    let za := a.z * a.z % p
    let zb := b.z * b.z % p
    let u1 := a.x * zb % p
    let u2 := b.x * za % p
    let s1 := a.y * zb * b.z % p
    let s2 := b.y * za * a.z % p
    if u1 = u2 then (if s1 = s2 then a.dbl else ⟨1, 1, 0⟩)
    else
      let h := subP u2 u1
      let r := subP s2 s1
      let h2 := h * h % p
      let h3 := h * h2 % p
      let x := subP (r * r) (h3 + 2 * u1 * h2)
      ⟨x, subP (r * subP (u1 * h2) x) (s1 * h3), h * a.z * b.z % p⟩

/-- k times a point; `f` bounds the bits of k. -/
def JPoint.mul : Nat → Nat → JPoint → JPoint → JPoint
  | 0, _, _, acc => acc
  | f + 1, k, q, acc => JPoint.mul f (k / 2) q.dbl (if k % 2 = 1 then acc.add q else acc)

/-- (x, y) lies on the curve. -/
def onP384 (x y : Nat) : Bool :=
  decide (x < p384P) && decide (y < p384P) && decide (y * y % p384P = (x * x % p384P * x + (p384P - 3) * x + p384B) % p384P)

/-- ECDSA P-384 over a SHA-384 digest: key X ‖ Y and signature r ‖ s, 48 bytes each, big-endian. PRESUMED, log entry 85. -/
def ecdsaOk (key sig digest : List Byte) : Bool :=
  let qx := beNat (key.take 48)
  let qy := beNat ((key.drop 48).take 48)
  let r := beNat (sig.take 48)
  let t := beNat ((sig.drop 48).take 48)
  if !onP384 qx qy || r = 0 || t = 0 || r ≥ p384N || t ≥ p384N then false
  else
    let w := invMod p384N t
    let z := beNat digest
    let o : JPoint := ⟨1, 1, 0⟩
    let a := JPoint.mul 384 (z * w % p384N) ⟨p384G.1, p384G.2, 1⟩ o
    let b := JPoint.mul 384 (r * w % p384N) ⟨qx, qy, 1⟩ o
    let v := a.add b
    if v.z = 0 then false
    else
      let zi := invMod p384P v.z
      decide (v.x * (zi * zi % p384P) % p384P % p384N = r)

end Sys2Proof
end

