-- ==== Sys2Proof/Machine/Flits.lean ====
section
/-!
DEFINITION. Filvo Link messages and flits as bytes (R369, R370): headers, slots, CONTROL flits, and the CRC.
-/
namespace Sys2Proof.Machine

/-! Classes (R371) -/

/-- The class of an OP: 0 REQ, 1 RSP, 2 SNP, 3 PRI. -/
def opClass (op : Nat) : Nat :=
  if op == 0x30 then 3
  else if [0x10, 0x11, 0x31, 0x32].contains op then 2
  else if [0x12, 0x18, 0x19, 0x1A, 0x21, 0x24, 0x26, 0x29, 0x34].contains op then 1
  else 0

/-- The message carries data. -/
def PeerMsg.hasData (m : PeerMsg) : Bool := m.data != []

/-! Messages (R370) -/

/-- The 16-byte header of a message. -/
def PeerMsg.header (m : PeerMsg) : List Byte :=
  natBytes 1 m.op ++ natBytes 1 (opClass m.op + 4 * b2n m.hasData + 8 * b2n m.poison + 16 * m.tags.toNat) ++
    natBytes 2 m.txid ++ natBytes 2 (m.src % 512) ++ natBytes 2 m.arg ++ natBytes 8 m.value.toNat

/-- The 80 bytes of a slot: a data message, or up to five short ones. -/
def slotBytes (ms : List PeerMsg) : List Byte :=
  padTo 80 ((ms.map fun m => m.header ++ (if m.hasData then padTo 64 m.data else [])).flatten)

/-! Flits (R369) -/

/-- The header bits of a flit: FTYPE, FSEQ, ACKSEQ, SLOTV, CRCLS, CRCNT. -/
def flitHeader (ty fseq ack slotv cls cnt : Nat) : List Byte :=
  natBytes 6 (ty + fseq % 4096 * 2 ^ 2 + ack % 4096 * 2 ^ 14 + slotv % 8 * 2 ^ 26 + cls % 4 * 2 ^ 29 + cnt % 256 * 2 ^ 31)

/-- A flit: header and slots, the CRC over both, and the FEC check bytes over all before them. -/
def flitBytes (hdr body : List Byte) : List Byte :=
  let bs := padTo 246 (padTo 6 hdr ++ body)
  let bs := bs ++ natBytes 4 (crc32c bs).toNat
  bs ++ (List.range 6).map (Config.flitFec bs)

/-- Byte 6 and the fields of a CONTROL flit; a NAK has none. -/
def CtlFlit.body (c : CtlFlit) : List Byte :=
  match c with
  | .nak _ => []
  | .ident so cr => [1, BitVec.ofNat 8 so] ++ (cr.take 4).map (BitVec.ofNat 8 ·)
  | .treq t1 => [2, 0] ++ natBytes 8 t1.toNat
  | .trsp t2 t3 => [3, 0] ++ natBytes 8 t2.toNat ++ natBytes 8 t3.toNat
  | .down => [4]

/-! Sending -/

def State.linkOf (s : State) (p : Nat) : Link := s.links[p % 7]'(Nat.mod_lt _ (by decide))
def State.setLink (s : State) (p : Nat) (l : Link) : State := { s with links := s.links.set (p % 7) l (Nat.mod_lt _ (by decide)) }
def State.modLink (s : State) (p : Nat) (f : Link → Link) : State := s.setLink p (f (s.linkOf p))

def Link.owes (l : Link) (c : Nat) : Nat := l.owed[c % 4]'(Nat.mod_lt _ (by decide))

/-- The class whose credits the next flit returns: the first that owes some. -/
def Link.retClass (l : Link) : Nat := ((List.range 4).find? fun c => l.owes c > 0).getD 0

/-- The credits that a flit returns are owed no more (R372). -/
def Link.paid (l : Link) : Link :=
  let c := l.retClass
  { l with owed := l.owed.set (c % 4) (l.owes c - 255) (Nat.mod_lt _ (by decide)) }

/-- The credits that the next flit returns for its class. -/
def Link.retCount (l : Link) : Nat := min 255 (l.owes l.retClass)

/-- A flit of the link as it stands, with ACKSEQ and the credits owed for one class (R369, R372, R373). -/
def Link.flit (l : Link) (ty fseq slotv : Nat) (body : List Byte) : List Byte :=
  flitBytes (flitHeader ty fseq l.rxSeq slotv l.retClass l.retCount) body

/-- The next PAYLOAD flit, of `slots`. -/
def Link.newFlit (l : Link) (slots : List (List PeerMsg)) : Flit := ⟨(l.txSeq + 1) % 4096, slots, 0, l.retClass, l.retCount⟩

/-- A PAYLOAD flit as it goes out, each time with the credits that it first returned and the ACKSEQ of the moment (R372, R373).
DEDUCED, log entry 55. -/
def Link.payloadFlit (l : Link) (f : Flit) : List Byte :=
  flitBytes (flitHeader 1 f.fseq l.rxSeq (2 ^ f.slots.length - 1) f.cls f.cnt) ((f.slots.map slotBytes).flatten)

/-- A NAK or CONTROL flit sent. -/
def Link.sendCtl (l : Link) (c : CtlFlit) : Link :=
  let ty := match c with | .nak _ => 2 | _ => 3
  { l.paid with ctl := some c, wire := [l.flit ty l.txSeq 0 c.body] }

/-- The identification of this socket (R367, R372). DESIGN CHOICE, log entry 7. -/
def State.identCtl (s : State) : CtlFlit := .ident s.socket.toNat ((List.range 4).map Config.initialCredits)

/-- A fresh link that identifies itself. -/
def State.identLink (s : State) : Link := Link.reset.sendCtl s.identCtl

end Sys2Proof.Machine
end

