-- ==== Sys2Proof/Machine/Journal.lean ====
section
/-!
DEFINITION. Journal records and their streams (R324–R334, R338–R341, R346): staging, local areas and persistence flushes,
mirrors sent and received.
-/
namespace Sys2Proof.Machine

/-- The unit of teller n. -/
def tu (n : Nat) : Nat := 0x100 + n
/-- A staging buffer holds 1,984 KiB (R330). -/
def stagingCap : Nat := 2031616

/-! Records (R324–R327) -/

/-- INFO (R325). DEDUCED, log entry 95. -/
def jInfo (kind dur test nleg ring cur lead part asid : Nat) : Word :=
  BitVec.ofNat 64 (kind % 8 + dur % 4 * 2 ^ 3 + test % 2 * 2 ^ 5 + nleg % 16 * 2 ^ 6 + ring % 4 * 2 ^ 10 + cur % 4096 * 2 ^ 12 +
    lead % 16 * 2 ^ 24 + part % 2 * 2 ^ 28 + asid % 65536 * 2 ^ 32)

/-- A record of header fields and leg entries, its CRC computed with bytes 60–63 zero (R324, R327). -/
def jRecord (seq postid info ref : Word) (vdate : Nat) (time sprev : Word) (epoch : Nat) (legs : List Byte) : List Byte :=
  let head (crc : Nat) : List Byte :=
    natBytes 8 seq.toNat ++ natBytes 8 postid.toNat ++ natBytes 8 info.toNat ++ natBytes 8 ref.toNat ++ natBytes 4 vdate ++
      natBytes 2 0x4A4C ++ natBytes 2 0 ++ natBytes 8 time.toNat ++ natBytes 8 sprev.toNat ++ natBytes 4 epoch ++ natBytes 4 crc
  head (crc32c (head 0 ++ legs)).toNat ++ legs

/-- A leg entry (R326). -/
def jLeg (pa : Nat) (prev : Word) (amount : BitVec 128) : List Byte :=
  natBytes 8 (pa % 2 ^ 48) ++ natBytes 8 prev.toNat ++ natBytes 16 amount.toNat

/-! Duties (R431) -/

/-- The teller that does the duties of slice n: its own, or the sibling it was handed over to (R431). -/
def State.duty (s : State) (n : Nat) : Nat :=
  if s.unitState (tu n) = 7 then s.rf (R.MGMT_USTAT (tu n)) F.MGMT_USTAT_SIB else n
/-- The teller that locks the cell line of local address a. -/
def State.cellTeller (s : State) (a : Nat) : Nat := s.duty (s.home a)

/-! Staging (R330) -/

def JRec.len (r : JRec) : Nat := r.bytes.length
/-- Bytes staged at teller n. -/
def State.staged (s : State) (n : Nat) : Nat := ((s.staging.filter fun r => r.teller == n).map JRec.len).sum
/-- The length of a posting's record (R324). -/
def recLen (legs : Nat) : Nat := 64 + 32 * legs
/-- Bytes of teller n's staging promised to records not staged yet: postings that have their number, and participant records begun
(R330, R331). -/
def State.promised (s : State) (n : Nat) : Nat :=
  ((s.postings.filter fun p => p.lead == n && p.phase == .numbered).map fun p => recLen p.legs.length).sum +
    ((s.parts.filter fun p => p.teller == n).map fun p => recLen p.mine.length).sum
def State.stagingRoom (s : State) (n len : Nat) : Bool := s.staged n + s.promised n + len ≤ stagingCap

def State.jLocal (s : State) (n : Nat) : Bool := s.rf (R.TLR_JCTL (tu n)) F.TLR_JCTL_LOCAL == 1
def State.jMirror (s : State) (n : Nat) : Bool := s.rf (R.TLR_JCTL (tu n)) F.TLR_JCTL_MIRROR == 1
def State.jLocalErr (s : State) (n : Nat) : Bool := s.rf (R.TLR_JSTAT (tu n)) F.TLR_JSTAT_LOCALERR == 1
def State.jMirDown (s : State) (n : Nat) : Bool := s.rf (R.TLR_JSTAT (tu n)) F.TLR_JSTAT_MIRDOWN == 1
def State.jEpoch (s : State) (n : Nat) : Nat := s.rf (R.TLR_JCTL (tu n)) F.TLR_JCTL_EPOCH
def State.jSock (s : State) (n : Nat) : Nat := s.rf (R.TLR_JCTL (tu n)) F.TLR_JCTL_MSOCK

def noPrev (_ : Nat) : Word := 0
def State.sprev (s : State) (n : Nat) : Word := SMap.get noPrev s.jPrev n
def State.setSprev (s : State) (n : Nat) (w : Word) : State := { s with jPrev := SMap.set noPrev s.jPrev n w }

/-- A record is done with: nothing needs it any more. Received mirror records leave when they are written. -/
def JRec.done (r : JRec) : Bool := r.mirrorOf.isNone && !r.needLocal && !r.needMirror
def State.purgeStaging (s : State) : State := { s with staging := s.staging.filter fun r => !r.done }

/-- The 64-byte pieces of a byte list, numbered. -/
def pieces (bs : List Byte) (fuel : Nat) : List (List Byte) :=
  match fuel with
  | 0 => []
  | n + 1 => if bs.length ≤ 64 then [bs] else bs.take 64 :: pieces (bs.drop 64) n

/-- A record of teller n sent to its mirror as pieces JRC under TXID `tx` (R334, R371). -/
def State.sendRecord (s : State) (n tx : Nat) (bs : List Byte) : State :=
  match s.portTo (s.jSock n) with
  | none => s
  | some p =>
    let ps := pieces bs 16
    (ps.zipIdx).foldl (fun s x =>
      s.send ⟨p, 0x28, padTo 64 x.1, false, 0, tx, tu n, x.2 % 16 + (if x.2 + 1 = ps.length then 16 else 0) + n * 32, 0⟩) s

/-- A record staged at teller n (R307, R328) and sent to the mirror where one is configured. `links` says that it carries SPREV
on: posting and participant records. -/
def State.stage (s : State) (n : Nat) (bs : List Byte) (seq : Word) (links toLocal toMirror : Bool) : State :=
  let tx := s.nextId % 65536
  let r : JRec := ⟨n, bs, seq, none, tx, toLocal, toMirror, none⟩
  let s := { s with nextId := s.nextId + 1, staging := s.staging ++ (if r.done then [] else [r]) }
  let s := if links then s.setSprev n seq else s
  (if toMirror then s.sendRecord n tx bs else s).count (tu n) 0x15 bs.length

/-- A posting or participant record staged for every target of its stream (R332). -/
def State.stagePosting (s : State) (n : Nat) (seq postid info ref : Word) (vdate : Nat) (time : Word) (legs : List Byte) : State :=
  s.stage n (jRecord seq postid info ref vdate time (s.sprev n) (s.jEpoch n) legs) seq true (s.jLocal n) (s.jMirror n)

/-- The bytes of an OPEN (kind 6) or SEAL (kind 7) record of teller n (R328). DEDUCED, log entry 95. -/
def State.markBytes (s : State) (n kind : Nat) : List Byte :=
  jRecord 0 0 (jInfo kind 0 0 0 0 0 n 0 0) 0 0 s.time (if kind = 6 then 0 else s.sprev n) (s.jEpoch n) []

/-- An OPEN or SEAL record staged; it needs 64 bytes of staging. -/
def State.stageMark (s : State) (n kind : Nat) (toLocal toMirror : Bool) : State :=
  s.stage n (s.markBytes n kind) 0 false toLocal toMirror

/-! Ports that carry journals (R33) -/

/-- A journal target lies behind peer port p: a stream mirrored there, or an area for the mirror of one from there (R33). -/
def State.portCarries (s : State) (p : Nat) : Bool :=
  (List.range 16).any fun n =>
    (s.rf (R.TLR_JCTL (tu n)) F.TLR_JCTL_MIRROR == 1 && s.rf (R.TLR_JCTL (tu n)) F.TLR_JCTL_MSOCK == s.peerSock p) ||
      (s.rf (R.TLR_JMBASE (tu n)) F.TLR_JMBASE_EN == 1 && s.rf (R.TLR_JMBASE (tu n)) F.TLR_JMBASE_SRCSOCK == s.peerSock p)

/-- Port p sends and takes flits: in DRAIN, while it carries a journal target or mirror path, or a numbered posting still has cells to
write (R33, R339). DEDUCED, log entry 77. -/
def State.portRuns (s : State) (p : Nat) : Bool :=
  s.mode != .drain || s.portCarries p || s.postings.any fun x => x.phase == .numbered || x.phase == .committing

/-! The local area (R329, R333) -/

/-- The CXL port a local address lies on, as (lane group, port), with its region. -/
def State.cxlPort (s : State) (a : Nat) : Option (Nat × Nat × Nat) :=
  (s.cxlRegionAt 0x100 a).map fun r =>
    (s.rf (R.VLT_CXLR 0x100 r) F.VLT_CXLR_LGRP, s.rf (R.VLT_CXLR 0x100 r) F.VLT_CXLR_PORT, r)

/-- R329's condition on a persistent area [base, base + size). -/
def State.areaOk (s : State) (base size : Nat) : Bool :=
  size ≥ 65536 &&
  match s.localOf base with
  | none => false
  | some a => match s.cxlPort a with
    | none => false
    | some (_, _, r) =>
      let k := R.VLT_CXLR 0x100 r
      s.rf k F.VLT_CXLR_PERSIST == 1 &&
        a + size ≤ s.rf k F.VLT_CXLR_BASE * 2 ^ 30 + s.rf k F.VLT_CXLR_SIZE * 2 ^ 30

def State.jBase (s : State) (n : Nat) : Nat := s.rf (R.TLR_JBASE (tu n)) ⟨47, 12⟩ * 4096
def State.jSize (s : State) (n : Nat) : Nat := s.rf (R.TLR_JSIZE (tu n)) ⟨47, 12⟩ * 4096
def State.jmBase (s : State) (n : Nat) : Nat := s.rf (R.TLR_JMBASE (tu n)) ⟨47, 12⟩ * 4096
def State.jmSize (s : State) (n : Nat) : Nat := s.rf (R.TLR_JMSIZE (tu n)) ⟨47, 12⟩ * 4096

/-- Bytes written by physical address, tags cleared, reaching the device (R329); whether R47 refused some of them. -/
def State.physWrite (s : State) (pa : Nat) (bs : List Byte) : WriteRes :=
  match s.localOf pa with
  | some a => s.settledWrite a bs false
  | none => ⟨s, false⟩

/-- Bytes of a stream of teller n at offset `off` of the ring [base, base + size) (R329). Bytes that R47 refuses are a failed write of the
path (R333). DEDUCED, log entry 109. -/
def State.ringWrite (s : State) (n base size off : Nat) (bs : List Byte) : State :=
  let o := off % size
  let room := size - o
  let w := s.physWrite (base + o) (bs.take room)
  let x := if bs.length ≤ room then ⟨w.s, false⟩ else w.s.physWrite base (bs.drop room)
  if w.refused || x.refused then x.s.setRf (R.TLR_JSTAT (tu n)) F.TLR_JSTAT_LOCALERR 1 else x.s

/-- The next record of teller n for its local area, and whether the area has room for it. -/
def State.nextLocal (s : State) (n : Nat) : Option JRec :=
  s.staging.find? fun r => r.teller == n && r.mirrorOf.isNone && r.needLocal && r.written.isNone
def State.areaRoom (s : State) (n : Nat) (r : JRec) : Bool :=
  let used := (s.reg (R.TLR_JHEAD (tu n))).toNat - (s.reg (R.TLR_JTAIL (tu n))).toNat
  used + r.len ≤ s.jSize n

/-- The CXL port, as (lane group, port), of the area at `base`. -/
def State.areaPort (s : State) (base : Nat) : Option (Nat × Nat) :=
  match s.localOf base with
  | some a => (s.cxlPort a).map fun x => (x.1, x.2.1)
  | none => none

/-- Teller n has written its last record: its SEAL is staged and nothing staged waits to be written (R339). -/
def State.lastWritten (s : State) (n : Nat) : Bool := s.sealed.contains n && (s.nextLocal n).isNone

/-- Teller n takes a mirror into a persistent area (R334). -/
def State.mirrorKept (s : State) (n : Nat) : Bool :=
  s.rf (R.TLR_JMBASE (tu n)) F.TLR_JMBASE_EN == 1 && s.rf (R.TLR_JMBASE (tu n)) F.TLR_JMBASE_PERSIST == 1

/-- A flush starts on a port where none is in flight and journal writes were accepted since the last one (R333); in BRUMATION none does
(R338). The final flush of DRAIN, after the SEALs of every teller with an area on the port, has phase 1 and then phase 2, every other
phase 2 only (R354). -/
def State.startFlush (s : State) (g p : Nat) : State :=
  let key := g * 8 + p
  if (s.flushes.any fun f => f.group == g && f.port == p) || !s.jDirty.contains key || s.mode == .brumation then s
  else
    let on := (List.range 16).filter fun n => s.jLocal n && s.areaPort (s.jBase n) == some (g, p)
    let mirrors := (List.range 16).filter fun n => s.mirrorKept n && s.areaPort (s.jmBase n) == some (g, p)
    if (on ++ mirrors).any s.jLocalErr then s
    else
      { s with jDirty := s.jDirty.filter (· != key),
               flushes := s.flushes ++ [⟨g, p, on.map fun n => (n, (s.reg (R.TLR_JHEAD (tu n))).toNat), mirrors,
                 if s.mode = .drain ∧ on.all s.lastWritten ∧ mirrors.all s.sealed.contains then 1 else 2⟩] }

/-- Every flush that is due starts where it can. -/
def State.startFlushes (s : State) : State := s.jDirty.foldl (fun s key => s.startFlush (key / 8) (key % 8)) s

/-- Journal bytes were accepted by the port of the area at `base`: a flush starts there (R333). -/
def State.journalDirty (s : State) (base : Nat) : State :=
  match s.areaPort base with
  | none => s
  | some (g, p) => ({ s with jDirty := if s.jDirty.contains (g * 8 + p) then s.jDirty else s.jDirty ++ [g * 8 + p] } : State).startFlush g p

/-- JDUR of teller n advanced to `upto`: the records covered leave staging as far as the local target goes (R330, R333). -/
def State.coverTo (s : State) (n upto : Nat) : State :=
  let cov (r : JRec) : Bool := r.teller == n && r.mirrorOf.isNone && r.needLocal && (match r.written with | some w => w ≤ upto | none => false)
  let last := (s.staging.filter fun r => cov r && r.seq != 0).getLast?
  let s := s.setReg (R.TLR_JDUR (tu n)) (BitVec.ofNat 64 upto)
  let s := match last with | some r => s.setReg (R.TLR_JLASTD (tu n)) r.seq | none => s
  ({ s with staging := s.staging.map fun r => if cov r then { r with needLocal := false } else r } : State).purgeStaging

/-- The phase under way of the flush on a port ends (R333, R354). One that fails sets LOCALERR in the tellers with an area there: for the
mirror areas DESIGN CHOICE, log entry 146. -/
def State.flushDone (s : State) (g p : Nat) (ok : Bool) : State :=
  match s.flushes.find? fun f => f.group == g && f.port == p with
  | none => s
  | some f =>
    if ok && f.phase == 1 then
      { s with flushes := s.flushes.map fun x => if x.group = g ∧ x.port = p then { x with phase := 2 } else x }
    else
    let s := { s with flushes := s.flushes.filter fun x => !(x.group == g && x.port == p) }
    if ok then (f.covers.foldl (fun s c => s.coverTo c.1 c.2) s).startFlush g p
    else (f.covers.map (·.1) ++ f.mirrors).foldl (fun s n => s.setRf (R.TLR_JSTAT (tu n)) F.TLR_JSTAT_LOCALERR 1) s

/-! Mirrors -/

/-- The record of teller n that TXID `tx` names is acknowledged by the mirror: JLASTM (R332, R334). -/
def State.mirrorAck (s : State) (n tx : Nat) : State :=
  let hit (r : JRec) : Bool := r.teller == n && r.mirrorOf.isNone && r.needMirror && r.txid == tx
  let s := match s.staging.find? hit with
    | some r => if r.seq = 0 then s else s.setReg (R.TLR_JLASTM (tu n)) r.seq
    | none => s
  ({ s with staging := s.staging.map fun r => if hit r then { r with needMirror := false } else r } : State).purgeStaging

/-- The unacknowledged records of teller n sent again in staging order, the path trained again (R334). -/
def State.resendMirror (s : State) (n : Nat) : State :=
  (s.staging.filter fun r => r.teller == n && r.mirrorOf.isNone && r.needMirror).foldl (fun s r => s.sendRecord n r.txid r.bytes) s

/-- The first received mirror record of teller n, if its area has room for it and may be written: in DRAIN a non-persistent area is not
(R339), in BRUMATION nothing moves (R338). -/
def State.nextMirror (s : State) (n : Nat) : Option JRec :=
  if s.mode == .brumation || s.drained.contains n || (s.mode == .drain && s.rf (R.TLR_JMBASE (tu n)) F.TLR_JMBASE_PERSIST == 0) then none
  else match s.staging.find? fun r => r.teller == n && r.mirrorOf.isSome with
    | some r =>
      let used := (s.reg (R.TLR_JMHEAD (tu n))).toNat - (s.reg (R.TLR_JMTAIL (tu n))).toNat
      if used + r.len > s.jmSize n then none else some r
    | none => none

/-- A received mirror record r of teller n written, and acknowledged if that was held back (R334). -/
def State.putMirror (s : State) (n : Nat) (r : JRec) : State :=
  let head := (s.reg (R.TLR_JMHEAD (tu n))).toNat
  let s := s.ringWrite n (s.jmBase n) (s.jmSize n) head r.bytes
  let s := s.setReg (R.TLR_JMHEAD (tu n)) (BitVec.ofNat 64 (head + r.len))
  let s := { s with staging := s.staging.erase r }
  match r.mirrorOf with
  | some (p, tx) => if r.needMirror then s.send ⟨p, 0x29, [], false, 0, tx, tu n, 0, r.seq⟩ else s
  | none => s

/-- The received mirror records of teller n that its area has room for are written, where no device of a persistent area has to accept
them (R333, R334). DESIGN CHOICE, log entry 146. -/
def State.writeMirror (s : State) (n : Nat) : State :=
  if s.mirrorKept n then s
  else s.staging.foldl (fun s _ => match s.nextMirror n with | some r => s.putMirror n r | none => s) s

/-- Sequence number and kind of a record's bytes. -/
def recSeq (bs : List Byte) : Word := BitVec.ofNat 64 (bytesNat (bs.take 8))
def recKind (bs : List Byte) : Nat := bytesNat ((bs.drop 16).take 1) % 8

/-- A whole record arrives for the mirror at teller n from socket `so` through port p (R334). The acknowledgement goes out at
once while the area has room and nothing waits ahead, and is held otherwise; with no room in staging, or behind one that waits for it,
the record waits. One already accepted is acknowledged again, when the first is where that is held.
DEDUCED, log entry 46. The area's own fitness is not looked at: DESIGN CHOICE, log entry 141. -/
def State.mirrorReceive (s : State) (n so p tx : Nat) (bs : List Byte) : State :=
  let k := R.TLR_JMBASE (tu n)
  if s.rf k F.TLR_JMBASE_EN ≠ 1 ∨ s.rf k F.TLR_JMBASE_SRCSOCK ≠ so then s.send ⟨p, 0x19, [], false, 0, tx, tu n, 1, 0⟩
  else
    let seq := recSeq bs
    let owed (r : JRec) : Bool := r.teller == n && r.mirrorOf.isSome && r.needMirror && r.seq == seq
    if recKind bs ≤ 4 ∧ s.jSeen.contains (n, seq) then
      if s.staging.any owed then { s with staging := s.staging.map fun r => if owed r then { r with mirrorOf := some (p, tx) } else r }
      else s.send ⟨p, 0x29, [], false, 0, tx, tu n, 0, seq⟩
    else if (s.jWait.any (·.1 == n)) || !s.stagingRoom n bs.length then { s with jWait := s.jWait ++ [(n, so, p, tx, bs)] }
    else
      let full := (s.reg (R.TLR_JMHEAD (tu n))).toNat - (s.reg (R.TLR_JMTAIL (tu n))).toNat + bs.length > s.jmSize n
      let late := s.mode == .brumation || full || s.staging.any fun r => r.teller == n && r.mirrorOf.isSome
      let s := { s with jSeen := if recKind bs ≤ 4 then (n, seq) :: s.jSeen else s.jSeen,
                        staging := s.staging ++ [JRec.mk n bs seq (some (p, tx)) tx false late none] }
      let s := if late then s else s.send ⟨p, 0x29, [], false, 0, tx, tu n, 0, seq⟩
      s.writeMirror n

/-- The device of its local area accepts the next journal write of teller n, or refuses it; a refused write stops the stream's further
ones. DESIGN CHOICE, log entry 140. -/
def State.localAccepted (s : State) (n : Nat) (ok : Bool) : State :=
  if s.mode == .brumation || !s.jLocal n || s.jLocalErr n || s.drained.contains n then s
  else match s.nextLocal n with
    | none => s
    | some r =>
      if !s.areaRoom n r then s
      else if !ok then s.setRf (R.TLR_JSTAT (tu n)) F.TLR_JSTAT_LOCALERR 1
      else
        let head := (s.reg (R.TLR_JHEAD (tu n))).toNat
        let s := s.ringWrite n (s.jBase n) (s.jSize n) head r.bytes
        let s := s.setReg (R.TLR_JHEAD (tu n)) (BitVec.ofNat 64 (head + r.len))
        let s := { s with staging := s.staging.map fun x => if x = r then { x with written := some (head + r.len) } else x }
        s.journalDirty (s.jBase n)

/-- The device of its persistent mirror area accepts the next record of teller n, or refuses it. DESIGN CHOICE, log entry 146. -/
def State.mirrorAccepted (s : State) (n : Nat) (ok : Bool) : State :=
  if !s.mirrorKept n || s.jLocalErr n then s
  else match s.nextMirror n with
    | none => s
    | some r => if ok then (s.putMirror n r).journalDirty (s.jmBase n) else s.setRf (R.TLR_JSTAT (tu n)) F.TLR_JSTAT_LOCALERR 1

/-- A journal write of teller n is accepted or refused by its device (R333): the next of its local area, or of its persistent mirror area
where the local one has none to write. -/
def State.journalAccepted (s : State) (n : Nat) (ok : Bool) : State :=
  let ready := s.jLocal n && (match s.nextLocal n with | some r => s.areaRoom n r | none => false)
  if ready then s.localAccepted n ok else s.mirrorAccepted n ok

/-- Mirror records that wait for staging room, taken again in order of arrival (R330, R334). -/
def State.mirrorRetry (s : State) : State :=
  if s.mode = .brumation then s else
  s.jWait.foldl (fun s x => s.mirrorReceive x.1 x.2.1 x.2.2.1 x.2.2.2.1 x.2.2.2.2) { s with jWait := [] }

/-! Registers -/

/-- A write of TLR_JBASE or TLR_JSIZE is ignored while LOCAL = 1; of TLR_JMSIZE while the mirror area is enabled. -/
def State.jAreaWrite (s : State) (k : Nat) (v : Word) (enabled : Bool) : State :=
  if enabled then s else s.setRf k ⟨47, 12⟩ (getF v ⟨47, 12⟩)

/-- R338: TLR_JTAIL. -/
def State.jtailWrite (s : State) (n : Nat) (v : Word) : State :=
  let k := R.TLR_JTAIL (tu n)
  if s.jLocal n ∧ (v.toNat > (s.reg (R.TLR_JDUR (tu n))).toNat ∨ v.toNat < (s.reg k).toNat) then s else s.setReg k v

/-- R346: TLR_JMTAIL; room made lets waiting mirror records be written. -/
def State.jmtailWrite (s : State) (n : Nat) (v : Word) : State :=
  let k := R.TLR_JMTAIL (tu n)
  if s.rf (R.TLR_JMBASE (tu n)) F.TLR_JMBASE_EN = 1 then
    if v.toNat > (s.reg (R.TLR_JMHEAD (tu n))).toNat ∨ v.toNat < (s.reg k).toNat then s else (s.setReg k v).writeMirror n
  else s.setReg k v

/-- TLR_JMBASE: the other fields are ignored while EN = 1; setting EN sets JMHEAD := JMTAIL (R334, R346). What is staged for the area when
EN is cleared stays: DESIGN CHOICE, log entry 142. -/
def State.jmbaseWrite (s : State) (n : Nat) (v : Word) : State :=
  let k := R.TLR_JMBASE (tu n)
  let o := s.reg k
  let on := getF o F.TLR_JMBASE_EN = 1
  let en := getF v F.TLR_JMBASE_EN
  let b := if on then o else setF (setF (setF o F.TLR_JMBASE_PERSIST (getF v F.TLR_JMBASE_PERSIST)) F.TLR_JMBASE_SRCSOCK
    (getF v F.TLR_JMBASE_SRCSOCK)) ⟨47, 12⟩ (getF v ⟨47, 12⟩)
  let s := s.setReg k (setF b F.TLR_JMBASE_EN en)
  if en = 1 ∧ ¬ on then
    -- a new stream: nothing of it has been accepted yet
    { s.setReg (R.TLR_JMHEAD (tu n)) (s.reg (R.TLR_JMTAIL (tu n))) with jSeen := s.jSeen.filter (·.1 != n) }
  else if on ∧ en = 0 ∧ !s.jLocal n then
    -- a LOCALERR of the mirror area alone goes with it
    (s.setRf (R.TLR_JSTAT (tu n)) F.TLR_JSTAT_LOCALERR 0).startFlushes
  else s

/-! DRAIN -/

/-- A peer that can still reach this socket holds or awaits the lock of a cell of teller n, whose commit it may send (R319, R328). -/
def State.peerLocks (s : State) (n : Nat) : Bool :=
  (s.cellLocks ++ s.lockWaits).any fun l => s.cellTeller l.line == n && (match l.owner with
    | .peer p _ _ => s.portRuns p && s.portLinked p
    | .posting _ => false)

/-- Something of teller n's stream still has to be staged or written before its SEAL (R339): a number under way, a record not at its
local area, one its mirror has not acknowledged while the path is up, a received one that goes to a persistent area, a peer's lock whose
commit may still come, or no room for the SEAL. -/
def State.sealWaits (s : State) (n : Nat) : Bool :=
  s.peerLocks n ||
    s.promised n != 0 || (s.postings.any fun p => p.lead == n && p.phase == .numbered) ||
    ((s.nextLocal n).isSome && !s.jLocalErr n) ||
    (!s.jMirDown n && s.staging.any fun r => r.teller == n && r.mirrorOf.isNone && r.needMirror) ||
    (s.rf (R.TLR_JMBASE (tu n)) F.TLR_JMBASE_PERSIST == 1 &&
      ((s.jWait.any (·.1 == n)) || s.staging.any fun r => r.teller == n && r.mirrorOf.isSome)) ||
    !s.stagingRoom n 64

/-- The SEAL record of teller n, once, after the last write to each of its targets (R339, R340). DEDUCED, log entry 95. -/
def State.seal (s : State) (n : Nat) : State :=
  if s.mode != .drain || s.drained.contains n || s.sealed.contains n || s.sealWaits n then s
  else
    let t : State := { s.stageMark n 7 (s.jLocal n && !s.jLocalErr n) (s.jMirror n) with sealed := s.sealed ++ [n] }
    -- the final flush of a mirror area follows (R339)
    if s.mirrorKept n then t.journalDirty (s.jmBase n) else t

/-- A flush of the port of the area at `base` is due or in flight. -/
def State.flushDue (s : State) (base : Nat) : Bool :=
  match s.areaPort base with
  | none => false
  | some (g, p) => s.jDirty.contains (g * 8 + p) || s.flushes.any fun f => f.group == g && f.port == p

/-- Teller n is finished: every record staged for its local area and its SEAL are written and the final flush of its targets has completed
(R339); after a failed flush or write it never is (R333, R335). -/
def State.drainOver (s : State) (n : Nat) : Bool :=
  s.sealed.contains n &&
    !((s.staging.any fun r => r.teller == n && r.mirrorOf.isNone && r.needLocal) || (s.jLocal n && s.flushDue (s.jBase n))) &&
    !(s.mirrorKept n && s.flushDue (s.jmBase n))

/-- DRAIN is complete: every teller in service has finished. -/
def State.drainDone (s : State) : Bool := (List.range 16).all fun n => s.drained.contains n || !s.unitUp (tu n)
/-- THERMTRIP_N asserted (R464). -/
def State.tripOut (s : State) : State := { s with pins := { s.pins with thermtrip := true } }

end Sys2Proof.Machine
end

