-- ==== Sys2Proof/Machine/Fp.lean ====
section
/-!
DEFINITION. Floating point as IEEE 754-2019 operations on exact values (R142–R151): formats, the interchange encodings with
densely packed decimal, one rounding function for both radices, and the operations with the flags they raise.
-/
namespace Sys2Proof.Machine

/-! Flags (R152) -/

abbrev Flags8 := BitVec 8
def fNV : Flags8 := 0x01
def fDZ : Flags8 := 0x02
def fOF : Flags8 := 0x04
def fUF : Flags8 := 0x08
def fNX : Flags8 := 0x10
def fDIGIT : Flags8 := 0x20
def fDOVF : Flags8 := 0x40
def fIDIV : Flags8 := 0x80
def flagIf (b : Bool) (f : Flags8) : Flags8 := if b then f else 0

/-! Formats -/

/-- A format: radix, precision, largest exponent, width in bits (R142). -/
structure Fmt where
  dec : Bool
  p : Nat
  emax : Nat
  width : Nat
  deriving DecidableEq, Repr

def binary16 : Fmt := ⟨false, 11, 15, 16⟩
def binary32 : Fmt := ⟨false, 24, 127, 32⟩
def binary64 : Fmt := ⟨false, 53, 1023, 64⟩
def decimal64 : Fmt := ⟨true, 16, 384, 64⟩
def decimal128 : Fmt := ⟨true, 34, 6144, 128⟩

def Fmt.base (f : Fmt) : Nat := if f.dec then 10 else 2
/-- The exponent of the smallest subnormal's coefficient. -/
def Fmt.etiny (f : Fmt) : Int := 2 - (f.emax : Int) - f.p
/-- The largest exponent of a coefficient of p digits. -/
def Fmt.etop (f : Fmt) : Int := (f.emax : Int) + 1 - f.p
/-- The smallest exponent of a normal number. -/
def Fmt.emin (f : Fmt) : Int := 1 - (f.emax : Int)
/-- Exponent-continuation bits of a decimal format (R143). -/
def Fmt.econ (f : Fmt) : Nat := if f.width = 64 then 8 else 12
/-- Trailing significand bits. -/
def Fmt.tbits (f : Fmt) : Nat := if f.dec then (if f.width = 64 then 50 else 110) else f.p - 1
/-- Declets of a decimal format. -/
def Fmt.declets (f : Fmt) : Nat := if f.width = 64 then 5 else 11

/-- A floating-point datum: NaN with sign, signalling and payload; infinity; or ±c × base^e. -/
inductive FpVal where
  | nan (neg sig : Bool) (payload : Nat)
  | inf (neg : Bool)
  | fin (neg : Bool) (c : Nat) (e : Int)
  deriving DecidableEq, Repr

/-- A result with the conditions it raises. -/
structure FpRes where
  v : FpVal
  fl : Flags8
  deriving DecidableEq, Repr

def defNaN : FpVal := .nan false false 0
def invalid : FpRes := ⟨defNaN, fNV⟩

def FpVal.neg : FpVal → Bool
  | .nan n _ _ => n
  | .inf n => n
  | .fin n _ _ => n
def FpVal.isNaN : FpVal → Bool
  | .nan .. => true
  | _ => false
def FpVal.isSNaN : FpVal → Bool
  | .nan _ s _ => s
  | _ => false
def FpVal.isZero : FpVal → Bool
  | .fin _ 0 _ => true
  | _ => false
def FpVal.withNeg (v : FpVal) (n : Bool) : FpVal :=
  match v with
  | .nan _ s p => .nan n s p
  | .inf _ => .inf n
  | .fin _ c e => .fin n c e

/-! Densely packed decimal (IEEE 754-2019 clause 3.5.2, R143) -/

/-- The three digits of a declet, most significant first, as a number 0–999. PRESUMED, log entry 86. -/
def dpdDecode (n : Nat) : Nat :=
  let b (i : Nat) : Nat := n / 2 ^ i % 2
  let three (x y z : Nat) : Nat := 4 * b x + 2 * b y + b z
  let (d2, d1, d0) :=
    if b 3 = 0 then (three 9 8 7, three 6 5 4, three 2 1 0)
    else match 2 * b 2 + b 1 with
      | 0 => (three 9 8 7, three 6 5 4, 8 + b 0)
      | 1 => (three 9 8 7, 8 + b 4, three 6 5 0)
      | 2 => (8 + b 7, three 6 5 4, three 9 8 0)
      | _ => match 2 * b 6 + b 5 with
        | 0 => (8 + b 7, 8 + b 4, three 9 8 0)
        | 1 => (8 + b 7, three 9 8 4, 8 + b 0)
        | 2 => (three 9 8 7, 8 + b 4, 8 + b 0)
        | _ => (8 + b 7, 8 + b 4, 8 + b 0)
  100 * d2 + 10 * d1 + d0

/-- The canonical declet of a number 0–999. PRESUMED, log entry 86. -/
def dpdEncode (n : Nat) : Nat :=
  let d2 := n / 100 % 10
  let d1 := n / 10 % 10
  let d0 := n % 10
  -- the low three bits of a digit, its lowest bit, its middle two bits
  let l (d : Nat) : Nat := d % 8
  let z (d : Nat) : Nat := d % 2
  let m (d : Nat) : Nat := d / 2 % 4
  let pack (x y v w : Nat) : Nat := x * 128 + y * 16 + v * 8 + w
  match d2 / 8, d1 / 8, d0 / 8 with
  | 0, 0, 0 => pack (l d2) (l d1) 0 (l d0)
  | 0, 0, _ => pack (l d2) (l d1) 1 (z d0)
  | 0, _, 0 => pack (l d2) (m d0 * 2 + z d1) 1 (2 + z d0)
  | _, 0, 0 => pack (m d0 * 2 + z d2) (l d1) 1 (4 + z d0)
  | _, _, 0 => pack (m d0 * 2 + z d2) (z d1) 1 (6 + z d0)
  | _, 0, _ => pack (m d1 * 2 + z d2) (2 + z d1) 1 (6 + z d0)
  | 0, _, _ => pack (l d2) (4 + z d1) 1 (6 + z d0)
  | _, _, _ => pack (z d2) (6 + z d1) 1 (6 + z d0)

/-- The value of `n` declets. -/
def dpdRead : Nat → Nat → Nat
  | 0, _ => 0
  | n + 1, t => dpdDecode (t % 1024) + 1000 * dpdRead n (t / 1024)
/-- The `n` low declets of a value. -/
def dpdWrite : Nat → Nat → Nat
  | 0, _ => 0
  | n + 1, v => dpdEncode (v % 1000) + 1024 * dpdWrite n (v / 1000)

/-! Decoding and encoding -/

def decodeBin (f : Fmt) (x : Nat) : FpVal :=
  let t := f.p - 1
  let eb := f.width - 1 - t
  let neg := x / 2 ^ (f.width - 1) % 2 == 1
  let e := x / 2 ^ t % 2 ^ eb
  let m := x % 2 ^ t
  if e = 2 ^ eb - 1 then
    if m = 0 then .inf neg else .nan neg (m / 2 ^ (t - 1) == 0) (m % 2 ^ (t - 1))
  else if e = 0 then .fin neg m f.etiny
  else .fin neg (m + 2 ^ t) (f.etiny + e - 1)

def encodeBin (f : Fmt) (v : FpVal) : Nat :=
  let t := f.p - 1
  let eb := f.width - 1 - t
  let s := b2n v.neg * 2 ^ (f.width - 1)
  match v with
  | .nan _ _ p => s + (2 ^ eb - 1) * 2 ^ t + 2 ^ (t - 1) + p % 2 ^ (t - 1)
  | .inf _ => s + (2 ^ eb - 1) * 2 ^ t
  | .fin _ c e => if c < 2 ^ t then s + c else s + (e - f.etiny + 1).toNat * 2 ^ t + c % 2 ^ t

def decodeDec (f : Fmt) (x : Nat) : FpVal :=
  let t := f.tbits
  let neg := x / 2 ^ (f.width - 1) % 2 == 1
  let g := x / 2 ^ (f.width - 6) % 32
  let con := x / 2 ^ t % 2 ^ f.econ
  let trail := dpdRead f.declets (x % 2 ^ t)
  if g = 31 then .nan neg (con / 2 ^ (f.econ - 1) == 1) trail
  else if g = 30 then .inf neg
  else
    let (top, lead) := if g / 8 < 3 then (g / 8, g % 8) else (g / 2 % 4, 8 + g % 2)
    .fin neg (lead * 10 ^ (3 * f.declets) + trail) ((top * 2 ^ f.econ + con : Nat) + f.etiny)

def encodeDec (f : Fmt) (v : FpVal) : Nat :=
  let t := f.tbits
  let s := b2n v.neg * 2 ^ (f.width - 1)
  match v with
  | .nan _ _ p => s + 31 * 2 ^ (f.width - 6) + dpdWrite f.declets p
  | .inf _ => s + 30 * 2 ^ (f.width - 6)
  | .fin _ c e =>
    let b := (e - f.etiny).toNat
    let lead := c / 10 ^ (3 * f.declets)
    let top := b / 2 ^ f.econ
    let g := if lead < 8 then top * 8 + lead else 24 + top * 2 + lead % 2
    s + g * 2 ^ (f.width - 6) + b % 2 ^ f.econ * 2 ^ t + dpdWrite f.declets c

def Fmt.decode (f : Fmt) (x : Nat) : FpVal := if f.dec then decodeDec f x else decodeBin f x
def Fmt.encode (f : Fmt) (v : FpVal) : Nat := if f.dec then encodeDec f v else encodeBin f v

/-! Digits -/

/-- Decimal digits of n, 0 for 0; exact for numbers below 2^100000. -/
def digits10 (n : Nat) : Nat :=
  if n = 0 then 0
  else
    let e := Nat.log2 n * 30103 / 100000
    if 10 ^ (e + 1) ≤ n then e + 2 else if 10 ^ e ≤ n then e + 1 else e
def bits2 (n : Nat) : Nat := if n = 0 then 0 else Nat.log2 n + 1
def Fmt.digits (f : Fmt) (n : Nat) : Nat := if f.dec then digits10 n else bits2 n

/-- Trailing zero digits of n in base b, at most `fuel`. -/
def trailZeros (b n : Nat) : Nat → Nat
  | 0 => 0
  | k + 1 => if n % b = 0 then 1 + trailZeros b (n / b) k else 0

/-- The integer square root, by bits from 2^k downward. -/
def isqrtBits (n : Nat) : Nat → Nat → Nat
  | 0, r => r
  | k + 1, r => if (r + 2 ^ k) * (r + 2 ^ k) ≤ n then isqrtBits n k (r + 2 ^ k) else isqrtBits n k r
def isqrt (n : Nat) : Nat := isqrtBits n (bits2 n / 2 + 1) 0

/-! Rounding (R144, R145, R148, R149) -/

/-- The rounding modes. -/
inductive RMode where
  | rne | rna | rtz | rup | rdn
  deriving DecidableEq, Repr

/-- The mode of a code 0–4. -/
def RMode.ofCode (n : Nat) : RMode :=
  match n with
  | 0 => .rne | 1 => .rna | 2 => .rtz | 3 => .rup | _ => .rdn

/-- Whether magnitude q with a discarded part rounds up: `half` compares the part with one half (0 below, 1 equal, 2 above),
`rest` says it is not zero. -/
def roundUp (m : RMode) (neg : Bool) (q half : Nat) (rest : Bool) : Bool :=
  match m with
  | .rne => half == 2 || (half == 1 && q % 2 == 1)
  | .rna => half ≥ 1
  | .rtz => false
  | .rup => rest && !neg
  | .rdn => rest && neg

/-- (N + part) ÷ b^k rounded to an integer, where `sticky` says that a part in (0, 1) is there; and whether that was inexact. -/
def dropDigits (b : Nat) (m : RMode) (neg : Bool) (n : Nat) (sticky : Bool) (k : Nat) : Nat × Bool :=
  let d := b ^ k
  let q := n / d
  let r := n % d
  let rest := r != 0 || sticky
  let half : Nat := if 2 * r > d || (2 * r == d && sticky && k != 0) then 2 else if 2 * r == d && k != 0 then 1 else 0
  (if roundUp m neg q half rest then q + 1 else q, rest)

/-- The value an overflow delivers (R149). -/
def overflowVal (f : Fmt) (m : RMode) (neg : Bool) : FpVal :=
  let big : FpVal := .fin neg (f.base ^ f.p - 1) f.etop
  match m with
  | .rne | .rna => .inf neg
  | .rtz => big
  | .rup => if neg then big else .inf neg
  | .rdn => if neg then .inf neg else big

def clampI (lo hi x : Int) : Int := if x < lo then lo else if hi < x then hi else x

/-- A zero of the preferred exponent, clamped (R145). -/
def zeroVal (f : Fmt) (neg : Bool) (pref : Int) : FpVal :=
  .fin neg 0 (if f.dec then clampI f.etiny f.etop pref else f.etiny)

/-- Coefficient q at exponent e, q ≤ base^p, put in range: a coefficient of base^p becomes base^(p−1). -/
def renorm (f : Fmt) (q : Nat) (e : Int) : Nat × Int := if q = f.base ^ f.p then (q / f.base, e + 1) else (q, e)

/-- ±(n + part) × base^e delivered in format f, with preferred exponent `pref` for exact decimal results. `sticky` says that a
part in (0, 1) is there; n then has at least p + 2 digits. PRESUMED, log entry 86. -/
def roundTo (f : Fmt) (m : RMode) (neg : Bool) (n : Nat) (e : Int) (sticky : Bool) (pref : Int) : FpRes :=
  if n = 0 ∧ !sticky then ⟨zeroVal f neg pref, 0⟩
  else
    -- a value far below the smallest subnormal rounds as any other such value does
    let small := e + f.digits n < f.etiny - 3
    let n := if small then 1 else n
    let e := if small then f.etiny - 3 else e
    let sticky := sticky || small
    let d := f.digits n
    let lo := max f.etiny (e + d - f.p)
    if e + d - f.p > f.etop then ⟨overflowVal f m neg, fOF ||| fNX⟩
    else
      let exact := !sticky && (decide (lo ≤ e) || n % f.base ^ (lo - e).toNat == 0)
      if exact then
        let tz := trailZeros f.base n d
        let hi := min f.etop (e + tz)
        let t := if f.dec then clampI lo (max lo hi) pref else lo
        let c := if t ≤ e then n * f.base ^ (e - t).toNat else n / f.base ^ (t - e).toNat
        ⟨.fin neg c t, 0⟩
      else
        let (q, _) := dropDigits f.base m neg n sticky (lo - e).toNat
        let (q, e1) := renorm f q lo
        -- tininess after rounding: the value rounded to p digits with no exponent bound
        let ulo := e + d - f.p
        let (uq, ue) := if ulo ≤ e then (n * f.base ^ (e - ulo).toNat, ulo)
          else renorm f (dropDigits f.base m neg n sticky (ulo - e).toNat).1 ulo
        let tiny := ue + f.digits uq - 1 < f.emin
        if e1 > f.etop then ⟨overflowVal f m neg, fOF ||| fNX⟩
        else ⟨.fin neg q e1, fNX ||| flagIf tiny fUF⟩

/-! NaN operands (R150) -/

/-- The result for operands among which there is a NaN: the first NaN, quiet. -/
def nanOf (ops : List FpVal) : FpRes :=
  let fl := flagIf (ops.any FpVal.isSNaN) fNV
  match ops.find? FpVal.isNaN with
  | some (.nan n _ p) => ⟨.nan n false p, fl⟩
  | _ => ⟨defNaN, fl⟩

/-! Operations. All take the format and mode first; operands are data of the format. -/

def expOf : FpVal → Int
  | .fin _ _ e => e
  | _ => 0

/-- x + y exactly, for finite operands, as sign, coefficient, exponent; the sign of an exact zero follows R149.
PRESUMED, log entry 86. -/
def addExact (b : Nat) (m : RMode) (xn : Bool) (xc : Nat) (xe : Int) (yn : Bool) (yc : Nat) (ye : Int) : Bool × Nat × Int :=
  let e := min xe ye
  let sx : Int := (if xn then -1 else 1) * (xc * b ^ (xe - e).toNat : Nat)
  let sy : Int := (if yn then -1 else 1) * (yc * b ^ (ye - e).toNat : Nat)
  let t := sx + sy
  let neg := if t = 0 then (if xn = yn then xn else m == .rdn) else decide (t < 0)
  (neg, t.natAbs, e)

/-- x + y: the exact sum, rounded once. -/
def fpAdd (f : Fmt) (m : RMode) (x y : FpVal) : FpRes :=
  match x, y with
  | .fin xn xc xe, .fin yn yc ye =>
    let (n, c, e) := addExact f.base m xn xc xe yn yc ye
    roundTo f m n c e false e
  | .inf xn, .inf yn => if xn = yn then ⟨.inf xn, 0⟩ else invalid
  | .inf xn, .fin .. => ⟨.inf xn, 0⟩
  | .fin .., .inf yn => ⟨.inf yn, 0⟩
  | _, _ => nanOf [x, y]

/-- DEDUCED, log entry 28. -/
def FpVal.flip (v : FpVal) : FpVal := v.withNeg (!v.neg)

def fpSub (f : Fmt) (m : RMode) (x y : FpVal) : FpRes :=
  if x.isNaN || y.isNaN then nanOf [x, y] else fpAdd f m x y.flip

def fpMul (f : Fmt) (m : RMode) (x y : FpVal) : FpRes :=
  if x.isNaN || y.isNaN then nanOf [x, y]
  else
    let n := x.neg != y.neg
    match x, y with
    | .fin _ xc xe, .fin _ yc ye => roundTo f m n (xc * yc) (xe + ye) false (xe + ye)
    | _, _ => if x.isZero || y.isZero then invalid else ⟨.inf n, 0⟩

/-- xc ÷ yc × base^e, with enough digits for rounding to p. -/
def divDigits (f : Fmt) (xc yc : Nat) : Nat × Bool × Nat :=
  let k := f.p + 3 + f.digits yc - min (f.digits yc + f.p + 3) (f.digits xc)
  let num := xc * f.base ^ k
  (num / yc, num % yc != 0, k)

/-- DEDUCED, log entry 27. -/
def fpDiv (f : Fmt) (m : RMode) (x y : FpVal) : FpRes :=
  if x.isNaN || y.isNaN then nanOf [x, y]
  else
    let n := x.neg != y.neg
    match x, y with
    | .inf _, .inf _ => invalid
    | .inf _, _ => ⟨.inf n, 0⟩
    | _, .inf _ => ⟨zeroVal f n f.etiny, 0⟩
    | .fin _ xc xe, .fin _ yc ye =>
      if yc = 0 then (if xc = 0 then invalid else ⟨.inf n, fDZ⟩)
      else if xc = 0 then ⟨zeroVal f n (xe - ye), 0⟩
      else
        let (q, st, k) := divDigits f xc yc
        roundTo f m n q (xe - ye - k) st (xe - ye)
    | _, _ => invalid

def fpSqrt (f : Fmt) (m : RMode) (x : FpVal) : FpRes :=
  match x with
  | .nan .. => nanOf [x]
  | .inf n => if n then invalid else ⟨.inf false, 0⟩
  | .fin n c e =>
    if c = 0 then ⟨zeroVal f n (e / 2), 0⟩
    else if n then invalid
    else
      let (c1, e1) := if e % 2 = 0 then (c, e) else (c * f.base, e - 1)
      let k := f.p + 3
      let r := c1 * f.base ^ (2 * k)
      let q := isqrt r
      roundTo f m false q (e1 / 2 - k) (q * q != r) (e / 2)

/-- x × y + z, rounded once (R147). DEDUCED, log entry 28. -/
def fpFma (f : Fmt) (m : RMode) (x y z : FpVal) : FpRes :=
  let zeroInf := (x.isZero && (match y with | .inf _ => true | _ => false)) ||
    (y.isZero && (match x with | .inf _ => true | _ => false))
  if x.isNaN || y.isNaN || z.isNaN then
    let r := nanOf [x, y, z]
    { r with fl := r.fl ||| flagIf zeroInf fNV }
  else if zeroInf then invalid
  else
    let pn := x.neg != y.neg
    match x, y, z with
    | .fin _ xc xe, .fin _ yc ye, .fin zn zc ze =>
      let (n, c, e) := addExact f.base m pn (xc * yc) (xe + ye) zn zc ze
      roundTo f m n c e false e
    | .fin .., .fin .., _ => ⟨z, 0⟩
    | _, _, .inf zn => if zn = pn then ⟨.inf pn, 0⟩ else invalid
    | _, _, _ => ⟨.inf pn, 0⟩

/-! Comparison -/

/-- The order of two data that are no NaNs, as −1, 0 or 1. -/
def fpCmp (b : Nat) (x y : FpVal) : Int :=
  match x, y with
  | .inf xn, .inf yn => if xn = yn then 0 else if xn then -1 else 1
  | .inf xn, _ => if xn then -1 else 1
  | _, .inf yn => if yn then 1 else -1
  | .fin xn xc xe, .fin yn yc ye =>
    let e := min xe ye
    let sx : Int := (if xn then -1 else 1) * (xc * b ^ (xe - e).toNat : Nat)
    let sy : Int := (if yn then -1 else 1) * (yc * b ^ (ye - e).toNat : Nat)
    if sx < sy then -1 else if sx = sy then 0 else 1
  | _, _ => 0

/-- minimumNumber (max = false) or maximumNumber (R146). DEDUCED, log entry 19. -/
def fpMinMax (f : Fmt) (max : Bool) (x y : FpVal) : FpRes :=
  let fl := flagIf (x.isSNaN || y.isSNaN) fNV
  if x.isNaN && y.isNaN then nanOf [x, y]
  else if x.isNaN then ⟨y, fl⟩
  else if y.isNaN then ⟨x, fl⟩
  else
    let c := fpCmp f.base x y
    let pickX :=
      if c ≠ 0 then decide (c < 0) != max
      else if x.neg != y.neg then x.neg != max
      else x == y || Config.freePick (f.encode x) (f.encode y)
    ⟨if pickX then x else y, fl⟩

/-- The relations of CEQ, CLT, CLE, CUN: result and flags. -/
def fpRel (f : Fmt) (signalling : Bool) (p : Int → Bool) (x y : FpVal) : Bool × Flags8 :=
  if x.isNaN || y.isNaN then (false, flagIf (signalling || x.isSNaN || y.isSNaN) fNV)
  else (p (fpCmp f.base x y), 0)

/-- The bit CLASS sets (R146). -/
def fpClass (f : Fmt) (x : FpVal) : Nat :=
  match x with
  | .nan _ s _ => if s then 0 else 1
  | .inf n => if n then 2 else 9
  | .fin n c e =>
    if c = 0 then (if n then 5 else 6)
    else if e + f.digits c - 1 < f.emin then (if n then 4 else 7)
    else (if n then 3 else 8)

/-! Conversions -/

/-- CVTW between the widths of a family (R146, R150). -/
def fpCvtw (src dst : Fmt) (m : RMode) (x : FpVal) : FpRes :=
  match x with
  | .nan n s p =>
    let p' :=
      if src.dec then (if p < 10 ^ (dst.p - 1) then p else 0)
      else if dst.p > src.p then p * 2 ^ (dst.p - src.p) else p / 2 ^ (src.p - dst.p)
    ⟨.nan n false p', flagIf s fNV⟩
  | .inf n => ⟨.inf n, 0⟩
  | .fin n c e => roundTo dst m n c e false e

/-- CVTX between the families (R146, R150). DEDUCED, log entry 27. -/
def fpCvtx (src dst : Fmt) (m : RMode) (x : FpVal) : FpRes :=
  match x with
  | .nan n s _ => ⟨.nan n false 0, flagIf s fNV⟩
  | .inf n => ⟨.inf n, 0⟩
  | .fin n c e =>
    if src.dec then
      if e ≥ 0 then roundTo dst m n (c * 10 ^ e.toNat) 0 false 0
      else
        let den := 10 ^ (-e).toNat
        let (q, st, k) := divDigits dst c den
        if c = 0 then ⟨zeroVal dst n 0, 0⟩ else roundTo dst m n q (-(k : Int)) st 0
    else
      if e ≥ 0 then roundTo dst m n (c * 2 ^ e.toNat) 0 false 0
      else roundTo dst m n (c * 5 ^ (-e).toNat) e false 0

/-- ±c × base^e rounded to an integer magnitude, and whether inexactly. -/
def toIntMag (f : Fmt) (m : RMode) (n : Bool) (c : Nat) (e : Int) : Nat × Bool :=
  if e ≥ 0 then (c * f.base ^ e.toNat, false) else dropDigits f.base m n c false (-e).toNat

/-- CVTI: to a signed 64-bit integer (R146). -/
def fpCvti (f : Fmt) (m : RMode) (x : FpVal) : Word × Flags8 :=
  let big (n : Bool) : Word × Flags8 := (if n then 0x8000000000000000 else 0x7FFFFFFFFFFFFFFF, fNV)
  match x with
  | .nan .. => (0x8000000000000000, fNV)
  | .inf n => big n
  | .fin n c e =>
    if c ≠ 0 ∧ e + f.digits c > 70 then big n
    else
      let (q, nx) := toIntMag f m n c e
      if (!n && q ≥ 2 ^ 63) || (n && q > 2 ^ 63) then big n
      else (ofInt 64 (if n then -(q : Int) else q), flagIf nx fNX)

/-- CVTFI: from a signed 64-bit integer. -/
def fpCvtfi (f : Fmt) (m : RMode) (x : Word) : FpRes :=
  roundTo f m (decide (x.toInt < 0)) x.toInt.natAbs 0 false 0

/-- roundToIntegralExact. -/
def fpRint (f : Fmt) (m : RMode) (x : FpVal) : FpRes :=
  match x with
  | .nan .. => nanOf [x]
  | .inf _ => ⟨x, 0⟩
  | .fin n c e =>
    if e ≥ 0 then ⟨x, 0⟩
    else
      let (q, nx) := toIntMag f m n c e
      let r := roundTo f m n q 0 false 0
      { r with fl := flagIf nx fNX }

/-- QUANTIZE: x with the exponent of y (R146, R148). -/
def fpQuantize (f : Fmt) (m : RMode) (x y : FpVal) : FpRes :=
  match x, y with
  | .fin n c e, .fin _ _ t =>
    if c ≠ 0 ∧ e + f.digits c - t > f.p then invalid
    else
      let (q, nx) := if t ≤ e then (c * 10 ^ (e - t).toNat, false) else dropDigits 10 m n c false (t - e).toNat
      let q := if c = 0 then 0 else q
      if q ≥ 10 ^ f.p then invalid else ⟨.fin n q t, flagIf nx fNX⟩
  | .inf n, .inf _ => ⟨.inf n, 0⟩
  | _, _ => if x.isNaN || y.isNaN then nanOf [x, y] else invalid

/-- SAMEQ: the same exponent; two infinities and two NaNs have it. DEDUCED, log entry 27. -/
def fpSameq (x y : FpVal) : Bool :=
  match x, y with
  | .fin _ _ e, .fin _ _ e' => e == e'
  | .inf _, .inf _ => true
  | .nan .., .nan .. => true
  | _, _ => false

end Sys2Proof.Machine
end

