-- ==== Sys2Proof/Machine/Packed.lean ====
section
/-!
DEFINITION. Packed decimal operands and results (R137, R138, R141).
-/
namespace Sys2Proof.Machine

/-! Packed forms (R137, R138) -/

def nib (x i : Nat) : Nat := x / 16 ^ i % 16

/-- The value of `n` packed digits. -/
def bcdVal (x : Nat) : Nat → Nat
  | 0 => 0
  | n + 1 => x % 16 + 10 * bcdVal (x / 16) n
/-- All `n` nibbles are digits. -/
def bcdOk (x : Nat) : Nat → Bool
  | 0 => true
  | n + 1 => x % 16 ≤ 9 && bcdOk (x / 16) n
/-- The `n` low digits of v, packed. -/
def bcdEnc (v : Nat) : Nat → Nat
  | 0 => 0
  | n + 1 => v % 10 + 16 * bcdEnc (v / 10) n

/-- u(x), none when invalid. -/
def uVal (x : Word) : Option Nat := if bcdOk x.toNat 16 then some (bcdVal x.toNat 16) else none
/-- The value of a sign nibble applied. -/
def signed (sgn : Nat) (v : Nat) : Option Int := if sgn = 0xC then some v else if sgn = 0xD then some (-(v : Int)) else none
/-- s(x). -/
def sVal (x : Word) : Option Int :=
  if bcdOk (x.toNat / 16) 15 then signed (x.toNat % 16) (bcdVal (x.toNat / 16) 15) else none
/-- q(x), from the low and the high word. -/
def qVal (lo hi : Word) : Option Int :=
  if bcdOk (lo.toNat / 16) 15 && bcdOk hi.toNat 16 then
    signed (lo.toNat % 16) (bcdVal (lo.toNat / 16) 15 + 10 ^ 15 * bcdVal hi.toNat 16)
  else none

/-- U(v mod 10^16). -/
def uEnc (v : Nat) : Word := BitVec.ofNat 64 (bcdEnc v 16)
/-- A magnitude with the sign of t; a zero carries 0xC. -/
def signNib (t : Int) (mag : Nat) : Nat := if t < 0 ∧ mag ≠ 0 then 0xD else 0xC
/-- S(t), with DOVF and the truncated magnitude when it does not fit (R141). -/
def sEnc (t : Int) : Word × Flags8 :=
  let m := t.natAbs % 10 ^ 15
  (BitVec.ofNat 64 (bcdEnc m 15 * 16 + signNib t m), flagIf (t.natAbs ≥ 10 ^ 15) fDOVF)
/-- Q(t) as low and high word, with DOVF. -/
def qEnc (t : Int) : Word × Word × Flags8 :=
  let m := t.natAbs % 10 ^ 31
  (BitVec.ofNat 64 (bcdEnc (m % 10 ^ 15) 15 * 16 + signNib t m), uEnc (m / 10 ^ 15), flagIf (t.natAbs ≥ 10 ^ 31) fDOVF)

def allOnes : Word := 0xFFFFFFFFFFFFFFFF

end Sys2Proof.Machine
end

