-- ==== Sys2Proof/Machine/Teller.lean ====
section
/-!
DEFINITION. Tellers (R291–R320): intake, pre-lock checks, locks, the commit stage, numbers from the ledger sequencer, cell
writes, completion records and submission rings.
-/
namespace Sys2Proof.Machine

/-! Cells (R291–R293) -/

/-- `n` bytes at offset o of a byte list, as a number. -/
def fieldAt (bs : List Byte) (o n : Nat) : Nat := bytesNat ((bs.drop o).take n)
def wordAt (bs : List Byte) (o : Nat) : Word := BitVec.ofNat 64 (fieldAt bs o 8)

def cellBalance (c : List Byte) : Option Int := qVal (wordAt c 0) (wordAt c 8)
def cellHeld (c : List Byte) : Option Int := qVal (wordAt c 16) (wordAt c 24)
def cellFloor (c : List Byte) : Option Int := sVal (wordAt c 32)
def cellCeil (c : List Byte) : Option Int := sVal (wordAt c 40)
def cellLast (c : List Byte) : Word := wordAt c 48
def cellCur (c : List Byte) : Nat := fieldAt c 56 2
def cellFlags (c : List Byte) : Nat := fieldAt c 58 2
def cellFlag (c : List Byte) (i : Nat) : Bool := cellFlags c / 2 ^ i % 2 == 1

/-- R292: the cell's digits are valid. -/
def cellDigits (c : List Byte) : Bool :=
  (cellBalance c).isSome && (match cellHeld c with | some h => decide (0 ≤ h) | none => false) && (cellFloor c).isSome &&
    (cellCeil c).isSome && cellFlags c / 16 == 0
/-- Three BCD digits. -/
def bcd3 (x : Nat) : Bool := bcdOk x 3
/-- R292: the cell's currency is valid. -/
def cellCurOk (c : List Byte) : Bool := bcd3 (cellCur c) && cellCur c / 4096 == 0 && cellCur c != 0

/-- Q(t) as bytes. -/
def quadBytes (t : Int) : List Byte := let r := qEnc t; natBytes 8 r.1.toNat ++ natBytes 8 r.2.1.toNat
/-- R293: the line a teller writes. -/
def newCell (c : List Byte) (bal held : Int) (seq : Word) : List Byte :=
  quadBytes bal ++ quadBytes held ++ (c.drop 32).take 16 ++ natBytes 8 seq.toNat ++ (c.drop 56).take 8

/-! Descriptors (R294) -/

def Posting.postid (p : Posting) : Word := wordAt p.hdr 0
def Posting.ctl (p : Posting) : Nat := fieldAt p.hdr 8 8
def Posting.kind (p : Posting) : Nat := p.ctl % 8
def Posting.dur (p : Posting) : Nat := p.ctl / 8 % 4
def Posting.test (p : Posting) : Bool := p.ctl / 32 % 2 == 1
def Posting.nleg (p : Posting) : Nat := p.ctl / 64 % 16
def Posting.cur (p : Posting) : Nat := p.ctl / 4096 % 4096
def Posting.vdate (p : Posting) : Nat := fieldAt p.hdr 32 4
def Posting.ref (p : Posting) : Word := wordAt p.hdr 40

/-- NLEG of a header, or 0 if it is not 1–8 (R297). -/
def legCount (hdr : List Byte) : Nat :=
  let n := fieldAt hdr 8 8 / 64 % 16
  if 1 ≤ n ∧ n ≤ 8 then n else 0

/-- A leg's amount. -/
def Leg.amt (l : Leg) : Option Int := qVal (l.amount.extractLsb' 0 64) (l.amount.extractLsb' 64 64)

/-- The legs of the bytes after a header, with the tags of their ACOINs. -/
def parseLegs (n : Nat) (bs : List Byte) (tags : List Bool) : List Leg :=
  (List.range n).map fun i =>
    let b := bs.drop (32 * i)
    ⟨⟨BitVec.ofNat 128 (fieldAt b 0 16), tags.getD (2 * i) false⟩, BitVec.ofNat 128 (fieldAt b 16 16), none, [], 0⟩

/-- R310 DESC: a reserved field nonzero, a reserved code, or a field that is not BCD. -/
def Posting.badDesc (p : Posting) : Bool :=
  p.kind ≥ 5 || p.dur == 3 || legCount p.hdr == 0 || p.ctl / 1024 % 4 != 0 || p.ctl / 2 ^ 24 != 0 || !bcd3 p.cur ||
    !bcdOk p.vdate 8 || fieldAt p.hdr 36 4 != 0 || fieldAt p.hdr 48 16 != 0

/-! The postings of the machine -/

def State.postingOf (s : State) (id : Nat) : Option Posting := s.postings.find? (·.id == id)
def State.modPosting (s : State) (id : Nat) (f : Posting → Posting) : State :=
  { s with postings := s.postings.map fun p => if p.id = id then f p else p }
def State.dropPosting (s : State) (id : Nat) : State := { s with postings := s.postings.filter (·.id != id) }

/-- The posting holds a place of its lead (R303). -/
def Posting.placed (p : Posting) : Bool :=
  match p.phase with
  | .sent | .queued _ | .forwarded => false
  | _ => true
def State.places (s : State) (n : Nat) : Nat := (s.postings.filter fun p => p.lead == n && p.placed).length
def State.queuedAt (s : State) (n : Nat) : Nat :=
  (s.postings.filter fun p => p.intake == n && (match p.phase with | .queued _ => true | _ => false)).length

/-- The commit stage of the posting has passed (R318). -/
def Posting.committed (p : Posting) : Bool :=
  match p.phase with
  | .numberReq | .numbered | .committing | .durWait => true
  | .completing => p.status < 0x10
  | _ => false

/-! Checks and translation on a submitter's behalf -/

/-- The outcome of a coin check by a teller. -/
inductive TCheck where
  | ok (a : Nat)
  | coin (c : CoinCause)
  | poison
  | notarget
  deriving DecidableEq, Repr

/-- check(c, o, size, kind) of R50 in a given ring and ASID, the entry read at its home slice (R306). DEDUCED, log entry 47. -/
def State.tCheck (s : State) (c : Coin) (o : Int) (size kind ring asid : Nat) : TCheck :=
  let a := checkAddr c o
  match checkBefore s.ptbCount c with
  | some e => .coin e
  | none => match s.purseRead c.purse with
    | .poison => .poison
    | .notarget => .notarget
    | .ok p => match checkEntry p c a size kind none ring asid with
      | some e => .coin e
      | none => .ok a.toNat

/-- The entry of coin c is read at a home slice where its line is in use: the reader waits (R263, R305). -/
def State.entryHeld (s : State) (c : Coin) : Bool :=
  c.tag && c.purse < s.ptbCount && s.readHeld (s.entryAddr c.purse) 32

def noXlate (_ : Nat) : XCache := ⟨[], []⟩
def State.xcacheOf (s : State) (u : Nat) : XCache := SMap.get noXlate s.xcache u
def State.setXcache (s : State) (u : Nat) (c : XCache) : State := { s with xcache := SMap.set noXlate s.xcache u c }

/-- The entries of the TLB and of the walk cache of unit u: a teller's (R313), a lane group's (R356). -/
def xlateSizes (u : Nat) : Nat × Nat := if u < 0x110 then (512, 16) else (1024, 32)

/-- Translation by unit u with its own cached entries (R313, R356). DEDUCED, log entry 10. DEDUCED, log entry 40. -/
def State.unitXlate (s : State) (u mode root asid ring va : Nat) (a : XAcc) : XRes × State :=
  let c := s.xcacheOf u
  let o := s.translate ⟨mode, root, asid, ring, c.tlb, c.walk, u⟩ va a false
  (o.res, o.s.setXcache u ⟨capTo (xlateSizes u).1 o.s.free o.ctx.tlb, capTo (xlateSizes u).2 o.s.free o.ctx.walk⟩)

/-- The cached leaf that the translation of va used, after it (R314). -/
def State.usedEntry (s : State) (u asid va : Nat) : List TlbEntry :=
  (s.xcacheOf u).tlb.filter fun t => t.vbase == va / pageSize t.level && (t.asid == asid || pteG t.pte)

/-- How a read through a coin ended for a teller. -/
inductive TRead where
  | ok (bs : List Byte) (tags : List Bool)
  | bad
  | wait
  deriving DecidableEq, Repr

/-- 64-byte lines from va on, translated and read as loads of kind 8. -/
def State.tReadLines (s : State) (u mode root asid ring : Nat) (va : Nat) : Nat → TRead × State
  | 0 => (.ok [] [], s)
  | n + 1 =>
    match s.unitXlate u mode root asid ring va (xKind 8 false) with
    | (.ok pa _, s) =>
      match s.physRead pa 64 with
      | .ok bs t =>
        match s.tReadLines u mode root asid ring (va + 64) n with
        | (.ok bs' t', s) => (.ok (bs ++ bs') ((List.range 4).map (bitB t ·) ++ t'), s)
        | r => r
      | .wait =>
        match s.takeReply u 0x01 (pa / 64 * 64) with
        | (some _, s) => (.bad, s)
        | (none, s) => (.wait, s.fetchRemote pa u false)
      | _ => (.bad, s)
    | (.wait, s) => (.wait, s)
    | (_, s) => (.bad, s)

/-- Lines covering `n` bytes. -/
def lineCount (n : Nat) : Nat := (n + 63) / 64

/-! Completion (R301, R302) -/

/-- RING and SLOT of TLR_LASTERR for a posting. -/
def Posting.ringNo (p : Posting) : Nat := match p.origin with | .slot r _ => r | _ => 16
def Posting.slotNo (p : Posting) : Nat := match p.origin with | .slot _ i => i % 65536 | _ => 0

/-- The posting's completion record, of index `i`, is lost, and the posting ends (R301). An index never read is a free value in
TLR_LASTERR. DESIGN CHOICE, log entry 112. -/
def State.loseRecord (s : State) (p : Posting) (i : Option Nat) : State :=
  let s := if i.isNone then s.bumpFree else s
  ((s.incRf (R.TLR_STAT (tu p.lead)) F.TLR_STAT_CRLOST).lastErr p.lead 0x32 0 p.ringNo ((i.getD (Config.freeNat (s.free - 1))) % 65536)).dropPosting p.id

/-- A write by a unit at a physical address, tags cleared: none where the line of a peer is not held exclusive yet. -/
inductive UWrite where
  | done (s : State)
  /-- no target, refused by the peer, or refused in part by R47 -/
  | failed (s : State)
  | wait (s : State)
  deriving DecidableEq, Repr

def State.unitWrite (s : State) (u pa : Nat) (bs : List Byte) : UWrite :=
  match s.target pa with
  | .local a _ _ =>
    if s.writeHeld a bs.length then .wait s
    else let r := s.localWrite a bs .clear true none; if r.refused then .failed r.s else .done r.s
  | .window so _ =>
    if (s.portVia so pa).isNone then .failed s
    else match s.rlineAt pa with
      | some l => if l.excl then
          .done (s.setRLine pa bs ((granules (pa % 64) bs.length).foldl (fun (t : BitVec 4) g => setF t ⟨g / 16, g / 16⟩ 0) l.tags))
        else match s.takeReply u 0x02 (pa / 64 * 64) with
          | (some _, s) => .failed s
          | (none, s) => .wait (s.fetchRemote pa u true)
      | none => match s.takeReply u 0x02 (pa / 64 * 64) with
        | (some _, s) => .failed s
        | (none, s) => .wait (s.fetchRemote pa u true)
  | _ => .failed s

/-- The record of R302 with PHASE 0. -/
def Posting.record (p : Posting) (now : Word) : List Byte :=
  let rej := p.status ≥ 0x10
  let info := p.status % 256 + p.leg % 16 * 2 ^ 8 + p.cause % 16 * 2 ^ 12 + p.lead % 16 * 2 ^ 16 + (if rej then 0 else p.dur) * 2 ^ 20
  natBytes 8 p.postid.toNat ++ natBytes 8 (if rej then 0 else p.seq.toNat) ++ natBytes 8 info ++ natBytes 8 now.toNat

/-- One step of complete() (R301). -/
inductive ComplRes where
  /-- on to the next step, through these cached leaves -/
  | go (s : State) (next : CrStage) (used : List TlbEntry)
  | written (s : State)
  /-- the ring is full at PROD = i -/
  | full (i : Nat)
  /-- lost, with the completion index if one was read -/
  | lost (s : State) (i : Option Nat)
  | wait (s : State)
  deriving DecidableEq, Repr

/-- A place of p's completion ring checked, and translated by its lead: r, offset, size and kind as R301 has them; `go` takes the
physical address. -/
def State.crXlate (s : State) (p : Posting) (o : Int) (size kind : Nat) (i : Option Nat) (go : State → Nat → List TlbEntry → ComplRes) : ComplRes :=
  let u := tu p.lead
  if s.entryHeld p.crcoin then .wait s
  else match s.tCheck p.crcoin o size kind p.ring p.asid with
  | .ok va =>
    if va % size ≠ 0 then .lost s i
    else match s.unitXlate u p.mode p.root p.asid p.ring va (xKind kind false) with
    | (.ok pa _, s) => go s pa (s.usedEntry u p.asid va)
    | (.wait, s) => .wait s
    | (_, s) => .lost s i
  | _ => .lost s i

/-- The reservation at the header's home slice (R301). -/
def State.crReserve (s : State) (p : Posting) (pa : Nat) : ComplRes :=
  let u := tu p.lead
  match s.physRead pa 64 with
  | .wait => match s.takeReply u 0x02 (pa / 64 * 64) with
    | (some _, s) => .lost s none
    | (none, s) => .wait (s.fetchRemote pa u true)
  | .ok h _ =>
    let prod := fieldAt h 0 8
    let cons := fieldAt h 8 8
    let cfg := fieldAt h 16 8
    let lg := cfg % 32
    if lg < 4 ∨ lg > 16 ∨ cfg / 2 ^ 13 ≠ 0 then .lost s (some prod)
    else if ¬ (prod + 2 ^ 64 - cons) % 2 ^ 64 < 2 ^ lg then .full prod
    else match s.unitWrite u pa (natBytes 8 ((prod + 1) % 2 ^ 64)) with
      | .failed s => .lost s (some prod)
      | .wait s => .wait s
      | .done t => .go (t.finishSince s.nextId) (.slot prod cfg) []
  | _ => .lost s none

/-- The record with its PHASE (R302). -/
def Posting.phased (p : Posting) (prod cfg : Nat) : List Byte :=
  let r := p.record p.time
  r.take 23 ++ [r.getD 23 0 ||| BitVec.ofNat 8 ((prod / 2 ^ (cfg % 32) + 1) % 2 * 128)] ++ r.drop 24

/-- The step of complete() that the posting's record has come to. -/
def State.tryComplete (s : State) (p : Posting) : ComplRes :=
  match p.cr with
  | .check => s.crXlate p 0 64 2 none fun s pa used => .go s (.header pa) used
  | .header pa => s.crReserve p pa
  | .slot prod cfg => s.crXlate p (64 + 32 * (prod % 2 ^ (cfg % 32))) 32 9 (some prod) fun s pa used => .go s (.record prod cfg pa) used
  | .record prod cfg pa =>
    match s.unitWrite (tu p.lead) pa (p.phased prod cfg) with
    | .failed s => .lost s (some prod)
    | .wait s => .wait s
    | .done t =>
      let s := t.finishSince s.nextId
      .written (if cfg / 2 ^ 12 % 2 = 1 then s.firePriv (cfg / 32 % 128) (8 + p.lead) else s)

/-- Only the requests sent to peers and the free-value counter survive an attempt that has to wait. -/
def State.keepRequests (s0 s1 : State) : State :=
  { s0 with peerTx := s1.peerTx, peerOut := s1.peerOut, nextId := s1.nextId, free := s1.free,
            rlines := s0.linesLeft s1 }

/-- The record of a completing posting carried on for at most `fuel` steps: written or lost it ends; in a full ring it waits, to repeat
its reservation alone, unless a fence covers it (R301, R318). -/
def State.completeOn (s : State) (id : Nat) : Nat → State
  | 0 => s
  | fuel + 1 =>
    match s.postingOf id with
    | none => s
    | some p => match s.tryComplete p with
      | .go s next used => (s.modPosting id fun p => { p with cr := next, crUsed := p.crUsed ++ used }).completeOn id fuel
      | .written s => s.dropPosting id
      | .lost s i => s.loseRecord p i
      | .full i => if p.covered then s.loseRecord p (some i) else s
      | .wait s' => s.keepRequests s'

/-- The posting's record is attempted; in DRAIN none is written (R339). -/
def State.completeNow (s : State) (id : Nat) : State :=
  let s := s.modPosting id fun p => { p with phase := .completing }
  if s.mode = .drain then s else s.completeOn id 4

end Sys2Proof.Machine
end

