-- ==== Sys2Proof/Machine/Posting.lean ====
section
/-!
DEFINITION. The course of a posting (R303–R320): intake, pre-lock checks, locks, commit stage, number, cell writes and their
acknowledgements; the ledger sequencer (R311, R312); the teller's registers (R298, R299, R314).
-/
namespace Sys2Proof.Machine

/-! Lines -/

/-- What makes two leg addresses one cell line: the local address, or the window address. -/
def State.lineId (s : State) (pa : Nat) : Nat := (s.localOf pa).getD pa / 64 * 64

/-- The legs of a posting as (line address, leg number) in ascending physical address (R304). -/
def insLeg (x : Nat × Nat) : List (Nat × Nat) → List (Nat × Nat)
  | [] => [x]
  | y :: r => if x.1 < y.1 then x :: y :: r else y :: insLeg x r
def Posting.order (p : Posting) : List (Nat × Nat) :=
  (p.legs.zipIdx.filterMap fun x => x.1.pa.map fun a => (a / 64 * 64, x.2)).foldr insLeg []

/-- The home teller of a physical line, if the line is local. -/
def State.homeTeller (s : State) (pa : Nat) : Option Nat :=
  match s.target pa with
  | .local _ h _ => some h
  | _ => none

def Posting.modLeg (p : Posting) (i : Nat) (f : Leg → Leg) : Posting := { p with legs := p.legs.modify i f }

/-! Messages in order (R260) -/

/-- Posting `id` changed by f, which sends a message for it: messages are numbered in the order sent. -/
def State.message (s : State) (id : Nat) (f : Posting → Posting) : State :=
  { s.modPosting id (fun p => { f p with sent := s.nextId }) with nextId := s.nextId + 1 }

/-- The home teller of the line that posting p asks for or is granted. -/
def State.lockHome (s : State) (p : Posting) : Option Nat :=
  match p.phase with
  | .lockReq i | .granted i => (p.order[i]?).bind fun x => (s.localOf x.1).map s.cellTeller
  | _ => none

/-- Between the message of posting q and that of p the mesh keeps the order: the same kind, of the same class, from the same stop to the
same stop. A number request that waits for staging room has not been sent (R331). DEDUCED, log entry 145. -/
def State.samePath (s : State) (q p : Posting) : Bool :=
  q.lead == p.lead && (match q.phase, p.phase with
    | .lockReq _, .lockReq _ => (s.lockHome p).isSome && s.lockHome q == s.lockHome p && !s.lockWaits.any (·.owner == .posting q.id)
    | .granted _, .granted _ => (s.lockHome p).isSome && s.lockHome q == s.lockHome p
    | .numberReq, .numberReq => !q.stalled
    | .numbered, .numbered => true
    | _, _ => false)

/-- Posting p's message has not been overtaken: none sent before it on its path is still under way. -/
def State.inOrder (s : State) (p : Posting) : Bool := !s.postings.any fun q => q.id != p.id && q.sent < p.sent && s.samePath q p

/-- Commits and acknowledgements go in order of the postings' numbers between a lead and a home teller of this socket (R260). -/
def State.cellInOrder (s : State) (p : Posting) (pa : Nat) (of : Posting → List Nat) : Bool :=
  let home (a : Nat) : Option Nat := (s.localOf a).map s.cellTeller
  (home pa).isNone || (of p).find? (fun a => home a == home pa) == some pa &&
    !s.postings.any fun q => q.lead == p.lead && q.seq.toNat < p.seq.toNat && (of q).any fun a => home a == home pa

/-! Locks (R304, R305) -/

/-- A handover of teller n, or its reversal, is under way (R431). -/
def State.handing (s : State) (n : Nat) : Bool := s.unitOps.any fun o =>
  o.unit == tu n && ((o.op == 6 && s.unitState (tu n) != 7) || (o.op == 2 && s.unitState (tu n) == 7))
/-- Cell lines locked at teller n. -/
def State.locksAt (s : State) (n : Nat) : Nat := (s.cellLocks.filter fun l => s.cellTeller l.line == n).length
/-- New lock requests for slice n wait: the postings at its teller have completed for a handover, or it is being reversed (R431).
DEDUCED, log entry 69. -/
def State.lockHeld (s : State) (n : Nat) : Bool :=
  s.handing n && (s.unitState (tu n) == 7 || !s.postings.any fun p => p.lead == n && p.placed)

/-- A lock granted: a posting of this socket sees the grant on its way, a peer is sent LGR with the cell (R319). -/
def State.grantLock (s : State) (l : CellLock) : State :=
  let s := { s with cellLocks := s.cellLocks ++ [l] }
  match l.owner with
  | .posting id => s.message id fun p => match p.phase with | .lockReq i => { p with phase := .granted i } | _ => p
  | .peer port tx _ => s.send ⟨port, 0x21, s.readBytes l.line 64, s.poisoned l.line, 0, tx, tu (s.cellTeller l.line), 0, BitVec.ofNat 64 l.line⟩

/-- The line can be locked: it is free, the lock SRAM has room, and no peer holds the line (R304, R376). -/
def State.lockable (s : State) (line : Nat) : Bool :=
  !(s.cellLocks.any (·.line == line)) && s.locksAt (s.cellTeller line) < 1024 && (s.peersOf line).who == 0 &&
    !s.lockHeld (s.home line)

/-- A lock request at its home teller: granted when the line is free and the lock SRAM has room, else it waits. -/
def State.requestLock (s : State) (l : CellLock) : State :=
  if !s.lockable l.line then ({ s with lockWaits := s.lockWaits ++ [l] } : State).count (tu (s.cellTeller l.line)) 0x14 1
  else s.grantLock l

/-- The first waiting request that can be granted now is granted, `fuel` times. -/
def State.grantWaiting (s : State) : Nat → State
  | 0 => s
  | n + 1 =>
    match s.lockWaits.find? fun l => s.lockable l.line with
    | none => s
    | some l => (({ s with lockWaits := s.lockWaits.erase l } : State).grantLock l).grantWaiting n

/-- A line unlocked; waiting requests are granted in order of arrival (R305). -/
def State.unlock (s : State) (line : Nat) (o : LockOwner) : State :=
  ({ s with cellLocks := s.cellLocks.filter fun l => !(l.line == line && l.owner == o) } : State).grantWaiting s.lockWaits.length

/-- A posting gives up its locks: its lead's own lines at once, other tellers' by a release on its way, peers' by REL. -/
def State.releaseAll (s : State) (p : Posting) : State :=
  let o := LockOwner.posting p.id
  let s := { s with lockWaits := s.lockWaits.filter (·.owner != o) }
  let mine := s.cellLocks.filter (·.owner == o)
  let s := { s with lockRels := s.lockRels ++ mine.filter fun l => s.cellTeller l.line != p.lead }
  let s := (mine.filter fun l => s.cellTeller l.line == p.lead).foldl (fun s l => s.unlock l.line o) s
  p.legs.foldl (fun s l =>
    match l.txid, l.pa with
    | 0, _ => s
    | tx, some pa => match s.target pa with
      | .window so a => match s.portTo so with
        | some port => s.send ⟨port, 0x23, [], false, 0, tx, tu p.lead, 0, BitVec.ofNat 64 a⟩
        | none => s
      | _ => s
    | _, none => s) s

/-! Rejection -/

/-- The posting is rejected: its locks are released, nothing else changes, its record is completed at once (R306, R308). -/
def State.reject (s : State) (id status leg cause : Nat) : State :=
  match s.postingOf id with
  | none => s
  | some p =>
    let s := s.releaseAll p
    let s := s.modPosting id fun p => { p with status := status, leg := leg, cause := cause,
                                               -- TIME is that of the decision: a pre-lock rejection was decided at intake (R302)
                                               time := if p.status ≥ 0x10 then p.time else s.time,
                                               legs := p.legs.map fun l => { l with txid := 0 } }
    (s.count (tu p.lead) 0x13 1).completeNow id

/-- The least (status, leg, cause) of R309 among the conditions met. -/
def leastCond (cs : List (Nat × Nat × Nat)) : Option (Nat × Nat × Nat) :=
  cs.foldl (fun b c => match b with
    | none => some c
    | some x => if c.1 < x.1 ∨ (c.1 = x.1 ∧ c.2.1 < x.2.1) then some c else some x) none

/-! Pre-lock checks (R310) -/

/-- The translation of leg i by the intake teller: the leg with its line, or the XLATE cause. -/
inductive LegXlate where
  | ok (pa : Nat)
  | bad (cause : Nat)
  | wait
  deriving DecidableEq, Repr

/-- DEDUCED, log entry 40. DEDUCED, log entry 94. -/
def State.legXlate (s : State) (p : Posting) (l : Leg) : LegXlate × State :=
  let va := l.coin.cursor.toNat
  let kind := match l.amt with | some a => if 0 < a then 11 else 10 | none => 10
  match s.unitXlate (tu p.intake) p.mode p.root p.asid p.ring va (xKind kind false) with
  | (.ok pa _, s) => (if va % 64 ≠ 0 then .bad 9 else .ok pa, s)
  | (.fault f, s) => (.bad f.cause.code, s)
  | (.bus _ _, s) => (.bad 0, s)
  | (.wait, s) => (.wait, s)

/-- Every leg translated in turn: (number, outcome) pairs and the entries used; none to wait. -/
def State.xlateLegs (s : State) (p : Posting) : List (Leg × Nat) → Option (List (Nat × LegXlate) × List TlbEntry) × State
  | [] => (some ([], []), s)
  | (l, i) :: r =>
    match s.legXlate p l with
    | (.wait, s) => (none, s)
    | (x, s) =>
      let u := s.usedEntry (tu p.intake) p.asid l.coin.cursor.toNat
      match s.xlateLegs p r with
      | (some (xs, us), s) => (some ((i, x) :: xs, u ++ us), s)
      | (none, s) => (none, s)

/-- R332: the class has a journal target configured. -/
def State.classOk (s : State) (n dur : Nat) : Bool :=
  match dur with
  | 0 => s.jLocal n || s.jMirror n
  | 1 => s.jLocal n && !s.jLocalErr n
  | 2 => s.jMirror n && !s.jMirDown n
  | _ => true

/-- The conditions of the pre-lock stage that the posting meets, as (status, leg, cause). DEDUCED, log entry 41. -/
def State.preConds (s : State) (p : Posting) (lead : Nat) (xs : List (Nat × LegXlate)) : List (Nat × Nat × Nat) :=
  let legs := p.legs.zipIdx
  let pas := xs.filterMap fun x => match x.2 with | .ok pa => some (x.1, s.lineId pa) | _ => none
  (if p.badDesc then [(0x10, 15, 0)] else []) ++
  (if p.kind = 4 ∧ p.ring ≠ 0 then [(0x11, 15, 0)] else []) ++
  (if p.diag ∧ ¬ p.test then [(0x12, 15, 0)] else []) ++
  (legs.filterMap fun x => match x.1.amt with
    | none => some (0x13, x.2, 0)
    | some a => if a = 0 ∨ (a > 0 ∧ (p.kind = 1 ∨ p.kind = 2)) then some (0x13, x.2, 0) else none) ++
  (legs.filterMap fun x => if x.1.coin.tag then none else some (0x14, x.2, 1)) ++
  (xs.filterMap fun x => match x.2 with | .bad c => some (0x15, x.1, c) | _ => none) ++
  (pas.filterMap fun x => if pas.any fun y => y.1 != x.1 && y.2 == x.2 then some (0x16, x.1, 0) else none) ++
  (if s.classOk lead p.dur then [] else [(0x17, 15, 0)])

/-! The commit stage (R296, R306, R310) -/

/-- What a leg does to its cell: the new BALANCE and HELD (R296). -/
def legEffect (kind : Nat) (a bal held : Int) : Int × Int :=
  match kind with
  | 1 => (bal, if a < 0 then held - a else held)
  | 2 => (bal, if a < 0 then held + a else held)
  | 3 => (bal + a, if a < 0 then held + a else held)
  | _ => (bal + a, held)

/-- 10^31 − 1, the largest magnitude of a quad. -/
def quadMax : Int := 10 ^ 31 - 1

/-- The conditions of the commit stage that leg i meets by its cell. -/
def Posting.cellConds (p : Posting) (l : Leg) (i : Nat) : List (Nat × Nat × Nat) :=
  let c := l.cell
  let st (n : Nat) : List (Nat × Nat × Nat) := [(n, i, 0)]
  (if cellFlag c 1 != p.test then st 0x1A else []) ++
  (if cellFlag c 0 && p.kind != 4 then st 0x1B else []) ++
  (if !cellCurOk c || (p.cur != 0 && cellCur c != p.cur) then st 0x1C else []) ++
  (if !cellDigits c then st 0x1D else
    match l.amt, cellBalance c, cellHeld c, cellFloor c, cellCeil c with
    | some a, some bal, some held, some fl, some ce =>
      let (b', h') := legEffect p.kind a bal held
      let debit := decide (a < 0)
      (if (p.kind = 2 ∨ p.kind = 3) ∧ h' < 0 then st 0x1F else []) ++
      (if debit && (p.kind == 0 || p.kind == 1) && !cellFlag c 2 && decide (b' - h' < fl) then st 0x20 else []) ++
      (if !debit && (p.kind == 0 || p.kind == 3) && !cellFlag c 3 && decide (b' > ce) then st 0x21 else []) ++
      (if b'.natAbs > quadMax.toNat || h'.natAbs > quadMax.toNat then st 0x22 else [])
    | _, _, _, _, _ => [])

/-- R296: for each currency the amounts add up to zero. -/
def Posting.balanced (p : Posting) : Bool :=
  p.legs.all fun l =>
    ((p.legs.filter fun m => cellCur m.cell == cellCur l.cell).map fun m => m.amt.getD 0).sum == 0

/-- The conditions of the coin checks of the commit stage (R306): LEGCOIN, and NOTARGET or POISON of a purse read. -/
def State.coinConds (s : State) (p : Posting) : List (Nat × Nat × Nat) :=
  p.legs.zipIdx.filterMap fun x =>
    let kind := match x.1.amt with | some a => if 0 < a then 11 else 10 | none => 10
    match s.tCheck x.1.coin 0 64 kind p.ring p.asid with
    | .ok _ => none
    | .coin e => some (0x14, x.2, e.code)
    | .poison => some (0x19, x.2, 0)
    | .notarget => some (0x18, x.2, 0)

/-- A poisoned cell or purse entry met for posting p by its lead: the DEFERRED record of detector 8, and TLR_LASTERR with POISON (R310).
DEDUCED, log entry 110. -/
def State.tellerPoison (s : State) (p : Posting) (a : Option Nat) : State :=
  (s.deferred (tu p.lead) 8 a).lastErr p.lead 0x19 0 p.ringNo p.slotNo

/-- The commit stage of a posting that holds every lock: rejected, or on to its number; or it waits for a purse entry. -/
def State.commitStage (s : State) (id : Nat) : State :=
  match s.postingOf id with
  | none => s
  | some p =>
    if p.lockFails = [] ∧ p.legs.any (fun l => s.entryHeld l.coin) = true then s.modPosting id fun p => { p with phase := .commitWait }
    else
    match leastCond (p.lockFails.map fun x => (x.1, x.2, 0)) with
    | some (st, leg, _) => s.reject id st leg 0
    | none =>
      let coins := s.coinConds p
      let s := coins.foldl (fun s c => if c.1 = 0x19 then s.tellerPoison p ((p.legs[c.2.1]?).map fun l => s.entryAddr l.coin.purse) else s) s
      let cells := (p.legs.zipIdx.map fun x => p.cellConds x.1 x.2).flatten
      let bal := if (p.kind = 0 ∨ p.kind = 3) ∧ p.balanced = false then [(0x1E, 15, 0)] else []
      match leastCond (coins ++ cells ++ bal) with
      | some (st, leg, cause) => s.reject id st leg cause
      | none => s.message id fun p => { p with phase := .numberReq }

/-- The lead asks for the lock of its i-th line, or runs the commit stage after the last (R304). A path that is not trained
ends the posting with PEERDOWN. DEDUCED, log entry 43. -/
def State.askLock (s : State) (id i : Nat) : State :=
  match s.postingOf id with
  | none => s
  | some p =>
    match p.order[i]? with
    | none => s.commitStage id
    | some (pa, leg) =>
      match s.target pa with
      | .window so a =>
        match s.portOf so with
        | none => s.reject id 0x24 leg 0
        | some port =>
          let tx := s.nextId % 65535 + 1
          let s := { s with nextId := s.nextId + 1 }
          let s := s.modPosting id fun p => { p.modLeg leg (fun l => { l with txid := tx }) with phase := .lockReq i }
          s.send ⟨port, 0x20, [], false, 0, tx, tu p.lead, 0, BitVec.ofNat 64 a⟩
      | _ => s.message id fun p => { p with phase := .lockReq i }

/-- The lead has its i-th line, with contents `cell`. -/
def State.haveLine (s : State) (id i leg : Nat) (cell : List Byte) : State :=
  (s.modPosting id fun p => p.modLeg leg fun l => { l with cell := cell }).askLock id (i + 1)

/-- CELL_LOCK_REQUEST: the request of posting `id` reaches the home teller of its line. -/
def State.lockArrive (s : State) (id : Nat) : State :=
  match s.postingOf id with
  | none => s
  | some p =>
    match p.phase with
    | .lockReq i =>
      match p.order[i]? with
      | none => s
      | some (pa, leg) =>
        if s.lockWaits.any (·.owner == .posting id) || !s.inOrder p then s
        else match s.target pa with
          | .local a _ _ => s.requestLock ⟨a / 64 * 64, .posting id⟩
          | .window .. => s
          | _ => s.message id fun p => { p with phase := .granted i, lockFails := p.lockFails ++ [(0x18, leg)] }
    | _ => s

/-- CELL_LOCK_GRANT: the grant reaches the lead; or the commit stage that waited for a purse entry goes on. -/
def State.lockGranted (s : State) (id : Nat) : State :=
  match s.postingOf id with
  | none => s
  | some p =>
    match p.phase with
    | .commitWait => s.commitStage id
    | .granted i =>
      if !s.inOrder p then s
      else match p.order[i]? with
      | none => s
      | some (pa, leg) =>
        match s.target pa with
        | .local a _ _ =>
          let s := if s.poisoned a then
              (s.modPosting id fun p => { p with lockFails := p.lockFails ++ [(0x19, leg)] }).tellerPoison p (some a)
            else s
          s.haveLine id i leg (s.readBytes (a / 64 * 64) 64)
        | _ => s.haveLine id i leg []
    | _ => s

/-- CELL_LOCK_RELEASE: the release of `line` by posting `id` reaches its home teller. -/
def State.lockReleased (s : State) (line id : Nat) : State :=
  let lead (l : CellLock) : Option Nat := match l.owner with | .posting i => (s.postingOf i).map (·.lead) | .peer .. => none
  match s.lockRels.find? fun l => l.line == line && l.owner == .posting id with
  | none => s
  | some l =>
    -- releases from one lead to one home teller keep their order (R260)
    if (s.lockRels.find? fun x => lead x == lead l && s.cellTeller x.line == s.cellTeller l.line) != some l then s
    else ({ s with lockRels := s.lockRels.erase l } : State).unlock line (.posting id)

/-! The sequencer (R311, R312) -/

/-- 0xFFF_FFFF_FFFF_FFFF, the count never issued. -/
def seqEnd : BitVec 60 := 0xFFFFFFFFFFFFFFF

/-- A sequencer whose NEXT has reached its end closes. -/
def Sequencer.settle (q : Sequencer) : Sequencer :=
  if q.next = seqEnd then { q with isOpen := false, exhausted := true } else q

/-- A number request: the number of socket `so`, or none while the sequencer is closed. -/
def Sequencer.issue (so : BitVec 3) (q : Sequencer) : Option Word × Sequencer :=
  if !q.isOpen || q.exhausted then (none, q)
  else
    let n : Word := BitVec.ofNat 64 (so.toNat * 2 ^ 60 + q.next.toNat)
    (some n, ({ q with next := q.next + 1, last := n } : Sequencer).settle)

/-- A write of SEQ_NEXT: ignored while OPEN = 1 and for NEXT = 0. -/
def Sequencer.writeNext (q : Sequencer) (v : Word) : Sequencer :=
  let n : BitVec 60 := v.extractLsb' 0 60
  if q.isOpen || n == 0 then q else ({ q with next := n } : Sequencer).settle

/-- A write of SEQ_CTL: OPEN stays 0 while EXHAUSTED = 1. -/
def Sequencer.writeCtl (q : Sequencer) (v : Word) : Sequencer :=
  { q with isOpen := bitB v 0 && !q.exhausted }

/-- SEQUENCE_REQUEST: a posting past its commit stage asks for its number; it waits for staging room first (R331). -/
def State.numberRequest (s : State) (id : Nat) : State :=
  match s.postingOf id with
  | none => s
  | some p =>
    if p.phase ≠ .numberReq ∨ !s.inOrder p then s
    else if !s.stagingRoom p.lead (recLen p.legs.length) then
      if p.stalled then s
      else (s.incRf (R.TLR_JSTAT (tu p.lead)) F.TLR_JSTAT_STALLS).modPosting id fun p => { p with stalled := true }
    else
      match s.seq.issue s.socket with
      | (none, _) => s.reject id 0x23 15 0
      | (some n, q) => 
        (({ s with seq := q } : State).message id fun p => { p with phase := .numbered, seq := n, stalled := false }).count 0x142 0x10 1

/-! Cell writes (R307, R318) -/

/-- The durability point of the posting's class has been reached (R332): no staged record of it is needed by that target. -/
def State.durable (s : State) (p : Posting) : Bool :=
  match p.dur with
  | 1 => !(s.staging.any fun r => r.teller == p.lead && r.mirrorOf.isNone && r.seq == p.seq && r.needLocal)
  | 2 => !(s.staging.any fun r => r.teller == p.lead && r.mirrorOf.isNone && r.seq == p.seq && r.needMirror)
  | _ => true

/-- Every cell written and acknowledged, the posting is POSTED: on to its completion, or to the wait for its class (R308). -/
def State.posted (s : State) (id : Nat) : State :=
  match s.postingOf id with
  | none => s
  | some p =>
    if p.phase = .committing ∧ p.commits = [] ∧ p.acks = [] then
      let s := s.count (tu p.lead) 0x12 1
      if p.classLost then s.loseRecord p none
      else if s.durable p then s.completeNow id
      else s.modPosting id fun p => { p with phase := .durWait }
    else s

/-- Postings at lead n whose class is reached are completed (R332). -/
def State.durReached (s : State) : State :=
  (s.postings.filter fun p => p.phase == .durWait && s.durable p).foldl (fun s p => s.completeNow p.id) s

/-- POSTING_NUMBER_RECEIVED: the new lines are sent to their home tellers, and the record is staged, its TIME that of this moment:
DESIGN CHOICE, log entry 139. -/
def State.numberArrive (s : State) (id : Nat) : State :=
  match s.postingOf id with
  | none => s
  | some p =>
    if p.phase ≠ .numbered ∨ !s.inOrder p then s
    else
      let legs := (p.legs.map fun l => jLeg (s.lineId (l.pa.getD 0)) (cellLast l.cell) l.amount).flatten
      let info := jInfo p.kind p.dur (b2n p.test) p.nleg p.ring p.cur p.lead 0 p.asid
      let s := (s.stagePosting p.lead p.seq p.postid info p.ref p.vdate s.time legs).trace (tu p.lead) 2 p.seq p.postid
      let upd (l : Leg) : Leg :=
        match l.amt, cellBalance l.cell, cellHeld l.cell with
        | some a, some b, some h => let e := legEffect p.kind a b h; { l with cell := newCell l.cell e.1 e.2 p.seq }
        | _, _, _ => l
      let p := { p with legs := p.legs.map upd, time := s.time, phase := .committing,
                        classLost := (p.dur == 1 && !s.jLocal p.lead) || (p.dur == 2 && !s.jMirror p.lead) }
      let isLocal (pa : Nat) : Bool := (s.localOf pa).isSome
      let lines := p.order.map (·.1)
      let p := { p with commits := lines.filter isLocal, acks := lines.filter fun a => !isLocal a }
      let s := s.modPosting id fun _ => p
      let s := p.order.foldl (fun s x =>
        match s.target x.1, p.legs[x.2]? with
        | .window so a, some l => match s.portTo so with
          | some port => s.send ⟨port, 0x22, l.cell, false, 0, l.txid, tu p.lead, 0, BitVec.ofNat 64 a⟩
          | none =>
            -- the link was lost after the number: applied, and this leg unacknowledged (R319)
            s.modPosting id fun p => { p with acks := p.acks.erase x.1, leg := if p.status = 1 then min p.leg x.2 else x.2, status := 1 }
        | _, _ => s) s
      s.posted id

/-- CELL_COMMIT: the new line `pa` of posting `id` reaches its home teller, which writes it, unlocks it and acknowledges. -/
def State.cellCommit (s : State) (id pa : Nat) : State :=
  match s.postingOf id with
  | none => s
  | some p =>
    if !p.commits.contains pa || !s.cellInOrder p pa (·.commits) then s
    else
      match p.order.find? (·.1 == pa), s.localOf pa with
      | some (_, leg), some a =>
        let w := s.settledWrite a ((p.legs[leg]?).map (·.cell) |>.getD []) true
        let s := if w.refused then w.s.cellRefused p.lead p.ringNo p.slotNo else w.s
        let s := s.unlock a (.posting id)
        let far := s.cellTeller a != p.lead
        let s := s.modPosting id fun p => { p with time := s.time, commits := p.commits.erase pa, acks := if far then p.acks ++ [pa] else p.acks }
        s.posted id
      | _, _ => (s.modPosting id fun p => { p with commits := p.commits.erase pa }).posted id

/-- COMMIT_ACK: the acknowledgement for line `pa` reaches the lead. -/
def State.commitAck (s : State) (id pa : Nat) : State :=
  match s.postingOf id with
  | none => s
  | some p => if p.acks.contains pa && s.cellInOrder p pa (·.acks) then (s.modPosting id fun p => { p with acks := p.acks.erase pa }).posted id else s

/-! Intake (R299, R303) -/

/-- The teller takes no submission: R303 step 1. -/
def State.tellerClosed (s : State) (n : Nat) : Bool :=
  s.rf (R.TLR_CTL (tu n)) F.TLR_CTL_EN == 0 || !s.seq.isOpen || !s.unitUp (tu n) || s.unitState (tu n) == 7 || s.handing n
/-- Intake stands still (R31, R320, R339). -/
def State.intakeHeld (s : State) : Bool := s.mode == .brumation || s.mode == .drain

/-- The reply to a POST on its way to its core, or PRP to a peer. -/
def State.replyPost (s : State) (p : Posting) (code : Nat) : State :=
  match p.origin with
  | .post k => s.modCore (coreOf k) fun c =>
      { c with posts := c.posts.map fun w => if w.id = p.id then { w with reply := some code } else w }
  | .peer port tx => s.send ⟨port, 0x26, [], false, 0, tx, tu p.intake, code, 0⟩
  | .slot .. => s

/-- CRCOIN as intake checks it: R301's first line. -/
inductive CrCheck where
  | ok | bad | wait
  deriving DecidableEq, Repr

/-- DESIGN CHOICE, log entry 39. DEDUCED, log entry 94. -/
def State.crCheck (s : State) (p : Posting) : CrCheck × State :=
  if s.entryHeld p.crcoin then (.wait, s)
  else match s.tCheck p.crcoin 0 64 2 p.ring p.asid with
  | .ok va =>
    if va % 64 ≠ 0 then (.bad, s)
    else match s.unitXlate (tu p.intake) p.mode p.root p.asid p.ring va (xKind 2 false) with
      | (.ok .., s) => (.ok, s.modPosting p.id fun q => { q with used := q.used ++ s.usedEntry (tu p.intake) p.asid va })
      | (.wait, s) => (.wait, s)
      | (_, s) => (.bad, s)
  | _ => (.bad, s)

/-- The lead teller of a posting whose first leg lies at `pa` (R303). A leg in a peer's window is led by the intake teller:
numbers and coin checks are this socket's (R319). DEDUCED, log entry 41. -/
def State.leadOf (s : State) (intake : Nat) (pa : Option Nat) : Nat :=
  match pa with
  | some a => ((s.homeTeller a).map s.duty).getD intake
  | none => intake

/-! Places (R303, R315) -/

/-- The key (T, R, S) of R315. For a posting forwarded by a peer the manual gives no S: its TXID. DESIGN CHOICE, log entry 111. -/
def Posting.key (p : Posting) : Nat × Nat × Nat :=
  match p.origin with
  | .post k => (p.intake, 16, k)
  | .slot r i => (p.intake, r, i)
  | .peer _ tx => (p.intake, 16, tx)

/-- Posting x, arrived at `t`, comes before posting y, arrived at `u` (R315). -/
def before (t : Nat) (x : Posting) (u : Nat) (y : Posting) : Bool :=
  t < u || (t == u && (x.key.1 < y.key.1 || (x.key.1 == y.key.1 &&
    (x.key.2.1 < y.key.2.1 || (x.key.2.1 == y.key.2.1 && x.key.2.2 < y.key.2.2)))))

/-- Posting p gets no place of lead n now: none is free, or one that arrived before it waits for it. -/
def State.noPlace (s : State) (p : Posting) (n : Nat) : Bool :=
  s.places n ≥ 32 || s.postings.any fun q => q.id != p.id && q.lead == n && !q.placed &&
    (match q.arrived with | some t => before t q (p.arrived.getD s.time.toNat) p | none => false)

/-- It waits, its arrival kept. -/
def State.waitPlace (s : State) (p : Posting) (n : Nat) : State :=
  s.modPosting p.id fun q => { q with lead := n, arrived := some (q.arrived.getD s.time.toNat) }

/-- Steps 4 and 5 of R303 for an accepted posting. -/
def State.intakeStep4 (s0 : State) (id : Nat) : State :=
  match s0.postingOf id with
  | none => s0
  | some p =>
    match s0.xlateLegs p p.legs.zipIdx with
    | (none, s) => s0.keepRequests s
    | (some (xs, used), s) =>
      let paOf (i : Nat) : Option Nat := xs.findSome? fun x => if x.1 = i then (match x.2 with | .ok a => some a | _ => none) else none
      let lead := s.leadOf p.intake (paOf 0)
      if lead = p.intake ∧ s.noPlace p lead = true then (s0.modPosting id fun p => { p with phase := .queued true }).waitPlace p lead
      else
        let p' := { p with lead := lead, used := p.used ++ used, arrived := if lead = p.intake then p.arrived else none, legs := p.legs.zipIdx.map fun x => { x.1 with pa := paOf x.2 } }
        let cond := leastCond (s.preConds p' lead xs)
        let s := s.modPosting id fun _ => match cond with
          | some (st, leg, cause) => { p' with status := st, leg := leg, cause := cause, time := s.time, phase := .forwarded }
          | none => { p' with phase := .forwarded }
        if lead = p.intake then
          match cond with
          | some (st, leg, cause) => s.reject id st leg cause
          | none => s.askLock id 0
        else s

/-- POSTING_INTAKE. -/
def State.postingIntake (s : State) (id : Nat) : State :=
  match s.postingOf id with
  | none => s
  | some p =>
    if s.intakeHeld then s
    else
      let refuse (s : State) (code : Nat) : State := (s.replyPost p code).dropPosting id
      let step3 : State :=
        match s.crCheck p with
        | (.wait, s') => s.keepRequests s'
        | (.bad, s') =>
          match p.origin with
          | .slot .. => (s'.lastErr p.intake 0x31 0 p.ringNo p.slotNo).dropPosting id
          | _ => refuse s' 3
        | (.ok, s') =>
          let s' := s'.modPosting id fun p => { p with phase := .queued true, diag := s'.mode == .diagnostic }
          (s'.replyPost p 0).intakeStep4 id
      match p.phase with
      | .sent =>
        if s.tellerClosed p.intake then refuse s 2
        else if s.queuedAt p.intake ≥ 64 then refuse (s.incRf (R.TLR_STAT (tu p.intake)) F.TLR_STAT_BUSY) 1
        else step3
      | .queued false => step3
      | .queued true => s.intakeStep4 id
      | _ => s

/-- POSTING_LEAD_ARRIVAL: a forwarded posting takes a place of its lead, or waits by credit. In BRUMATION none starts (R31). -/
def State.leadArrival (s : State) (id : Nat) : State :=
  match s.postingOf id with
  | none => s
  | some p =>
    let n := s.duty p.lead
    if p.phase ≠ .forwarded ∨ s.mode = .brumation then s
    else if s.noPlace p n then s.waitPlace p n
    else
    -- a teller handed over on the way leaves its lead to its sibling (R431)
    let s := s.modPosting id fun p => { p with lead := n }
    if p.status ≥ 0x10 then s.reject id p.status p.leg p.cause
    else s.askLock id 0

/-- A posting submitted: header, legs and context, on its way to its intake teller. -/
def State.newPosting (s : State) (o : Origin) (intake : Nat) (bs : List Byte) (tags : List Bool) (ring asid mode root : Nat)
    (ph : PostPhase) (used : List TlbEntry := []) : State :=
  let n := legCount bs
  { s with nextId := s.nextId + 1,
           postings := s.postings ++ [⟨s.nextId, o, intake, intake, bs.take 64, ⟨BitVec.ofNat 128 (fieldAt bs 16 16), tags.getD 1 false⟩,
             parseLegs n (bs.drop 64) (tags.drop 4), ring, asid, mode, root, false, ph, 0, 15, 0, [], 0, 0, false, false, [], [], used, false, none,
             s.nextId, .check, []⟩] }

/-! Submission rings -/

/-- R299: a TLR_SUBMIT write. -/
def State.submitWrite (s : State) (n : Nat) (v : Word) : State :=
  let k := getF v ⟨3, 0⟩
  let prod := getF v ⟨47, 16⟩
  let cfg := s.reg (R.TLR_SRCFG (tu n) k)
  let c := R.TLR_SRCONS (tu n) k
  let cons := s.rf c ⟨31, 0⟩
  if getF cfg ⟨0, 0⟩ = 0 ∨ (prod + 2 ^ 32 - cons) % 2 ^ 32 > 2 ^ getF cfg ⟨5, 1⟩ then s.incRf (R.TLR_STAT (tu n)) F.TLR_STAT_RINGERR
  else s.setRf c ⟨63, 32⟩ prod

/-- A TLR_SRCFGk write: fields ignored while EN = 1; setting EN zeroes CONS and PROD, or fails for a bad LOG2. -/
def State.srcfgWrite (s : State) (n k : Nat) (v : Word) : State :=
  let key := R.TLR_SRCFG (tu n) k
  let o := s.reg key
  let b := if getF o ⟨0, 0⟩ = 1 then o
    else setF (setF (setF o ⟨5, 1⟩ (getF v ⟨5, 1⟩)) ⟨7, 6⟩ (getF v ⟨7, 6⟩)) ⟨31, 16⟩ (getF v ⟨31, 16⟩)
  let en := getF v ⟨0, 0⟩
  if en = 1 ∧ (getF v ⟨5, 1⟩ < 4 ∨ getF v ⟨5, 1⟩ > 16) ∧ getF o ⟨0, 0⟩ = 0 then s.setReg key (setF b ⟨0, 0⟩ 0)
  else
    let s := s.setReg key (setF b ⟨0, 0⟩ en)
    if en = 1 ∧ getF o ⟨0, 0⟩ = 0 then s.setReg (R.TLR_SRCONS (tu n) k) 0 else s

/-- A TLR_SRBASEk write: ignored while EN = 1. -/
def State.srbaseWrite (s : State) (n k : Nat) (v : Word) : State :=
  if s.rf (R.TLR_SRCFG (tu n) k) ⟨0, 0⟩ = 1 then s else s.setRf (R.TLR_SRBASE (tu n) k) ⟨47, 4⟩ (getF v ⟨47, 4⟩)

/-- SUBMISSION_SLOT_INTAKE: ring k's next slot is read, checked and taken as a posting; a slot that fails is recorded and
passed over. DESIGN CHOICE, log entry 39. DESIGN CHOICE, log entry 138. -/
def State.slotIntake (s : State) (n k : Nat) : State :=
  let cfg := s.reg (R.TLR_SRCFG (tu n) k)
  let pt := s.reg (R.TLR_SRPT (tu n) k)
  let c := R.TLR_SRCONS (tu n) k
  let cons := s.rf c ⟨31, 0⟩
  if s.intakeHeld || s.tellerClosed n || getF cfg ⟨0, 0⟩ == 0 || cons == s.rf c ⟨63, 32⟩ || s.queuedAt n ≥ 64 then s
  else
    let ring := getF cfg ⟨7, 6⟩
    let asid := getF cfg ⟨31, 16⟩
    let mode := getF pt ⟨1, 0⟩
    let root := getF pt ⟨47, 12⟩ * 4096
    let took (s : State) : State := s.setRf c ⟨31, 0⟩ ((cons + 1) % 2 ^ 32)
    let bad (s : State) (cause : Nat) : State :=
      took ((s.incRf (R.TLR_STAT (tu n)) F.TLR_STAT_RINGERR).lastErr n 0x30 cause k (cons % 65536))
    match s.localOf (s.rf (R.TLR_SRBASE (tu n) k) ⟨47, 4⟩ * 16 + 16 * (cons % 2 ^ getF cfg ⟨5, 1⟩)) with
    | none => bad s 0
    | some a =>
      if s.readHeld a 16 then s
      else if s.poisoned a then bad s 0
      else
        let x : Coin := ⟨BitVec.ofNat 128 (s.readNat a 16), s.tagAt a⟩
        let read (s : State) (size : Nat) (go : State → List Byte → List Bool → State) : State :=
          if s.entryHeld x then s
          else match s.tCheck x 0 size 8 ring asid with
          | .coin e => bad s e.code
          | .ok va =>
            if va % 64 ≠ 0 then bad s 0
            else match s.tReadLines (tu n) mode root asid ring va (lineCount size) with
              | (.ok bs ts, s) => go s bs ts
              | (.bad, s) => bad s 0
              | (.wait, s') => s.keepRequests s'
          | _ => bad s 0
        read s 64 fun s hdr ts =>
          let m := legCount hdr
          let put (s : State) (bs : List Byte) (ts : List Bool) : State :=
            let used := (List.range (lineCount bs.length)).flatMap fun i => s.usedEntry (tu n) asid (x.cursor.toNat + 64 * i)
            took (s.newPosting (.slot k cons) n bs ts ring asid mode root (.queued false) used)
          if m = 0 then put s hdr ts else read s (64 + 32 * m) put

/-! TLR_INVTLB (R314) -/

/-- The cached entries that an INVTLB write of operation `op` removes (R251). -/
def invHits (op asid va : Nat) (t : TlbEntry) : Bool :=
  match op with
  | 1 => true
  | 2 => t.asid == asid && !pteG t.pte
  | 3 => t.vbase == va / pageSize t.level && (t.asid == asid || pteG t.pte)
  | _ => false
def invWalk (op asid : Nat) (w : WalkEntry) : Bool :=
  match op with
  | 1 => true
  | 2 | 3 => w.asid == asid
  | _ => false

/-- The entries of unit u that OP of `v` selects removed; `vaKey` is the unit's INVVA register. -/
def State.unitInv (s : State) (u vaKey : Nat) (v : Word) : State :=
  let op := getF v ⟨1, 0⟩
  let asid := getF v ⟨31, 16⟩
  let va := s.rf vaKey ⟨63, 12⟩ * 4096
  let c := s.xcacheOf u
  s.setXcache u ⟨c.tlb.filter fun t => !invHits op asid va t, c.walk.filter fun w => !invWalk op asid w⟩

/-- A posting that went through an entry the write removes has not yet written its cells or been rejected, or one's completion record is
being written through it, so the write is not acknowledged (R314). -/
def State.tlrInvHeld (s : State) (n : Nat) (v : Word) : Bool :=
  let op := getF v ⟨1, 0⟩
  let asid := getF v ⟨31, 16⟩
  let va := s.rf (R.TLR_INVVA (tu n)) ⟨63, 12⟩ * 4096
  (s.postings.any fun p => (p.intake == n || p.lead == n) && p.used.any (invHits op asid va) &&
    (match p.phase with | .durWait | .completing => false | .committing => p.commits != [] || p.acks != [] | _ => true)) ||
      s.postings.any fun p => p.lead == n && p.phase == .completing && p.crUsed.any (invHits op asid va)

/-- A TLR_INVTLB write's removal. -/
def State.tlrInvWrite (s : State) (n : Nat) (v : Word) : State := s.unitInv (tu n) (R.TLR_INVVA (tu n)) v

/-! Values read -/

/-- TLR_CTL as read: IDLE as it stands. -/
def State.tlrCtlValue (s : State) (n : Nat) : Word :=
  setF (s.reg (R.TLR_CTL (tu n))) F.TLR_CTL_IDLE (b2n (!(s.postings.any fun p =>
    (p.lead == n && p.placed) || (p.intake == n && (match p.phase with | .queued _ => true | _ => false)))))
/-- TLR_STAT as read: PLACES and QUEUED as they stand. -/
def State.tlrStatValue (s : State) (n : Nat) : Word :=
  setF (setF (s.reg (R.TLR_STAT (tu n))) F.TLR_STAT_PLACES (s.places n)) F.TLR_STAT_QUEUED (s.queuedAt n)
def State.seqNextValue (s : State) : Word := BitVec.ofNat 64 (s.socket.toNat * 2 ^ 60 + s.seq.next.toNat)
def State.seqCtlValue (s : State) : Word := BitVec.ofNat 64 (b2n s.seq.isOpen + 2 * b2n s.seq.exhausted)

/-- What TLR_JSTAT reads: STAGED, SFULL and NOSPACE as they stand. -/
def State.jstatValue (s : State) (n : Nat) : Word :=
  let o := s.reg (R.TLR_JSTAT (tu n))
  let commitWaits (r : HomeReq) : Bool := match r.msg with
    | some m => m.op == 0x22 && s.cellTeller r.line == n && !s.stagingRoom n (recLen 1)
    | none => false
  let sfull := (s.postings.any fun p => p.lead == n && p.stalled && p.phase == .numberReq) || (s.jWait.any (·.1 == n)) || s.homeReqs.any commitWaits
  let nospace := match s.nextLocal n with | some r => s.jLocal n && !s.areaRoom n r | none => false
  setF (setF (setF o F.TLR_JSTAT_STAGED (s.staged n)) F.TLR_JSTAT_SFULL (b2n sfull)) F.TLR_JSTAT_NOSPACE (b2n nospace)

/-! Fence markers, targets cleared, links lost, DRAIN -/

/-- A fence marker reaches teller n: postings past their commit stage are covered; those waiting in a full ring lose their
record (R318). The result lists the postings the acknowledgement waits for. -/
def State.tellerMarker (s : State) (n : Nat) : List Nat × State :=
  let cov := s.postings.filter fun p => p.lead == n && p.committed
  let s := { s with postings := s.postings.map fun p => if cov.any (·.id == p.id) then { p with covered := true } else p }
  let s := (cov.filter fun p => p.phase == .completing).foldl (fun s p => s.completeNow p.id) s
  (cov.map (·.id), s)

/-- DURABILITY_WAIT_TIMEOUT at teller n: covered postings still waiting for their class lose their records (R338). -/
def State.durTimeout (s : State) (n : Nat) : State :=
  (s.postings.filter fun p => p.lead == n && p.covered && p.phase == .durWait).foldl (fun s p => s.loseRecord p none) s

/-- Postings at lead n waiting for class `dur` lose their records: their target is cleared (R338). Those whose cells are still being
written lose them when they are. -/
def State.dropClass (s : State) (n dur : Nat) : State :=
  let s : State := { s with postings := s.postings.map fun p =>
    if p.lead = n ∧ p.dur = dur ∧ p.phase = .committing then { p with classLost := true } else p }
  (s.postings.filter fun p => p.lead == n && p.dur == dur && p.phase == .durWait).foldl (fun s p => s.loseRecord p none) s

/-- The link to socket `so` is lost: a posting before its commits is rejected with PEERDOWN, one after them is PEERLOST for its
lowest unacknowledged leg (R319); locks held by that peer are released by the caller. DEDUCED, log entry 43. -/
def State.postingsLinkLost (s : State) (so : Nat) : State :=
  let far (s : State) (l : Leg) : Bool := match l.pa with
    | some pa => (match s.target pa with | .window t _ => t == so | _ => false)
    | none => false
  s.postings.foldl (fun s p =>
    match p.phase with
    | .lockReq _ | .granted _ | .commitWait | .numberReq | .numbered =>
      match p.legs.zipIdx.find? fun x => far s x.1 with
      | some x => if p.phase = .numbered then s else s.reject p.id 0x24 x.2 0
      | none => s
    | .committing =>
      match p.legs.zipIdx.find? fun x => far s x.1 && (match x.1.pa with | some a => p.acks.contains (a / 64 * 64) | none => false) with
      | some x =>
        let left := p.acks.filter fun a => (match s.target a with | .window t _ => t != so | _ => true)
        (s.modPosting p.id fun q => { q with status := 1, leg := if q.status = 1 then min q.leg x.2 else x.2, acks := left }).posted p.id
      | none => s
    | _ => s) s

/-- DRAIN begins: postings without a number are abandoned and the sequencer closes (R320, R339). -/
def State.tellersDrain (s : State) : State :=
  let s := (s.postings.filter fun p => match p.phase with | .numbered | .committing | .durWait | .completing => false | _ => true).foldl
    (fun s p => (s.releaseAll p).dropPosting p.id) s
  { s with seq := { s.seq with isOpen := false } }

/-! TLR_JCTL (R338, R346) -/

/-- LOCAL cleared: waiting DURABLE_LOCAL records are lost, staged records no longer need the area, LOCALERR is cleared. -/
def State.clearLocal (s : State) (n : Nat) : State :=
  let port := s.areaPort (s.jBase n)
  let s := s.dropClass n 1
  let s := (s.setRf (R.TLR_JCTL (tu n)) F.TLR_JCTL_LOCAL 0).setRf (R.TLR_JSTAT (tu n)) F.TLR_JSTAT_LOCALERR 0
  let s := ({ s with
    staging := s.staging.map (fun r => if r.teller = n ∧ r.mirrorOf = none then { r with needLocal := false } else r),
    flushes := s.flushes.map (fun f => { f with covers := f.covers.filter fun c => c.1 != n }) } : State).purgeStaging
  -- a flush that this teller's LOCALERR held back starts (R333)
  match port with
  | some (g, p) => s.startFlush g p
  | none => s

/-- MIRROR cleared: waiting DURABLE_PEER records are lost, staged records no longer need the mirror. -/
def State.clearMirror (s : State) (n : Nat) : State :=
  let s := s.dropClass n 2
  let s := (s.setRf (R.TLR_JCTL (tu n)) F.TLR_JCTL_MIRROR 0).setRf (R.TLR_JSTAT (tu n)) F.TLR_JSTAT_MIRDOWN 0
  ({ s with staging := s.staging.map fun r => if r.teller = n ∧ r.mirrorOf = none then { r with needMirror := false } else r } : State).purgeStaging

/-- LOCAL set: refused where R329 does not hold, else JHEAD := JDUR := JTAIL and OPEN is written, like every record to each configured
target (R332); the chain of SPREV starts anew. -/
def State.setLocal (s : State) (n : Nat) : State :=
  if s.areaOk (s.jBase n) (s.jSize n) then
    let t := s.reg (R.TLR_JTAIL (tu n))
    ((((s.setRf (R.TLR_JCTL (tu n)) F.TLR_JCTL_LOCAL 1).setReg (R.TLR_JHEAD (tu n)) t).setReg (R.TLR_JDUR (tu n)) t).stageMark n 6 true
      (s.jMirror n)).setSprev n 0
  else s

/-- MIRROR set: OPEN is sent to the mirror, whose answer decides. Key 65536 in jMirPend stands for a refusal already answered. -/
def State.setMirror (s : State) (n : Nat) : State :=
  match s.portTo (s.jSock n) with
  | none => s
  | some _ =>
    let tx := s.nextId % 65536
    (({ s with jMirPend := SMap.set zeroNat s.jMirPend n (tx + 1) } : State).stageMark n 6 false true)

/-- A TLR_JCTL write; the first part says that it waits: MIRROR for the peer's answer, an OPEN record for room in staging. -/
def State.jctlWrite (s : State) (n : Nat) (v : Word) : Bool × State :=
  let k := R.TLR_JCTL (tu n)
  let l := s.jLocal n
  let m := s.jMirror n
  if ((!l && bitB v 0) || (!m && bitB v 1)) && !s.stagingRoom n 128 then (true, s) else
  -- a write presented again has been through its own tests of LOCAL and MIRROR (R10)
  let fresh := SMap.get zeroNat s.jMirPend n == 0
  let s := if fresh && !l && !m then s.setRf k F.TLR_JCTL_EPOCH (getF v F.TLR_JCTL_EPOCH) else s
  let s := if fresh && !m then s.setRf k F.TLR_JCTL_MSOCK (getF v F.TLR_JCTL_MSOCK) else s
  let s := match l, bitB v 0 with
    | false, true => s.setLocal n
    | true, false => s.clearLocal n
    | _, _ => s
  match m, bitB v 1 with
  | false, true =>
    match SMap.get zeroNat s.jMirPend n with
    | 0 => let s := s.setMirror n; (SMap.get zeroNat s.jMirPend n != 0, s)
    | 65537 => (false, { s with jMirPend := SMap.set zeroNat s.jMirPend n 0 })
    | _ => (true, s)
  | true, false => (false, s.clearMirror n)
  | _, _ => (false, s)

/-- A refused OPEN record leaves staging; nothing else of the stream changes. -/
def State.openRefused (s : State) (n tx : Nat) : State :=
  ({ s with staging := s.staging.map fun r =>
      if r.teller = n ∧ r.mirrorOf = none ∧ r.txid = tx then { r with needMirror := false } else r } : State).purgeStaging

/-- The peer's answer to the OPEN record of TXID tx: MIRROR is set, or stays 0 (R346). A core whose write waits for the answer
finds it at its next acceptance. DEDUCED, log entry 46. -/
def State.mirrorAnswer (s : State) (tx : Nat) (ok : Bool) : State :=
  match s.jMirPend.find? fun e => e.2 == tx + 1 with
  | none => s
  | some (n, _) =>
    let waits := (List.range 128).any fun k => (s.core (coreOf k)).sb.any fun e => e.pa == 0xFF0000000000 + R.TLR_JCTL (tu n)
    let s := { s with jMirPend := SMap.set zeroNat s.jMirPend n (if !ok && waits then 65537 else 0) }
    if ok then
      -- the OPEN record belongs to every configured target (R332), and the chain of SPREV starts anew
      let s := (s.setRf (R.TLR_JCTL (tu n)) F.TLR_JCTL_MIRROR 1).setSprev n 0
      (if s.jLocal n then s.stageMark n 6 true false else s).mirrorAck n tx
    else s.openRefused n tx

end Sys2Proof.Machine
end

