-- ==== Sys2Proof/Machine/Sweep.lean ====
section
/-!
DEFINITION. Region-guard bindings (R364), recall fences as data (R88–R91) and the sweeper (R94–R97).
-/
namespace Sys2Proof.Machine

/-! Guard bindings (R364) -/

/-- A binding word with STALE as the purse entry makes it: unreadable, malformed, not LIVE or of another issue. -/
def State.bindWord (s : State) (w : Word) : Word :=
  if getF w ⟨52, 52⟩ = 0 then setF w ⟨53, 53⟩ 0
  else
    let i := getF w ⟨31, 0⟩
    let stale := i ≥ s.ptbCount || (match s.purseRead i with
      | .ok p => p.malformed || p.state != 1 || p.issue != getF w ⟨51, 32⟩
      | _ => true)
    setF w ⟨53, 53⟩ (b2n stale)

/-- Key k is a GUARD_BIND register. -/
def isBind (k : Nat) : Bool :=
  let o := k % 0x1000000
  k / 0x1000000 == 0x141 && o % 0x1000 ≥ 0x800 && o % 0x20 == 0x18

/-- A marker naming `is` at the guard bank: the bindings of those purses are read again (R364). -/
def State.guardsMarker (s : State) (is : List Nat) : State :=
  s.csr.foldl (fun s e => if isBind e.1 && getF e.2 ⟨52, 52⟩ == 1 && is.contains (getF e.2 ⟨31, 0⟩) then s.setReg e.1 (s.bindWord e.2) else s) s

/-! Fences (R88) -/

/-- The agents a marker goes to: every cluster and teller in service, the guard bank, every trained peer port (R88, R91). -/
def State.fenceAgents (s : State) : List Agent :=
  (((List.finRange 16).filter fun n => !s.clusterOut n.val).map .cluster) ++
    (((List.finRange 16).filter fun n => s.unitUp (tu n.val)).map .teller) ++ [.guards] ++
    (((List.finRange 7).filter fun p => s.portLinked p.val).map .peer)

/-- A fence begins: its markers follow the invalidations of the purse writes `after` (R88). -/
def State.newFence (s : State) (kind : FenceKind) (after purses : List Nat) : State :=
  let ag := s.fenceAgents
  { s with nextId := s.nextId + 1, fences := s.fences ++ [Fence.mk s.nextId kind ag ag after purses []] }

/-- DESIGN CHOICE, log entry 5. -/
def State.fenceOf (s : State) (id : Nat) : Option Fence := s.fences.find? (·.id == id)
def State.modFence (s : State) (id : Nat) (f : Fence → Fence) : State :=
  { s with fences := s.fences.map fun x => if x.id = id then f x else x }

/-- The purse writes of a fence have completed, so that its markers go out. -/
def State.markersOut (s : State) (f : Fence) : Bool := !s.purseWrs.any fun w => f.after.contains w.id

/-- The marker has reached `a`; its acknowledgement waits for `ids`. -/
def State.marked (s : State) (id : Nat) (a : Agent) (ids : List Nat) : State :=
  s.modFence id fun f => { f with markers := f.markers.filter (· != a), waits := (f.waits.filter fun w => w.1 != a) ++ [(a, ids)] }

/-- The requests of lane groups that passed their guards and are not complete yet (R364, R365). -/
def State.admissions (s : State) : List (Nat × Admission) :=
  (s.dmaOut.map fun o => (o.req.group, o.adm)) ++ s.laneWrites.filterMap fun w => w.adm.map (w.req.group, ·)

/-- The requests that passed a guard and are not complete yet (R364): those of peers by port × 65536 + TXID, those of lane groups above. -/
def State.admitted (s : State) : List Nat :=
  (s.homeReqs.filterMap fun r => r.msg.map fun m => m.port * 65536 + m.txid) ++
    (s.lockWaits.filterMap fun l => match l.owner with | .peer p tx _ => some (p * 65536 + tx) | _ => none) ++
    (s.pfwParts.map fun x => x.port * 65536 + x.txid) ++ s.admissions.map fun a => 0x70000 + a.2.id

/-- What agent `a` of fence f still waits for: covered postings not completed, a FAK not received, requests admitted by the guards. -/
def State.agentWaits (s : State) (f : Fence) (a : Agent) : Bool :=
  match f.waits.find? fun w => w.1 == a with
  | none => false
  | some w => match a with
    | .teller _ => w.2.any fun i => s.postings.any fun p => p.id == i && p.committed
    | .peer _ => !w.2.isEmpty
    | .guards => w.2.any s.admitted.contains
    | .cluster _ => false

/-- FAK arrived at port p for its oldest waiting fence, or the link is down: the port no longer waits (R91, R377). -/
def State.portAnswered (s : State) (p : PortId) (all : Bool) : State :=
  let waiting (f : Fence) : Bool := f.waits.any fun w => w.1 == FenceAgent.peer p && !w.2.isEmpty
  match s.fences.find? waiting with
  | none => s
  | some g =>
    { s with fences := s.fences.map fun f => if all || f.id == g.id then
        { f with waits := f.waits.map fun w => if w.1 = FenceAgent.peer p then (w.1, []) else w } else f }

/-! The sweeper -/

/-- Every coin a core holds, tags cleared where the test says so (R94). -/
def CoreState.mapCoins (f : Coin → Coin) (c : CoreState) : CoreState :=
  { c with c := c.c.map f, gc := c.gc.map f, pcc := f c.pcc,
           ccs := c.ccs.foldl (fun m e => SMap.set (fun _ => Coin.zero) m e.1 (f e.2)) c.ccs,
           shadow := c.shadow.map fun sh => { sh with old := match sh.old with | .coin x => .coin (f x) | v => v },
           recallW := c.recallW.map fun w => { w with cd := w.cd.map fun d => (d.1, f d.2) } }

/-- A coin with its tag cleared if its purse is SWEEPING. -/
def State.sweptCoin (s : State) (x : Coin) : Coin :=
  if x.tag && x.purse < s.ptbCount && (match s.purseRead x.purse with | .ok p => p.state == 3 | _ => false) then { x with tag := false } else x

/-- The START clearing in the cores of cluster n (R94). -/
def State.sweepCluster (s : State) (n : Nat) : State :=
  s.eachCore fun k c => if k.val / 8 = n then c.mapCoins s.sweptCoin else c

/-- The tag engines: memory controllers that are READY, and lane groups with a READY CXL region (R94). -/
def State.tagEngines (s : State) : List Nat :=
  ((List.range 16).filter s.chanReady).map (0x110 + ·) ++
    (((List.range 16).filter fun g => (List.range 16).any fun r =>
      let k := R.VLT_CXLR 0x100 r
      s.rf k F.VLT_CXLR_EN == 1 && s.rf k F.VLT_CXLR_READY == 1 && s.rf k F.VLT_CXLR_LGRP == g).map (0x120 + ·))

/-- The tag engine that holds the tag of local address a. -/
def State.engineOf (s : State) (a : Nat) : Option Nat :=
  match s.decodeLocal a with
  | none => none
  | some (h, none) => some (0x110 + h)
  | some (_, some r) => some (0x120 + s.rf (R.VLT_CXLR 0x100 r) F.VLT_CXLR_LGRP)

/-- Engine u's scan of `list`: tags of granules naming a listed purse are cleared; a poisoned line loses its four tags with a
DEFERRED record (R94, R96). The detector is the tag-line detector of a controller; for a lane group, its detector 1.
DEDUCED, log entry 45. -/
def State.scanEngine (s : State) (u : Nat) (list : List Nat) : State :=
  let mine := (s.tags.map fun e => e.1 * 16).filter fun a => s.engineOf a == some u
  let bad := ((mine.filter s.poisoned).map fun a => a / 64 * 64).dedup
  let s := (mine.filter fun a => !s.poisoned a && list.contains (s.readNat (a + 8) 4)).foldl (fun s a => s.setTag a false) s
  bad.foldl (fun s l => (s.setTags l 64 false).deferred u (if u < 0x120 then 2 else 1) (some l)) s

def State.modJob (s : State) (id : Nat) (f : SweepJob → SweepJob) : State :=
  { s with sweep := { s.sweep with jobs := s.sweep.jobs.map fun j => if j.id = id then f j else j } }
def State.jobOf (s : State) (id : Nat) : Option SweepJob := s.sweep.jobs.find? (·.id == id)
def State.dropJob (s : State) (id : Nat) : State :=
  { s with sweep := { s.sweep with jobs := s.sweep.jobs.filter (·.id != id) } }

def State.swPhase (s : State) : Nat := s.rf R.VLT_SWSTAT F.VLT_SWSTAT_PHASE
def State.setPhase (s : State) (n : Nat) : State := s.setRf R.VLT_SWSTAT F.VLT_SWSTAT_PHASE n
def State.setResult (s : State) (n : Nat) : State := s.setRf R.VLT_SWSTAT F.VLT_SWSTAT_RESULT n
def State.setCount (s : State) : State := s.setRf R.VLT_SWSTAT F.VLT_SWSTAT_COUNT s.sweep.list.length
def State.swHead (s : State) : Nat := s.rf R.VLT_SWFREE F.VLT_SWFREE_ADDR * 8

/-- The listed entries in `st` put into `st'` by purse writes (R66, R94). -/
def State.restate (s : State) (is : List Nat) (st st' : Nat) : State :=
  is.foldl (fun s i => match s.purseRead i with
    | .ok p => if p.state = st then s.writeEntry i (p.withState st') none else s
    | _ => s) s

/-- Entry i is RETIRED in this socket's table. -/
def State.isRetired (s : State) (i : Nat) : Bool :=
  decide (i < s.ptbCount) && (match s.purseRead i with | .ok p => p.state == 2 | _ => false)

/-- Copy engines hold from START to the end of SCAN (R286). -/
def State.holdCopies (s : State) (from_ to_ : Nat) : State :=
  (List.range 16).foldl (fun s n =>
    let k := R.MEM_COPYCTL (0x110 + n)
    if s.rf k F.MEM_COPYCTL_STATE = from_ then s.setRf k F.MEM_COPYCTL_STATE to_ else s) s

/-- START: copy engines held, the fence run (R94, R286). Cores of clusters out of service are cleared here: they answer no
marker (R91). -/
def State.startPhase (s : State) (job : Nat) : State :=
  match s.jobOf job with
  | none => s
  | some j =>
    let s := (s.holdCopies 1 2).modJob job fun j => { j with stage := .start }
    let s := if j.origin.isNone then s.setPhase 2 else s
    let s := ((List.range 16).filter s.clusterOut).foldl (fun s n => s.sweepCluster n) s
    s.newFence (.sweep job) (s.purseWrs.map (·.id)) j.list

/-- FINISH of software's own sweep: entries freed, RESULT set, DBSRC rung (R94). Where a push fails its checks of R77 the entry is on no
list, its LINK 0xFFFFFFFF, and the sweep still ends DONE: DESIGN CHOICE, log entry 132. -/
def State.finishLocal (s : State) (list : List Nat) : State :=
  let s := s.setPhase 4
  let usable := s.headUsable s.swHead
  let s := list.foldl (fun s i => match s.purseRead i with
    | .ok p =>
      if p.state ≠ 3 then s
      else
        let s := s.writeEntry i ((p.withIssue 0).withState 0) none
        match (if usable then s.push s.swHead i none else none) with
        | some s' => s'
        | none => match s.purseRead i with | .ok q => s.writeEntry i (q.withLink 0xFFFFFFFF) none | _ => s
    | _ => s) s
  let s := s.setResult (if !usable then 7 else if s.rf R.VLT_SWSTAT F.VLT_SWSTAT_DROPPED ≠ 0 then 2 else 1)
  (s.setPhase 0).ringSrc (s.rf R.VLT_SWCTL F.VLT_SWCTL_DBSRC)

/-- A line that the end of job j writes is held at its home slice (R263, R376). -/
def State.jobWaits (s : State) (j : SweepJob) : Bool :=
  j.list.any (fun i => s.lineHeld (s.entryAddr i) 32) ||
    (j.origin.isNone && match s.localOf s.swHead with | some a => s.lineHeld a 8 | none => false)

/-- A job whose engines and peers have all finished ends: the entries are freed, or for a peer's list RETIRED again and
answered done (R94, R95). Copy engines run again after the last one. -/
def State.endJob (s : State) (job : Nat) : State :=
  match s.jobOf job with
  | none => s
  | some j =>
    if j.stage ≠ .scan ∨ j.engines ≠ [] ∨ j.undone ≠ [] ∨ s.jobWaits j = true then s
    else
      let s := s.dropJob job
      let s := if s.sweep.jobs.any fun x => x.stage != .arm then s else s.holdCopies 2 1
      match j.origin with
      | none => s.finishLocal j.list
      | some (p, tx) => (s.restate j.list 3 2).send ⟨p, 0x34, [], false, 0, tx, 0x100, 2, 0⟩

/-- The START fence of a job is over: SCAN (R94). -/
def State.scanPhase (s : State) (job : Nat) : State :=
  match s.jobOf job with
  | none => s
  | some j =>
    let eng := s.tagEngines
    let s := s.modJob job fun j => { j with stage := .scan, engines := eng }
    let s := if j.origin.isNone then s.setPhase 3 else s
    s.endJob job

/-- Engine u has finished its scan for the first job it works on (R94, R96). -/
def State.engineDone (s : State) (u : Nat) : State :=
  match s.sweep.jobs.find? fun j => j.stage == .scan && j.engines.contains u with
  | none => s
  | some j => ((s.scanEngine u j.list).modJob j.id fun j => { j with engines := j.engines.filter (· != u) }).endJob j.id

/-- A list sent to a peer as SWL pieces of 16 indices; a short piece is filled with its last index. DEDUCED, log entry 45. -/
def swlPieces (list : List Nat) (fuel : Nat) : List (List Nat) :=
  match fuel with
  | 0 => []
  | n + 1 => if list.length ≤ 16 then [list ++ List.replicate (16 - list.length) (list.getLastD 0)] else list.take 16 :: swlPieces (list.drop 16) n

def State.sendSweep (s : State) (p job : Nat) (list : List Nat) : State :=
  let ps := swlPieces list 256
  (ps.zipIdx).foldl (fun s x =>
    s.send ⟨p, 0x33, (x.1.map (natBytes 4)).flatten, false, 0, job % 65536, 0x100, x.2 % 256 + (if x.2 + 1 = ps.length then 256 else 0), 0⟩) s

/-- ARM (R94): RETIRED entries become SWEEPING, other indices are dropped and counted; with MACHINE scope the peers are asked.
RESULT reads 0 while the sweep runs, where the manual says nothing: DESIGN CHOICE, log entry 120. A list with no index left asks no peer and
goes on to START: DESIGN CHOICE, log entry 121. -/
def State.armPhase (s : State) : State :=
  let keep := s.sweep.list.filter s.isRetired
  let dropped := s.sweep.list.length - keep.length
  let s := ({ s with sweep := { s.sweep with list := keep } } : State).setCount
  let s := (s.setRf R.VLT_SWSTAT F.VLT_SWSTAT_DROPPED dropped).setResult 0
  let s := (s.setPhase 1).restate keep 2 3
  let ports := if s.rf R.VLT_SWCTL F.VLT_SWCTL_SCOPE = 1 ∧ keep ≠ [] then s.upPorts else []
  let id := s.nextId
  let s := { s with nextId := id + 1, sweep := { s.sweep with jobs := s.sweep.jobs ++ [SweepJob.mk id none keep .arm ports ports []] } }
  let s := ports.foldl (fun s p => s.sendSweep p id keep) s
  if ports = [] then s.startPhase id else s

/-- A VLT_SWADD write. -/
def State.swAdd (s : State) (v : Word) : State :=
  if s.swPhase ≠ 0 then s
  else if s.sweep.list.length ≥ 4096 then s.setResult 4
  else ({ s with sweep := { s.sweep with list := s.sweep.list ++ [getF v F.VLT_SWADD_INDEX] } } : State).setCount

/-- CLEAR (R94). -/
def State.swClear (s : State) : State :=
  if s.swPhase ≠ 0 then s else ({ s with sweep := { s.sweep with list := [] } } : State).setCount

/-- GO (R94, R96). DEDUCED, log entry 45. -/
def State.swGo (s : State) : State :=
  if s.swPhase ≠ 0 then s.setResult 5
  else if !s.headUsable s.swHead then s.setResult 6
  else s.armPhase

/-- A VLT_SWCTL write: the settings, then CLEAR, then GO. DEDUCED, log entry 45. -/
def State.swctlWrite (s : State) (v : Word) : State :=
  let k := R.VLT_SWCTL
  let s := ((s.setRf k F.VLT_SWCTL_SCOPE (getF v F.VLT_SWCTL_SCOPE)).setRf k F.VLT_SWCTL_RATE (getF v F.VLT_SWCTL_RATE)).setRf k
    F.VLT_SWCTL_DBSRC (getF v F.VLT_SWCTL_DBSRC)
  let s := if getF v F.VLT_SWCTL_CLEAR = 1 then s.swClear else s
  if getF v F.VLT_SWCTL_GO = 1 then s.swGo else s

/-- A peer's sweep answer at port p: 0 accepted, 1 refused, 2 done (R95). -/
def State.sweepAnswer (s : State) (p tx arg : Nat) : State :=
  match s.sweep.jobs.find? fun j => j.origin.isNone && j.id % 65536 == tx with
  | none => s
  | some j =>
    match arg with
    | 0 =>
      if !j.asked.contains p then s
      else
        let s := s.modJob j.id fun j => { j with asked := j.asked.filter (· != p) }
        if j.asked.filter (· != p) = [] ∧ j.stage = .arm then s.startPhase j.id else s
    | 1 =>
      if !j.asked.contains p then s
      else (((s.dropJob j.id).restate j.list 3 2).setResult 3).setPhase 0
    | 2 => (s.modJob j.id fun j => { j with undone := j.undone.filter (· != p) }).endJob j.id
    | _ => s

/-- A whole list forwarded by the peer on port p under TXID tx (R95, R96). -/
def State.sweepForwarded (s : State) (p tx : Nat) (list : List Nat) : State :=
  if list.all s.isRetired then
    let s := s.restate list.dedup 2 3
    let id := s.nextId
    let s := { s with nextId := id + 1,
                      sweep := { s.sweep with jobs := s.sweep.jobs ++ [SweepJob.mk id (some (p, tx)) list.dedup .arm [] [] []] } }
    (s.send ⟨p, 0x34, [], false, 0, tx, 0x100, 0, 0⟩).startPhase id
  else s.send ⟨p, 0x34, [], false, 0, tx, 0x100, 1, 0⟩

end Sys2Proof.Machine
end

