-- ==== Sys2Proof/Machine/MemUnit.lean ====
section
/-!
DEFINITION. Memory controllers, vault slices and CXL regions (R265–R288): initialisation and scrub, partitions, regions,
copy engines, channels fenced or retired; the directories of the home slices and their snoops (R263, R280, R376).
-/
namespace Sys2Proof.Machine

def mc (n : Nat) : Nat := 0x110 + n
def hs (n : Nat) : Nat := 0x100 + n

/-! Channels -/

/-- The channel data capacity Cd in bytes (R266, R267). -/
def State.chanCap (s : State) (n : Nat) : Nat := s.rf (R.MEM_CFG (mc n)) F.MEM_CFG_CAP * 2 ^ 30 * 127 / 128

/-- Local DDR address of channel address c of channel n: the inverse of R268's decode for granule g. -/
def localOfChan (g n c : Nat) : Nat :=
  let q := c / g
  (q * 16 + (n ^^^ (q % 16))) * g + c % g

/-- Local address a is a DDR byte of channel n with channel address in [lo, hi). -/
def State.inChan (s : State) (n lo hi a : Nat) : Bool :=
  a < s.ddrTop && s.home a == n && lo ≤ chanAddr s.gran a && chanAddr s.gran a < hi

/-- Bytes, tags, poison and cache state of the local addresses that `p` selects forgotten: they read as zero. `p` holds for
whole lines. -/
def State.forget (s : State) (p : Nat → Bool) : State :=
  { s with mem := s.mem.filter fun e => !p e.1, back := s.back.filter fun e => !p e.1,
           tags := s.tags.filter fun e => !p (e.1 * 16), poison := s.poison.filter fun e => !p (e.1 * 64),
           dirty := s.dirty.filter fun e => !p (e.1 * 64), l2dir := s.l2dir.filter fun e => !p (e.1 * 64),
           l2s := s.l2s.filter fun e => !p (e.1 * 64), dramBad := s.dramBad.filter fun l => !p l }

/-- The outstanding loads of halves at local addresses that `p` selects performed, before those addresses lose their memory
(R271, R287). DEDUCED, log entry 89. -/
def State.settleLoads (s : State) (p : Nat → Bool) : State :=
  s.eachCore fun _ c => { c with loads := c.loads.map fun l =>
    { l with parts := l.parts.map fun x => if (s.localOf x.half.pa).any p then s.performPart x else x } }

/-- The controller zeroes its channel up to channel address `upto` (R273). -/
def State.initPass (s : State) (n upto : Nat) : State :=
  let k := R.MEM_INIT (mc n)
  let f := s.rf k F.MEM_INIT_FRONTIER * 4096
  let cap := s.chanCap n
  let upto := min (upto / 4096 * 4096) cap
  if s.mode = .load ∨ !s.chanReady n ∨ s.rf k F.MEM_INIT_DONE = 1 ∨ upto ≤ f then s
  else
    let s := s.forget (s.inChan n f upto)
    let s := s.setRf k F.MEM_INIT_FRONTIER (upto / 4096)
    if upto = cap then s.setRf k F.MEM_INIT_DONE 1 else s

/-- The tag storage of channel n written with zeros (R272). -/
def State.clearChanTags (s : State) (n : Nat) : State :=
  { s with tags := s.tags.filter fun e => !(decide (e.1 * 16 < s.ddrTop) && s.home (e.1 * 16) == n) }

/-- Channel n leaves service in state `st` (4 FENCED, 5 RETIRED): its vault lines and L2 copies go without write-back, its
data and tags are abandoned (R287). -/
def State.dropChannel (s : State) (n st : Nat) : State :=
  let p (a : Nat) : Bool := decide (a < s.ddrTop) && s.home a == n
  let s := (s.settleLoads p).forget p
  let s := (s.setRf (R.MEM_CFG (mc n)) F.MEM_CFG_STATE st).setRf (R.MEM_INIT (mc n)) F.MEM_INIT_FRONTIER 0
  s.setRf (R.MEM_INIT (mc n)) F.MEM_INIT_DONE 0

/-- Channel n trained again: READY, its tags cleared, zeroing from FRONTIER 0 (R288). -/
def State.reviveChannel (s : State) (n : Nat) : State :=
  let s := (s.clearChanTags n).setRf (R.MEM_CFG (mc n)) F.MEM_CFG_STATE 3
  (s.setRf (R.MEM_INIT (mc n)) F.MEM_INIT_FRONTIER 0).setRf (R.MEM_INIT (mc n)) F.MEM_INIT_DONE 0

/-- The tag line of channel address or device offset x, on a device whose data ends at `cap`: its address there (R274). -/
def tagLineAddr (cap x : Nat) : Nat := cap + 64 * (x / 8192)
/-- The bit of that tag line that is the tag of x's granule: 4m + j (R274). -/
def tagBit (x : Nat) : Nat := 4 * (x / 64 % 128) + x / 16 % 4
/-- The granule whose tag is bit b of tag line t (R274). -/
def tagGranule (t b : Nat) : Nat := (128 * t + b / 4) * 64 + b % 4 * 16

/-- The 512 tags of the tag line of local address a cleared (R274, R283). -/
def State.clearTagLine (s : State) (a : Nat) : State :=
  if a < s.ddrTop then
    let n := s.home a
    let t := chanAddr s.gran a / 8192
    (List.range 512).foldl (fun s b => s.setTag (localOfChan s.gran n (tagGranule t b)) false) s
  else
    let base := ((s.cxlRegionAt 0x100 a).map fun r => s.rf (R.VLT_CXLR 0x100 r) F.VLT_CXLR_BASE * 2 ^ 30).getD 0
    (List.range 512).foldl (fun s b => s.setTag (base + tagGranule ((a - base) / 8192) b) false) s

def State.partEn (s : State) (n : Nat) : Bool := s.rf (R.VLT_PART (hs n)) F.VLT_PART_EN == 1

/-- The range of a partition of the given ways: [BASE, BASE + 16w MiB). -/
def State.partBase (s : State) (n : Nat) : Nat := s.rf (R.VLT_PRANGE (hs n)) F.VLT_PRANGE_BASE * 65536
def State.partEnd (s : State) (n : Nat) : Nat := s.partBase n + s.rf (R.VLT_PART (hs n)) F.VLT_PART_WAYS * 16 * 2 ^ 20

/-- The number j of the line of local address a among the lines of the range that are homed at its slice, which is its slot (R278). -/
def State.partSlot (s : State) (n a : Nat) : Nat :=
  let o := a - s.partBase n
  o / (16 * s.gran) * (s.gran / 64) + o % s.gran / 64
/-- The line of local address l lies in the range of a partition that is filling or filled: never evicted (R279). Where an odd WAYS
with 2 MiB granules makes the range no whole number of runs of 16 granules, the slice pins the first 16,384 × WAYS of its lines, and the
others of the range are not pinned. DEDUCED, log entry 118. DESIGN CHOICE, log entry 136. -/
def State.pinned (s : State) (l : Nat) : Bool :=
  let n := s.home l
  let st := s.rf (R.VLT_PSTAT (hs n)) F.VLT_PSTAT_STATE
  (st == 1 || st == 2) && s.partBase n ≤ l && s.partSlot n l < 16384 * s.rf (R.VLT_PART (hs n)) F.VLT_PART_WAYS

/-- A copy of the line stands above its DRAM: modified in the vault or an L2, in an L2, or in a filled pinned slot. A clean copy in an
unpinned way of the vault is not held: DESIGN CHOICE, log entry 147. -/
def State.cachedCopy (s : State) (l : Nat) : Bool :=
  s.isDirty l || (s.clustersOf l).who != 0 || (s.pinned l && s.rf (R.VLT_PSTAT (hs (s.home l))) F.VLT_PSTAT_STATE == 2)

/-- Poison written to the DRAM of a line of local memory: under a cached copy it shows when the last one has left without a
write-back (R283). -/
def State.spoilDram (s : State) (l : Nat) : State :=
  if s.cachedCopy l then { s with dramBad := l :: s.dramBad.filter (· != l) } else s.poisonLine l

/-- DRAM poison whose line no cache holds any longer shows. -/
def State.surfaceDram (s : State) : State :=
  (s.dramBad.filter fun l => !s.cachedCopy l).foldl (fun (s : State) l =>
    ({ s with dramBad := s.dramBad.filter (· != l) } : State).poisonLine l) s

/-- What patrol scrub finds at local address a of controller n (R283, R284): an uncorrectable error poisons DRAM, which a value in a
cache or pinned slot replaces when it is written back. -/
def State.scrub (s : State) (n a : Nat) (found : ScrubFind) (last : Bool) : State :=
  if s.rf (R.MEM_SCRUB (mc n)) F.MEM_SCRUB_EN = 0 ∨ !s.chanReady n ∨ !(decide (a < s.ddrTop) && s.home a == n) then s
  else
    let l := a / 64 * 64
    let s := match found with
      | .clean => s
      | .corrected => (s.errRecord ⟨mc n, 0, .corrected, false, some l, 0, false, []⟩).count (mc n) 0x13 1
      | .uncorrectable => (s.spoilDram l).deferred (mc n) 1 (some l)
      | .tagLine => (s.clearTagLine l).deferred (mc n) 2 (some l)
    if last then s.incRf (R.MEM_SCRUB (mc n)) F.MEM_SCRUB_PASSES else s

/-! Training (R265, R266) -/

/-- The DIMMs of a channel are of a kind R265 supports. -/
def chanOk (f : ChanFind) : Bool :=
  (f.dimms == 1 || f.dimms == 2) && (f.ranks == 1 || f.ranks == 2) && f.density ≤ 2 && f.cap % f.dimms == 0 &&
    16 ≤ f.cap / f.dimms && f.cap / f.dimms ≤ 128

/-- What must be equal on all channels (R266). -/
def sameKind (f g : ChanFind) : Bool :=
  f.dimms == g.dimms && f.ranks == g.ranks && f.x8 == g.x8 && f.density == g.density && f.cap == g.cap

def noDimms : ChanFind := ⟨0, 0, false, 0, 0, false, false, false⟩
def foundAt (found : List ChanFind) (n : Nat) : ChanFind := found.getD n noDimms

/-- The data rate of channel n in units of 100 MT/s (R265, R404). -/
def State.chanRate (s : State) (n : Nat) (f : ChanFind) : Nat :=
  match SMap.get zeroNat s.boot.speed n with
  | 0 => if f.dimms = 1 then 64 else 56
  | v => v / 100

/-- The kind of DIMMs that channel n was found with. -/
def State.chanKind (s : State) (n : Nat) : ChanFind :=
  let k := R.MEM_CFG (mc n)
  ⟨s.rf k F.MEM_CFG_DIMMS, s.rf k F.MEM_CFG_RANKS, s.rf k F.MEM_CFG_X8 == 1, s.rf k F.MEM_CFG_DENSITY, s.rf k F.MEM_CFG_CAP, false, false, false⟩

/-- The registers that say what channel n carries (R266). -/
def State.setKind (s : State) (n : Nat) (f : ChanFind) : State :=
  let k := R.MEM_CFG (mc n)
  ((((s.setRf k F.MEM_CFG_DIMMS f.dimms).setRf k F.MEM_CFG_RANKS f.ranks).setRf k F.MEM_CFG_X8 (b2n f.x8)).setRf k F.MEM_CFG_DENSITY
    f.density).setRf k F.MEM_CFG_CAP f.cap

/-! Partitions (R278, R279) -/

/-- Some DDR line of [b, e) lies on a fenced or retired channel. BASE is a multiple of 16 × G, so each channel holds an equal share.
DEDUCED, log entry 50. -/
def State.rangeFenced (s : State) (b e : Nat) : Bool :=
  decide (b < min e s.ddrTop) && (List.range 16).any fun h =>
    s.rf (R.MEM_CFG (mc h)) F.MEM_CFG_STATE == 4 || s.rf (R.MEM_CFG (mc h)) F.MEM_CFG_STATE == 5

/-- Some line of [b, e) has no target: DDR at or above a frontier or on a channel not READY, or an address in no region. Regions
begin and end at multiples of 1 GiB, so one address of each GiB decides. DEDUCED, log entry 50. -/
def State.rangeNoTarget (s : State) (b e : Nat) : Bool :=
  let d := min e s.ddrTop
  (decide (b < d) && (List.range 16).any fun h => !s.chanReady h || s.frontier h < (d + 16 * s.gran - 1) / (16 * s.gran) * s.gran) ||
    (let c := max b s.ddrTop
     decide (c < e) && (c :: (List.range ((e - c) / 2 ^ 30 + 1)).map fun i => (c / 2 ^ 30 + 1 + i) * 2 ^ 30).any fun p =>
       decide (p < e) && ((s.cxlRegionAt 0x100 p).isNone || (List.range 16).any fun h => (s.cxlRegionAt (hs h) p).isNone))

/-- The way and the set of slot j (R278). -/
def slotWay (j : Nat) : Nat := 15 - j / 16384
def slotSet (j : Nat) : Nat := j % 16384

/-- The lines held in the ways that a partition takes are written back: which lines of the slice they are is free (R279). -/
def State.takeWays (s : State) (n : Nat) : State :=
  ((s.dirty.map fun x => x.1 * 64).filter fun a => s.home a == n).foldl (fun s a =>
    if Config.freeBool s.free then s.bumpFree.writeBack a else s.bumpFree) s

/-- The dirty lines of a partition's share written back. -/
def State.flushShare (s : State) (n : Nat) : State :=
  let b := s.partBase n
  let e := s.partEnd n
  ((s.dirty.map fun x => x.1 * 64).filter fun a => b ≤ a && a < e && s.home a == n).foldl (fun s a => s.writeBack a) s

/-- A VLT_PART write (R279): WAYS and KIND are ignored while EN = 1; EN from 0 to 1 checks the range and starts filling, also while an
earlier partition is still RELEASING, on which R279 is silent; EN from 1 to 0 releases. DEDUCED, log entry 50. DESIGN CHOICE, log entry 137. -/
def State.partWrite (s : State) (n : Nat) (v : Word) : State :=
  let k := R.VLT_PART (hs n)
  let st := R.VLT_PSTAT (hs n)
  if s.partEn n then
    if getF v F.VLT_PART_EN = 1 then s
    else ((s.flushShare n).setRf k F.VLT_PART_EN 0).setRf st F.VLT_PSTAT_STATE 3
  else
    let s := if getF v F.VLT_PART_WAYS ≤ 16 then s.setRf k F.VLT_PART_WAYS (getF v F.VLT_PART_WAYS) else s
    let s := s.setRf k F.VLT_PART_KIND (getF v F.VLT_PART_KIND)
    if getF v F.VLT_PART_EN = 0 then s
    else
      let b := s.partBase n
      let e := s.partEnd n
      if b % (16 * s.gran) ≠ 0 then s.setRf st F.VLT_PSTAT_REFUSE 1
      else if s.rangeFenced b e then s.setRf st F.VLT_PSTAT_REFUSE 3
      else if s.rangeNoTarget b e then s.setRf st F.VLT_PSTAT_REFUSE 2
      else (((s.takeWays n).setRf k F.VLT_PART_EN 1).setRf st F.VLT_PSTAT_STATE 1).setRf st F.VLT_PSTAT_FILLED 0

/-- Every slot filled (R279). -/
def State.partFilled (s : State) (n : Nat) : State :=
  let st := R.VLT_PSTAT (hs n)
  if s.rf st F.VLT_PSTAT_STATE = 1 ∧ s.partEn n then
    (s.setRf st F.VLT_PSTAT_STATE 2).setRf st F.VLT_PSTAT_FILLED (16384 * s.rf (R.VLT_PART (hs n)) F.VLT_PART_WAYS)
  else s

/-- The release has finished (R279). -/
def State.partReleased (s : State) (n : Nat) : State :=
  let st := R.VLT_PSTAT (hs n)
  if s.rf st F.VLT_PSTAT_STATE = 3 then (s.setRf st F.VLT_PSTAT_STATE 0).setRf st F.VLT_PSTAT_FILLED 0 else s

def State.prangeWrite (s : State) (n : Nat) (v : Word) : State :=
  if s.partEn n then s else s.setRf (R.VLT_PRANGE (hs n)) F.VLT_PRANGE_BASE (getF v F.VLT_PRANGE_BASE)

/-! CXL regions (R270, R271) -/

def State.cxlr (s : State) (n r : Nat) : Word := s.reg (R.VLT_CXLR (hs n) r)

/-- Region words overlap: both enabled, ranges in GiB meeting. -/
def cxlOverlap (a b : Word) : Bool :=
  let ab := getF a F.VLT_CXLR_BASE
  let bb := getF b F.VLT_CXLR_BASE
  ab < bb + getF b F.VLT_CXLR_SIZE && bb < ab + getF a F.VLT_CXLR_SIZE

/-- R270's rules that the device's registers decide; one region alone places the device of a port (R353). -/
def State.cxlRules (s : State) (n r : Nat) : Bool :=
  let v := s.cxlr n r
  let b := getF v F.VLT_CXLR_BASE
  b ≥ (s.ddrTop + 2 ^ 30 - 1) / 2 ^ 30 && decide ((b + getF v F.VLT_CXLR_SIZE) * 2 ^ 30 ≤ 0x100000000000) &&
    !(List.range 16).any fun q => q != r && getF (s.cxlr n q) F.VLT_CXLR_EN == 1 && (cxlOverlap v (s.cxlr n q) ||
      (getF v F.VLT_CXLR_LGRP == getF (s.cxlr n q) F.VLT_CXLR_LGRP && getF v F.VLT_CXLR_PORT == getF (s.cxlr n q) F.VLT_CXLR_PORT))

/-- The layout that lane group g runs under (R348). -/
def State.layout (s : State) (g : Nat) : Word := SMap.get (fun _ => 0) s.layouts g

/-- Region r's port is trained as a CXL port. -/
def State.cxlTrained (s : State) (v : Word) : Bool :=
  let g := 0x120 + getF v F.VLT_CXLR_LGRP
  let p := getF v F.VLT_CXLR_PORT
  s.rf (R.LGP_PSTAT g p) F.LGP_PSTAT_STATE == 2 && getF (s.layout g) ⟨8 * p + 2, 8 * p⟩ == 2

/-- The device offset of local address a in region word v, and its key in devMem. -/
def devKey (v : Word) (a : Nat) : Nat :=
  (getF v F.VLT_CXLR_LGRP * 8 + getF v F.VLT_CXLR_PORT) * 2 ^ 48 + (a - getF v F.VLT_CXLR_BASE * 2 ^ 30)

/-- Local address a lies in region word v and is homed at slice n. -/
def State.inRegion (s : State) (n : Nat) (v : Word) (a : Nat) : Bool :=
  getF v F.VLT_CXLR_BASE * 2 ^ 30 ≤ a && a < (getF v F.VLT_CXLR_BASE + getF v F.VLT_CXLR_SIZE) * 2 ^ 30 && s.home a == n

/-- The device byte at offset x of region word v, as its key in devMem, and the data bytes that the device holds (R270). -/
def devByte (v : Word) (x : Nat) : Nat := (getF v F.VLT_CXLR_LGRP * 8 + getF v F.VLT_CXLR_PORT) * 2 ^ 48 + x
def regionBytes (v : Word) : Nat := getF v F.VLT_CXLR_SIZE * 2 ^ 30
/-- The key of the tag storage byte with the tag of local address a's granule, and the bit in it (R270, R274). -/
def devTagKey (v : Word) (a : Nat) : Nat :=
  let x := a - getF v F.VLT_CXLR_BASE * 2 ^ 30
  devByte v (tagLineAddr (regionBytes v) x + tagBit x / 8)
/-- Device byte `key` holds tags of a line of the region homed at slice n: each byte has those of 128 data bytes. -/
def State.tagByteOf (s : State) (n : Nat) (v : Word) (key : Nat) : Bool :=
  let lo := devByte v (regionBytes v)
  lo ≤ key && key < lo + regionBytes v / 128 && s.home (getF v F.VLT_CXLR_BASE * 2 ^ 30 + (key - lo) * 128) == n

/-- The region's lines homed at slice n leave the map: written back with their tags, their data left with the device.
DEDUCED, log entry 126. -/
def State.unmapRegion (s : State) (n : Nat) (v : Word) : State :=
  let p := s.inRegion n v
  let s := s.settleLoads p
  let s := (s.mem.filter fun e => p e.1).foldl (fun (s : State) e => { s with devMem := SMap.set zeroByte s.devMem (devKey v e.1) e.2 }) s
  let s := (s.poison.filter fun e => p (e.1 * 64)).foldl
    (fun (s : State) e => { s with devPoison := SMap.set noFlag s.devPoison (devKey v (e.1 * 64)) e.2 }) s
  let s := (s.tags.filter fun e => e.2 && p (e.1 * 16)).foldl (fun (s : State) e =>
    let k := devTagKey v (e.1 * 16)
    { s with devMem := SMap.set zeroByte s.devMem k (SMap.get zeroByte s.devMem k ||| BitVec.ofNat 8 (2 ^ (tagBit (e.1 * 16) % 8))) }) s
  s.forget p

/-- The device's data appears in the map at slice n's lines; their tag storage has been cleared (R271). -/
def State.mapRegion (s : State) (n : Nat) (v : Word) : State :=
  let lo := devKey v (getF v F.VLT_CXLR_BASE * 2 ^ 30)
  let addr (k : Nat) : Nat := getF v F.VLT_CXLR_BASE * 2 ^ 30 + (k - lo)
  let mine (k : Nat) : Bool := lo ≤ k && s.inRegion n v (addr k)
  let s1 := s.forget (s.inRegion n v)
  let s2 := (s.devMem.filter fun e => mine e.1).foldl
    (fun (s : State) e => { s.setMemB (addr e.1) e.2 with back := SMap.set zeroByte s.back (addr e.1) e.2 }) s1
  let s3 := (s.devPoison.filter fun e => mine e.1).foldl (fun s e => s.poisonLine (addr e.1)) s2
  { s3 with devMem := s.devMem.filter fun e => !mine e.1 && !s.tagByteOf n v e.1, devPoison := s.devPoison.filter fun e => !mine e.1 }

/-- A VLT_CXLRk write at slice n (R271): fields ignored while EN = 1; EN set starts the clear, EN cleared ends the region. The
write-back that delays the acknowledgement is part of it. -/
def State.cxlrWrite (s : State) (n r : Nat) (v : Word) : State :=
  let k := R.VLT_CXLR (hs n) r
  let o := s.reg k
  if getF o F.VLT_CXLR_EN = 1 then
    if getF v F.VLT_CXLR_EN = 1 then s
    else
      let s := if getF o F.VLT_CXLR_READY = 1 then s.unmapRegion n o else s
      s.setReg k (setF (setF o F.VLT_CXLR_EN 0) F.VLT_CXLR_READY 0)
  else s.setReg k (setF (v &&& (F.VLT_CXLR_EN.mask 64 ||| F.VLT_CXLR_PERSIST.mask 64 ||| F.VLT_CXLR_LGRP.mask 64 |||
    F.VLT_CXLR_PORT.mask 64 ||| F.VLT_CXLR_BASE.mask 64 ||| F.VLT_CXLR_SIZE.mask 64)) F.VLT_CXLR_READY 0)

/-- The clear of region r's tags has finished at slice n; `cap` is what the device provides, in bytes (R270). -/
def State.cxlReady (s : State) (n r cap : Nat) : State :=
  let v := s.cxlr n r
  if regionBytes v * 129 / 128 ≤ cap ∧ getF v F.VLT_CXLR_EN = 1 ∧ getF v F.VLT_CXLR_READY = 0 ∧ s.cxlRules n r ∧ s.cxlTrained v then
    (s.mapRegion n v).setRf (R.VLT_CXLR (hs n) r) F.VLT_CXLR_READY 1
  else s

/-- Regions of lane group g lose READY: their port is down (R422). DEDUCED, log entry 52. -/
def State.cxlPortLost (s : State) (g p : Nat) : State :=
  (List.range 16).foldl (fun s n => (List.range 16).foldl (fun s r =>
    let v := s.cxlr n r
    if getF v F.VLT_CXLR_LGRP = g ∧ getF v F.VLT_CXLR_PORT = p ∧ getF v F.VLT_CXLR_READY = 1 then
      (s.unmapRegion n v).setRf (R.VLT_CXLR (hs n) r) F.VLT_CXLR_READY 0 else s) s) s

/-! Copy engines (R285, R286) -/

/-- Some sweep is between START and the end of SCAN. -/
def State.sweeping (s : State) : Bool := s.sweep.jobs.any fun j => j.stage != .arm

/-- The copy has ended in state `st`; DBSRC is rung. -/
def State.copyEnd (s : State) (n st : Nat) : State :=
  let k := R.MEM_COPYCTL (mc n)
  (s.setRf k F.MEM_COPYCTL_STATE st).ringSrc (s.rf k F.MEM_COPYCTL_DBSRC)

/-- A MEM_COPYCTL write: PAGES and DBSRC, then ABORT, then GO, which STATE as it was before the write decides (R10).
DEDUCED, log entry 51. -/
def State.copyctlWrite (s : State) (n : Nat) (v : Word) : State :=
  let k := R.MEM_COPYCTL (mc n)
  let s := (s.setRf k F.MEM_COPYCTL_PAGES (getF v F.MEM_COPYCTL_PAGES)).setRf k F.MEM_COPYCTL_DBSRC (getF v F.MEM_COPYCTL_DBSRC)
  let st := s.rf k F.MEM_COPYCTL_STATE
  let s := if getF v F.MEM_COPYCTL_ABORT = 1 then s.setRf k F.MEM_COPYCTL_STATE 0 else s
  if getF v F.MEM_COPYCTL_GO = 0 ∨ st = 1 ∨ st = 2 then s
  else if s.rf k F.MEM_COPYCTL_PAGES = 0 then s.copyEnd n 3
  else s.setRf k F.MEM_COPYCTL_STATE (if s.sweeping then 2 else 1)

/-- One line copied with its tags and poison; whether R47 refused some of it. -/
def State.copyLine (s : State) (src dst : Nat) : WriteRes :=
  let bs := s.readBytes src 64
  let po := s.poisoned src
  let ts := s.lineTags src
  let s := s.blockIf (s.readHeld src 64 || s.writeHeld dst 64)
  s.lineWrite dst bs ts po

/-- The engine's page is done (R285): copied and counted, or the engine stops in ERROR, also at a line that R47 refuses (log entry 109). A page that has to wait for a line stays, and all
stay in BRUMATION and DRAIN (R31, R33). DEDUCED, log entry 51. -/
def State.copyPage (s : State) (n : Nat) : State :=
  let k := R.MEM_COPYCTL (mc n)
  let src := s.rf (R.MEM_COPYSRC (mc n)) F.MEM_COPYSRC_ADDR * 4096
  let dst := s.rf (R.MEM_COPYDST (mc n)) F.MEM_COPYDST_ADDR * 4096
  if s.rf k F.MEM_COPYCTL_STATE ≠ 1 ∨ s.mode = .brumation ∨ s.mode = .drain then s
  else
    let ls := (List.range 64).map fun i => (s.localOf (src + 64 * i), s.localOf (dst + 64 * i))
    if ls.any fun l => l.1.isNone || l.2.isNone then s.copyEnd n 4
    else
      let w := ls.foldl (fun w l => let x := w.s.copyLine (l.1.getD 0) (l.2.getD 0); ⟨x.s, w.refused || x.refused⟩) (⟨s, false⟩ : WriteRes)
      let s1 := w.s
      if s1.blocked then s
      else if w.refused then s1.copyEnd n 4
      else
        let s1 := (s1.setRf (R.MEM_COPYSRC (mc n)) F.MEM_COPYSRC_ADDR (src / 4096 + 1)).setRf (R.MEM_COPYDST (mc n))
          F.MEM_COPYDST_ADDR (dst / 4096 + 1)
        let left := s1.rf k F.MEM_COPYCTL_PAGES - 1
        let s1 := s1.setRf k F.MEM_COPYCTL_PAGES left
        if left = 0 then s1.copyEnd n 3 else s1

/-! What the slices do of themselves -/

/-- A line modified in the vault or an L2 may be evicted to its device at any time; which, and when, is free (R277).
DEDUCED, log entry 118. -/
def State.evictSome (s : State) : State :=
  if s.dirty.isEmpty then s
  else
    let t := s.bumpFree
    match s.dirty.drop (Config.freeNat s.free % s.dirty.length) with
    | e :: _ => if Config.freeBool s.free && !s.pinned (e.1 * 64) then t.writeBack (e.1 * 64) else t
    | [] => t

/-- The modified lines in the ways of slice n that form its cache: those neither pinned nor held by an L2 (R277). -/
def State.vaultLines (s : State) (n : Nat) : List Nat :=
  (s.dirty.map fun e => e.1 * 64).filter fun l => s.home l == n && !s.pinned l && (s.clustersOf l).who == 0
/-- The lines that those ways hold: 16,384 in each way that no partition takes (R277). -/
def State.vaultCap (s : State) (n : Nat) : Nat :=
  16384 * (16 - if s.rf (R.VLT_PSTAT (hs n)) F.VLT_PSTAT_STATE = 0 then 0 else s.rf (R.VLT_PART (hs n)) F.VLT_PART_WAYS)

/-- Modified lines beyond what the cache ways of a slice hold go to their devices, with WAYS = 16 all of them; which go is free (R277). The
sets that lines take in those ways are not told apart. DESIGN CHOICE, log entry 147. -/
def State.vaultRoom (s : State) : State :=
  (List.range 16).foldl (fun s n =>
    if s.dirty.length ≤ s.vaultCap n then s
    else
      let ls := s.vaultLines n
      ((List.range (ls.length - s.vaultCap n)).foldl (fun (r : State × List Nat) i =>
        match r.2[Config.freeVictim s.free (16 * i + n) % r.2.length]? with
        | some l => (r.1.writeBack l, r.2.filter (· != l))
        | none => r) (s, ls)).1) s

/-- A line of a peer's memory may leave the L2s at any time, modified data going back (R371, R376); which, and when, is free. -/
def State.evictRemote (s : State) : State :=
  match s.rlines[Config.freeNat s.free % s.rlines.length]? with
  | some l => if Config.freeBool s.free && s.mode != .brumation && s.mode != .drain then s.bumpFree.dropRLine l.pa false else s.bumpFree
  | none => s

/-- A free number of slots of each filling partition filled; the last is PARTITION_FILL_DONE's (R279). DEDUCED, log entry 118. -/
def State.fillSome (s : State) : State :=
  (List.range 16).foldl (fun (s : State) n =>
    let k := R.VLT_PSTAT (hs n)
    if s.rf k F.VLT_PSTAT_STATE = 1 then
      s.bumpFree.setRf k F.VLT_PSTAT_FILLED (min (16384 * s.rf (R.VLT_PART (hs n)) F.VLT_PART_WAYS)
        (s.rf k F.VLT_PSTAT_FILLED + Config.freeNat s.free % 256))
    else s) s

/-! Directories and snoops (R263, R280, R376) -/

/-- Holder i gone. -/
def Holders.drop (h : Holders) (i : Nat) : Holders :=
  let w := h.who &&& ~~~(BitVec.ofNat 16 (2 ^ i))
  ⟨w, h.excl && w != 0⟩

/-- The holders a request by `unit` must be taken from: all others for an exclusive one, another owner for a shared one. -/
def conflicts (h : Holders) (self : Option Nat) (excl : Bool) : List Nat :=
  if excl || h.excl then h.list.filter fun i => some i != self else []

def clusterSelf (unit : Nat) : Option Nat := if unit < 0x80 then some (unit / 8) else none
def peerSelf (unit : Nat) : Option Nat := if 0x130 ≤ unit ∧ unit ≤ 0x136 then some (unit - 0x130) else none

/-- The snoops that the request still needs: clusters and ports holding the line in its way. -/
def State.needSnoops (s : State) (r : HomeReq) : List Nat :=
  ((conflicts (s.clustersOf r.line) (clusterSelf r.unit) r.excl).map (0x80 + ·)) ++
    ((conflicts (s.peersOf r.line) (peerSelf r.unit) r.excl).map (0x130 + ·))

/-- A snoop sent to each agent that has none for the line yet; to a peer as SNPI or SNPS. -/
def State.sendSnoops (s : State) (line : Nat) (inval : Bool) (agents : List Nat) : State :=
  agents.foldl (fun s a =>
    if s.snoops.any fun x => x.line == line && x.agent == a then s
    else
      let tx := s.nextId % 65535 + 1
      let s : State := { s with snoops := s.snoops ++ [Snoop.mk line a inval tx], nextId := s.nextId + 1 }
      if a ≥ 0x130 then
        s.send ⟨a - 0x130, if inval then 0x10 else 0x11, [], false, 0, tx, 0x100 + s.home line, 0, BitVec.ofNat 64 line⟩
      else s) s

/-! Commands -/

def execPatrolScrubRead (n : Idx16) (a : Nat) (found : ScrubFind) (last : Bool) (s : State) : Res := s.alive fun s => s.scrub n.val a found last
def execDdrInitPass (n : Idx16) (upto : Nat) (s : State) : Res := s.alive fun s => s.initPass n.val upto

/-- Refresh changes no contents (R265); telemetry counts it. -/
def execDramRefresh (n : Idx16) (s : State) : Res := s.alive fun s => s.count (mc n.val) 0x14 1

def execPartitionEnable (n : Idx16) (v : Word) (s : State) : Res := s.alive fun s => s.partWrite n.val (setF v F.VLT_PART_EN 1)
def execPartitionFillDone (n : Idx16) (s : State) : Res := s.alive fun s => s.partFilled n.val
def execPartitionRelease (n : Idx16) (v : Word) (s : State) : Res := s.alive fun s => s.partWrite n.val (setF v F.VLT_PART_EN 0)
def execPartitionReleaseDone (n : Idx16) (s : State) : Res := s.alive fun s => s.partReleased n.val
def execCxlRegionEnable (n region : Idx16) (v : Word) (s : State) : Res := s.alive fun s => s.cxlrWrite n.val region.val (setF v F.VLT_CXLR_EN 1)
def execCxlRegionReady (n region : Idx16) (s : State) (cap : Nat := 0) : Res := s.alive fun s => s.cxlReady n.val region.val cap
def execCxlRegionDisable (n region : Idx16) (v : Word) (s : State) : Res := s.alive fun s => s.cxlrWrite n.val region.val (setF v F.VLT_CXLR_EN 0)
def execMemCopyGo (n : Idx16) (v : Word) (s : State) : Res := s.alive fun s => s.copyctlWrite n.val (setF v F.MEM_COPYCTL_GO 1)
def execMemCopyAbort (n : Idx16) (v : Word) (s : State) : Res := s.alive fun s => s.copyctlWrite n.val (setF v F.MEM_COPYCTL_ABORT 1)
def execMemCopyPageDone (n : Idx16) (s : State) : Res := s.alive fun s => (s.copyPage n.val).unblock

end Sys2Proof.Machine
end

