-- ==== Sys2Proof/Machine/Guards.lean ====
section
/-!
DEFINITION. What every initiator outside the coins shares: the atomic operations of R114, imprecise write notices (R473), and
the region guards (R359–R366).
-/
namespace Sys2Proof.Machine

/-! Atomics (R114) -/

/-- The new memory value; none when CAS writes nothing. `n` is the width in bits. -/
abbrev AtomFn := (n : Nat) → (mem gs gd : Nat) → Option Nat

def atSwp : AtomFn := fun _ _ gs _ => some gs
def atCas : AtomFn := fun _ m gs gd => if m = gd then some gs else none
def atAdd : AtomFn := fun _ m gs _ => some (m + gs)
def atAnd : AtomFn := fun _ m gs _ => some (m &&& gs)
def atOr : AtomFn := fun _ m gs _ => some (m ||| gs)
def atXor : AtomFn := fun _ m gs _ => some (m ^^^ gs)
def atMax : AtomFn := fun n m gs _ => some (if toSigned n m < toSigned n gs then gs else m)
def atMin : AtomFn := fun n m gs _ => some (if toSigned n gs < toSigned n m then gs else m)

/-- The function of an atomic operation's code (R114). -/
def atomFn (op : Nat) : AtomFn :=
  match op with
  | 0 => atSwp | 1 => atCas | 2 => atAdd | 3 => atAnd | 4 => atOr | 5 => atXor | 6 => atMax | _ => atMin

/-! Region guards -/

/-- Operations of R360. -/
inductive GOp where
  | read | write | atomic | coinLoad | coinStore | lock
  deriving DecidableEq, Repr

def GOp.code : GOp → Nat
  | .read => 0 | .write => 1 | .atomic => 2 | .coinLoad => 3 | .coinStore => 4 | .lock => 5

/-- The rights of GUARD_ATTR that the operation needs (R360). -/
def GOp.rights (o : GOp) (v : Word) : Bool :=
  let rd := getF v F.GUARD_ATTR_RD == 1
  let wr := getF v F.GUARD_ATTR_WR == 1
  match o with
  | .read => rd
  | .write => wr
  | .atomic => rd && wr && getF v F.GUARD_ATTR_AT == 1
  | .coinLoad => rd && getF v F.GUARD_ATTR_COIN == 1
  | .coinStore => wr && getF v F.GUARD_ATTR_COIN == 1
  | .lock => rd && wr

/-- The number of guards of a set (R359). -/
def guardCount (set : Nat) : Nat := if set < 23 then 64 else 16

/-- Guard k of set `set` matches a request of function `fn` at address a (R360). -/
def State.guardMatches (s : State) (set k fn a : Nat) : Bool :=
  let lo := s.reg (R.GUARD_LO set k)
  let at_ := s.reg (R.GUARD_ATTR set k)
  getF lo F.GUARD_LO_EN == 1 && decide (getF lo F.GUARD_LO_BASE ≤ a / 4096) && decide (a / 4096 ≤ s.rf (R.GUARD_HI set k) F.GUARD_HI_LIMIT) &&
    (set ≥ 16 || getF at_ F.GUARD_ATTR_ANYFN == 1 || getF at_ F.GUARD_ATTR_FN == fn)

/-- Guard k is stale (R364). -/
def State.guardStale (s : State) (set k : Nat) : Bool :=
  let b := s.reg (R.GUARD_BIND set k)
  getF b F.GUARD_BIND_BOUND == 1 && getF b F.GUARD_BIND_STALE == 1

/-- Why a request is refused: REASON, GUARD and XCAUSE of GUARD_VINFO. -/
structure GRefusal where
  reason : Nat
  guard : Nat
  xcause : Nat
  deriving DecidableEq, Repr

/-- The default map of R362 admits the operation at a. -/
def defaultMap (op : GOp) (a : Nat) : Bool :=
  (op == .read || op == .write || op == .atomic) && decide (a < 0xF00000000000)

/-- The decision of a guard set (R361, R362); `map` says that the default map applies. DEDUCED, log entry 96. -/
def State.guardDecide (s : State) (set fn a : Nat) (op : GOp) (map : Bool) : Option GRefusal :=
  let hits := (List.range (guardCount set)).filter fun k => s.guardMatches set k fn a
  match hits with
  | [] => if map && defaultMap op a then none else some ⟨1, 0x3F, 0⟩
  | k :: rest =>
    if s.rf (R.GUARD_CTL set) F.GUARD_CTL_STRICT = 1 ∧ rest ≠ [] then some ⟨3, k, 0⟩
    else
      match hits.find? fun k => s.guardStale set k || !op.rights (s.reg (R.GUARD_ATTR set k)) with
      | none => none
      | some k => some ⟨if s.guardStale set k then 4 else 2, k, 0⟩

/-- The settings a request can be decided under: a write younger than 40 ns may count or not (R365). DEDUCED, log entry 13. -/
def State.guardView (s : State) : State × State :=
  let young := s.guardOld.filter fun o => s.time.toNat < o.deadline
  young.foldr (fun o (r : State × State) =>
    ((if Config.freeBool r.2.free then r.1.setReg o.src o.old else r.1), r.2.bumpFree)) (s, s)

/-- A guard register's value before a write kept for 40 ns (R365). DEDUCED, log entry 13. -/
def State.guardWrite (s : State) (k : Nat) (v : Word) : State :=
  let keep := s.guardOld.filter fun o => s.time.toNat < o.deadline
  ({ s with guardOld := keep ++ [OldSrc.mk k (s.reg k) (s.time.toNat + 40)] } : State).setReg k v

/-- The decision for a request now, under the settings that count for it. -/
def State.guardCheck (s : State) (set fn a : Nat) (op : GOp) (map : Bool) : Option GRefusal × State :=
  let (view, s) := s.guardView
  (view.guardDecide set fn a op map, s)

/-- A refusal recorded in its set (R366). -/
def State.guardRefuse (s : State) (set : Nat) (r : GRefusal) (op : GOp) (a src : Nat) : State :=
  let k := R.GUARD_VINFO set
  let v := s.reg k
  let s :=
    if getF v F.GUARD_VINFO_VALID = 1 then s.setReg k (setF v F.GUARD_VINFO_OVF 1)
    else
      (s.setReg k (setF (setF (setF (setF (setF (setF (setF 0 F.GUARD_VINFO_OVF (getF v F.GUARD_VINFO_OVF)) F.GUARD_VINFO_OP op.code)
        F.GUARD_VINFO_REASON r.reason) F.GUARD_VINFO_GUARD r.guard) F.GUARD_VINFO_SRC src) F.GUARD_VINFO_XCAUSE r.xcause)
        F.GUARD_VINFO_VALID 1)).setReg (R.GUARD_VADDR set) (BitVec.ofNat 64 (a % 2 ^ 48))
  let s := if set < 16 then s.count (0x120 + set) 0x13 1 else if set < 23 then s.count (0x130 + (set - 16)) 0x13 1 else s
  (s.incRf (R.GUARD_CTL set) F.GUARD_CTL_VCOUNT).ringSrc (s.rf (R.GUARD_CTL set) F.GUARD_CTL_NSRC)

/-! Guard registers -/

/-- A GUARD_CTL write: STRICT and NSRC; EVICT is the caller's. -/
def State.guardCtlWrite (s : State) (set : Nat) (v : Word) : State :=
  let k := R.GUARD_CTL set
  let o := s.reg k
  s.guardWrite k (setF (setF o F.GUARD_CTL_STRICT (getF v F.GUARD_CTL_STRICT)) F.GUARD_CTL_NSRC (getF v F.GUARD_CTL_NSRC))

/-- A GUARD_BIND write (R364, R365). DEDUCED, log entry 96. -/
def State.guardBindWrite (s : State) (set k : Nat) (v : Word) : State :=
  s.guardWrite (R.GUARD_BIND set k) (s.bindWord (setF (v &&& 0x1FFFFFFFFFFFFF) F.GUARD_BIND_STALE 0))

/-- GUARD_BIND_WRITE: sets 23 and above 25 do not exist; sets 24 and 25 have 16 guards. -/
def execGuardBindWrite (set k : Nat) (v : Word) (s : State) : Res :=
  s.alive fun s => if (set ≤ 25 ∧ set ≠ 23) ∧ k < guardCount set then s.guardBindWrite set k v else s

end Sys2Proof.Machine
end

