-- ==== Sys2Proof/Machine/Peer.lean ====
section
/-!
DEFINITION. What arrives from peers (R367–R378): Filvo Link messages at their home slices, tellers and hub, replies to this
socket's requests, snoops, fences, and the loss of a link.
-/
namespace Sys2Proof.Machine

/-! Replies -/

/-- A reply to message m, under its TXID. -/
def PeerMsg.replyWith (m : PeerMsg) (op arg : Nat) (data : List Byte) (tags : BitVec 4) (poison : Bool) : PeerMsg :=
  ⟨m.port, op, data, poison, tags, m.txid, pp m.port, arg, m.value⟩
def State.reply (s : State) (m : PeerMsg) (op arg : Nat) (data : List Byte) (tags : BitVec 4) (poison : Bool) : State :=
  s.send (m.replyWith op arg data tags poison)

/-- Offset and length of the ARG of RDU and WRP (R371). -/
def argOff (arg : Nat) : Nat := arg % 64
def argLen (arg : Nat) : Nat := min 64 (arg / 64 % 128)

/-- The local line a message names. -/
def PeerMsg.addr (m : PeerMsg) : Nat := m.value.toNat % 2 ^ 48
def PeerMsg.line (m : PeerMsg) : Nat := m.addr / 64 * 64

/-- The guard operation of R371's table, for the messages that pass a guard. -/
def guardOp (op : Nat) : Option GOp :=
  match op with
  | 0x01 | 0x03 | 0x25 => some .read
  | 0x02 | 0x04 | 0x05 => some .write
  | 0x07 => some .atomic
  | 0x08 => some .coinLoad
  | 0x09 => some .coinStore
  | 0x20 => some .lock
  | _ => none

/-- A message that needs the line to itself. -/
def needsExcl (op : Nat) : Bool := [0x02, 0x04, 0x05, 0x06, 0x07, 0x09, 0x20].contains op

/-- A request refused: DENIED (1) or NOTARGET (2). -/
def State.denyPeer (s : State) (m : PeerMsg) (why : Nat) : State :=
  if isStore m.op then s.reply m 0x1A 0 [] 0 false else s.reply m 0x19 why [] 0 false

/-! Participant cells (R319, R328) -/

/-- The amount of the leg that turned a cell into another: each kind changes BALANCE by it, or HELD by a debit.
DEDUCED, log entry 17. -/
def cellAmount (o n : List Byte) : Int :=
  match cellBalance o, cellBalance n, cellHeld o, cellHeld n with
  | some b, some b', some h, some h' => if b' ≠ b then b' - b else -((h' - h).natAbs : Int)
  | _, _, _, _ => 0

/-- The number with BCD digits d 0, d 1, …, the least significant first. -/
def bcdDigits (n : Nat) (d : Nat → Nat) : Nat := ((List.range n).map fun i => d i * 16 ^ i).sum

/-- The participant record of home teller n for the new cell `c` at local line l, led by unit `lead`, where nothing came with the commit
but what R371 lays out: the rest of the lead's descriptor is free. DEDUCED, log entry 17. -/
def State.participant (s : State) (n lead l : Nat) (c : List Byte) : State :=
  -- free, and the same for every commit of one number
  let f (i : Nat) : Word := Config.leadField (cellLast c) i
  let d (i : Nat) : Nat := (f i).toNat % 10
  let o := s.readBytes l 64
  let info := jInfo ((f 2).toNat % 5) ((f 3).toNat % 3) (b2n (cellFlag c 1)) 1 ((f 4).toNat % 4) (d 5 + 16 * d 6 + 256 * d 7) (lead % 16) 1
    ((f 8).toNat % 65536)
  let a := cellAmount o c
  let leg := natBytes 8 l ++ natBytes 8 (cellLast o).toNat ++ quadBytes a
  s.stagePosting n (cellLast c) (f 0) info (f 1) (bcdDigits 8 fun i => d (9 + i)) s.time leg

/-- What came with the commit of TXID tx at port p. -/
def State.noteOf (s : State) (p tx : Nat) : Option PostNote := (s.cmtNotes.find? fun x => x.1 == p && x.2.1 == tx).map (·.2.2)

/-- The participant record staged: the lead's INFO with PART and NLEG, the legs written here in the descriptor's order (R326, R328). -/
def State.partStage (s : State) (r : PartRec) : State :=
  let legs := r.mine.filterMap fun x => (r.got.find? (·.1 == x.1 / 64 * 64)).map fun g => jLeg (x.1 / 64 * 64) g.2.1 x.2
  let info := setF (setF r.note.info ⟨9, 6⟩ legs.length) ⟨28, 28⟩ 1
  s.stagePosting r.teller r.seq r.note.postid info r.note.ref r.note.vdate.toNat s.time legs.flatten

/-- A commit's cell written at its home teller n, and unlocked. -/
def State.commitCell (s : State) (n : Nat) (l : CellLock) (c : List Byte) : State :=
  let w := s.settledWrite l.line c true
  (if w.refused then w.s.cellRefused n 16 0 else w.s).unlock l.line l.owner

/-- A commit from a peer: the cell written and unlocked; with the last leg whose cell this teller writes, the record staged and every
commit acknowledged (R328). Without staging room nothing happens yet. -/
def State.peerCommit (s : State) (m : PeerMsg) : Option State :=
  match s.cellLocks.find? fun l => match l.owner with | .peer p tx _ => p == m.port && tx == m.txid | _ => false with
  | none => some s
  | some l =>
    let n := s.cellTeller l.line
    let c := padTo 64 m.data
    -- a stream ends with its SEAL (R339)
    if s.sealed.contains n then none
    else match s.noteOf m.port m.txid with
    | none =>
      if !s.stagingRoom n 96 then none
      else some (((s.participant n m.src l.line c).commitCell n l c).reply m 0x24 0 [] 0 false)
    | some w =>
      let same (x : PartRec) : Bool := x.port == m.port && x.teller == n && x.seq == cellLast c
      let mine := w.legs.filter fun x => s.cellTeller x.1 == n
      let old := s.parts.find? same
      if old.isNone && !s.stagingRoom n (recLen mine.length) then none
      else
        let r : PartRec := old.getD ⟨m.port, n, cellLast c, w, mine, []⟩
        let r : PartRec := { r with got := r.got ++ [(l.line, cellLast (s.readBytes l.line 64), m.txid)] }
        let s : State := { s with parts := s.parts.filter fun x => !same x,
                                  cmtNotes := s.cmtNotes.filter fun x => !(x.1 == m.port && x.2.1 == m.txid) }
        let s := s.commitCell n l c
        if r.got.length < r.mine.length then some { s with parts := s.parts ++ [r] }
        else some (r.got.foldl (fun s g => s.send ⟨m.port, 0x24, [], false, 0, g.2.2, pp m.port, 0, m.value⟩) (s.partStage r))

/-! Requests at their home slices -/

/-- A request that has its line, done. None where it has to wait for staging room. DESIGN CHOICE, log entry 128. -/
def State.homeServe (s : State) (r : HomeReq) : Option State :=
  match r.msg with
  | none =>
    match clusterSelf r.unit with
    | some c =>
      let s := s.dirRoom r.line
      some ((s.setClusters r.line ((s.clustersOf r.line).grant c r.excl)).joinL2 (coreOf r.unit) r.line r.excl)
    | none => some s
  | some m =>
    let l := r.line
    let p := m.port
    let gone (s : State) : State := s.setPeers l ((s.peersOf l).drop p)
    let n0 := s.nextId
    let done (s : State) : State := s.signalAfter n0 (.peer (m.replyWith 0x19 0 [] 0 false))
    let write (s : State) (a : Nat) (bs : List Byte) (t : TagRule) : State :=
      let w := (if m.poison then s.beforePoison l else s).localWrite a bs t true none
      let s := if m.poison then w.s.setPoison l true else w.s
      if w.refused then s.denyPeer m 1 else done s
    let data (s : State) (bs : List Byte) (t : BitVec 4) : State := s.reply m 0x18 0 (padTo 64 bs) t (s.poisoned l)
    match m.op with
    | 0x01 => some (data (s.setPeers l ((s.peersOf l).grant p false)) (s.readBytes l 64) (s.lineTags l))
    | 0x02 => some (data (s.setPeers l ((s.peersOf l).grant p true)) (s.readBytes l 64) (s.lineTags l))
    | 0x03 => some (data s (s.readBytes (l + argOff m.arg) (min (argLen m.arg) (64 - argOff m.arg))) 0)
    | 0x04 => some (write (gone s) l (padTo 64 m.data) .clear)
    | 0x05 =>
      let o := argOff m.arg
      some (write (gone s) (l + o) (m.data.take (min (argLen m.arg) (64 - o))) .clear)
    | 0x06 =>
      let h := s.peersOf l
      if h.excl && bitB h.who p then
        let w := s.lineWrite l (padTo 64 m.data) m.tags m.poison
        some (if w.refused then (gone w.s).denyPeer m 1 else done (gone w.s))
      else some (done s)
    | 0x07 =>
      let n := if m.arg / 8 % 2 = 1 then 8 else 4
      let a := l + m.addr % 64 / n * n
      let old := s.readNat a n
      let s := gone s
      if s.poisoned l then some (data s (s.readBytes a n) 0)
      else
        let gs := bytesNat (m.data.take 8) % 2 ^ (8 * n)
        let gd := bytesNat ((m.data.drop 8).take 8) % 2 ^ (8 * n)
        match atomFn (m.arg % 8) (8 * n) old gs gd with
        | none => some (data s (natBytes n old) 0)
        | some v =>
          let w := s.localWrite a (natBytes n (v % 2 ^ (8 * n))) .clear true none
          if w.refused then some (w.s.denyPeer m 1)
          else some (w.s.signalAfter n0 (.peer (m.replyWith 0x18 0 (padTo 64 (natBytes n old)) 0 false)))
    | 0x08 =>
      let a := l + m.addr % 64 / 16 * 16
      some (data s (s.readBytes a 16) (BitVec.ofNat 4 (b2n (s.tagAt a))))
    | 0x09 =>
      let a := l + m.addr % 64 / 16 * 16
      some (write (gone s) a (padTo 16 m.data) (.set (bitB m.tags 0)))
    | 0x20 => some ((gone s).requestLock ⟨l, .peer p m.txid m.src⟩)
    | 0x22 => s.peerCommit m
    | _ => some s

/-- A line that the remote directory of the home slice of `line` gives up for a new entry: the 16 ways of its set, one of 4,096, are full and
none is this line's (R376). Which line goes is free. -/
def State.rdirVictim (s : State) (line : Nat) : Option Nat :=
  if (s.peersOf line).who != 0 then none
  else
    let es := s.fullSet s.rdir 4096 line
    es[Config.freeNat s.free % es.length]?

/-- The first request waiting at a line served, if it can be: snoops are sent for the holders in its way. A lock request does not
wait for the line's lock, it queues for it. -/
def State.serveOne (s : State) (r : HomeReq) : State :=
  let need := s.needSnoops r
  let isLock := match r.msg with | some m => m.op == 0x20 || m.op == 0x22 | none => false
  if need ≠ [] then s.sendSnoops r.line r.excl need
  else if s.snoops.any (fun x => x.line == r.line) || (!isLock && s.lineLocked r.line 1) || s.headHeld r.line ||
      (r.excl && s.purseBusy r.line) then s
  else match (match r.msg with | some m => if m.op == 0x01 || m.op == 0x02 then s.rdirVictim r.line else none | none => none) with
  | some l => if s.snoops.any (fun x => s.home x.line == s.home r.line) then s
    else s.bumpFree.sendSnoops l true ((s.peersOf l).list.map (0x130 + ·))
  | none => match s.homeServe r with
    | none => s
    | some s' => { s' with homeReqs := s'.homeReqs.erase r }

/-- The request is the first at its line. -/
def State.firstAtLine (s : State) (r : HomeReq) : Bool := s.homeReqs.find? (fun x => x.line == r.line) == some r

/-- Requests served in order of arrival until none can go on, `fuel` rounds. -/
def State.serveRounds (s : State) : Nat → State
  | 0 => s
  | n + 1 => (s.homeReqs.foldl (fun s r => if s.firstAtLine r then s.serveOne r else s) s).serveRounds n

/-- Waiting lock requests whose line a peer holds have it snooped away (R376); then every request that can be served is. -/
def State.serveLines (s : State) : State :=
  let s := s.lockWaits.foldl (fun s l => s.sendSnoops l.line true ((s.peersOf l.line).list.map (0x130 + ·))) s
  (s.grantWaiting s.lockWaits.length).serveRounds (s.homeReqs.length + 1)

/-- A snoop of `line` at unit `agent` answered: the holder is gone, or a sharer; modified data arrives with it. -/
def State.snoopDone (s : State) (x : Snoop) (data : List Byte) (tags : BitVec 4) (poison : Bool) : State :=
  let s := { s with snoops := s.snoops.erase x }
  let s := if data = [] then s else
    let w := s.lineWrite x.line (padTo 64 data) tags poison
    if w.refused then w.s.ringGuardOf x.agent else w.s
  let h := if x.agent < 0x130 then s.clustersOf x.line else s.peersOf x.line
  let i := if x.agent < 0x130 then x.agent - 0x80 else x.agent - 0x130
  let h := if x.inval then h.drop i else { h with excl := false }
  (if x.agent < 0x130 then s.setClusters x.line h else s.setPeers x.line h).serveLines

/-! Messages -/

/-- A request for a line of this socket: checked by the port's guards, then queued at its home slice (R371, R376). -/
def State.homeArrive (s : State) (m : PeerMsg) (op : GOp) : State :=
  let set := 16 + m.port
  let (g, s) := s.guardCheck set 0 m.addr op false
  let g := if m.addr ≥ 0xFF0000000000 then some ⟨5, 0x3F, 0⟩ else g
  match g with
  | some r => (s.guardRefuse set r op m.addr m.src).denyPeer m 1
  | none =>
    if m.addr ≥ 0x100000000000 ∨ (s.localOf m.addr).isNone then s.denyPeer m 2
    else ({ s with homeReqs := s.homeReqs ++ [HomeReq.mk (pp m.port) m.line (needsExcl m.op) (some m)] } : State).serveLines

/-- The reply to request TXID kept for its requester. -/
def State.putReply (s : State) (t : PeerTx) (r : PeerReply) : State :=
  { s with peerTx := s.peerTx.map fun x => if x = t then { x with reply := some r } else x }
def State.dropTx (s : State) (t : PeerTx) : State := { s with peerTx := s.peerTx.erase t }
/-- The unanswered request of TXID tx at port p. -/
def State.txOf (s : State) (p tx : Nat) : Option PeerTx := s.peerTx.find? fun t => t.port == p && t.txid == tx && t.reply.isNone

/-- The store sent under TXID tx is answered: it leaves its store buffer. -/
def State.storeAnswered (s : State) (tx : Nat) : State :=
  s.eachCore fun _ c => { c with sb := sbDrop (·.wait == .peer tx) false c.sb }

/-- A store to a peer was refused: the core gets an imprecise write notice (R366); other initiators ring their guard set's NSRC
(R234). -/
def State.storeRefused (s : State) (t : PeerTx) : State :=
  let s := (s.dropTx t).storeAnswered t.txid
  if t.src < 0x80 then s.refuse (coreOf t.src) ⟨t.pa, pp t.port, false, false⟩
  else s.ringGuardOf t.src

/-- The filter of port p, full with 1,048,576 lines, gives one of them up: which is free (R376). -/
def State.filterRoom (s : State) (p : Nat) : State :=
  let ls := s.rlines.filter fun l => l.pa / 0x100000000000 == s.peerSock p + 1
  if ls.length < 1048576 then s
  else match ls[Config.freeNat s.free % ls.length]? with
    | some l => s.bumpFree.dropRLine l.pa false
    | none => s

/-- DAT: a granted line is installed, other data waits for its requester. -/
def State.datArrive (s : State) (m : PeerMsg) : State :=
  match s.txOf m.port m.txid with
  | none => s
  | some t =>
    match t.op with
    | 0x01 | 0x02 =>
      let l := t.pa / 64 * 64
      let s := (s.dropTx t).filterRoom m.port
      -- no L2 has it yet (R280)
      let s := s.setL2s l 0
      { s with rlines := s.rlines.filter (fun x => x.pa != l) ++ [RLine.mk l (padTo 64 m.data) m.tags m.poison (t.op == 0x02) false] }
    | 0x03 | 0x07 | 0x08 => s.putReply t (.data m.data m.tags m.poison)
    | _ => s

/-- The posting whose lock at port p carries TXID tx, and its leg. -/
def State.legOfTx (s : State) (p tx : Nat) : Option (Posting × Nat) :=
  s.postings.findSome? fun x =>
    match x.legs.zipIdx.find? fun l => l.1.txid == tx && (match l.1.pa with
      | some a => (match s.target a with | .window so _ => s.portTo so == some p | _ => false)
      | none => false) with
    | some l => some (x, l.2)
    | none => none

/-- The forwarded POST sent under TXID t.txid is answered: its core has its reply (R297). -/
def State.postAnswered (s : State) (t : PeerTx) (code : Nat) : State :=
  (s.dropTx t).modCore (coreOf t.src) fun c =>
    { c with posts := c.posts.map fun w => if w.id % 65536 = t.txid ∧ w.reply = none then { w with reply := some code } else w }

/-- A forwarded POST that its peer refuses, or that is lost with its link: the manual states no reply code, and gd gets a free value.
DESIGN CHOICE, log entry 107. -/
def State.postRefused (s : State) (t : PeerTx) : State := (s.postAnswered t (Config.freeWord s.free).toNat).bumpFree

/-- CMP (R366, R371): a store it answers is performed and leaves its store buffer (R253). -/
def State.cmpArrive (s : State) (p tx arg : Nat) : State :=
  match s.txOf p tx with
  | some t =>
    if isStore t.op then (if arg = 0 then (s.dropTx t).storeAnswered t.txid else s.storeRefused t)
    else if t.op = 0x06 && t.src ≥ 0x80 then (if arg = 0 then s.dropTx t else (s.dropTx t).ringGuardOf t.src)
    else if t.op = 0x25 then s.postRefused t
    else s.putReply t (.done arg)
  | none =>
    match s.legOfTx p tx with
    | some (x, leg) =>
      match x.phase with
      | .lockReq i =>
        (s.modPosting x.id fun q => { q.modLeg leg (fun l => { l with txid := 0 }) with
          lockFails := q.lockFails ++ [(0x18, leg)] }).haveLine x.id i leg []
      | _ => s
    | none => s.mirrorAnswer tx false

/-- LGR: a lock at a peer is granted (R319). -/
def State.lgrArrive (s : State) (m : PeerMsg) : State :=
  match s.legOfTx m.port m.txid with
  | some (x, leg) =>
    match x.phase with
    | .lockReq i =>
      let s := if m.poison then
          (s.modPosting x.id fun q => { q with lockFails := q.lockFails ++ [(0x19, leg)] }).tellerPoison x ((x.legs[leg]?).bind (·.pa))
        else s
      s.haveLine x.id i leg (padTo 64 m.data)
    | _ => s
  | none => s

/-- CAK for a commit. -/
def State.cakArrive (s : State) (p tx : Nat) : State :=
  match s.legOfTx p tx with
  | some (x, leg) => match (x.legs[leg]?).bind (·.pa) with
    | some a => s.commitAck x.id (a / 64 * 64)
    | none => s
  | none => s

/-- REL: the lock, or the request for it, is given up. -/
def State.relArrive (s : State) (m : PeerMsg) : State :=
  let own (o : LockOwner) : Bool := match o with | .peer p tx _ => p == m.port && tx == m.txid | _ => false
  let s := { s with lockWaits := s.lockWaits.filter (fun l => !own l.owner),
                    homeReqs := s.homeReqs.filter fun r => match r.msg with
                      | some x => !(x.op == 0x20 && x.port == m.port && x.txid == m.txid)
                      | none => true }
  let s := (s.cellLocks.filter fun l => own l.owner).foldl (fun s l => s.unlock l.line l.owner) s
  (s.reply m 0x24 0 [] 0 false).serveLines

/-- A commit is queued behind what its line still owes. -/
def State.cmtArrive (s : State) (m : PeerMsg) : State :=
  ({ s with homeReqs := s.homeReqs ++ [HomeReq.mk (pp m.port) m.line false (some m)] } : State).serveLines

/-- A piece of a forwarded POST; the last makes it an intake (R371). DEDUCED, log entry 42. DEDUCED, log entry 58. -/
def State.pfwArrive (s : State) (m : PeerMsg) : State :=
  let mine (x : PfwPart) : Bool := x.port == m.port && x.txid == m.txid
  let ts := (List.range 4).map (bitB m.tags ·)
  let part : Option PfwPart :=
    if m.arg % 16 = 0 then some ⟨m.port, m.txid, m.addr, padTo 64 m.data, ts⟩
    else (s.pfwParts.find? mine).map fun x => { x with bytes := x.bytes ++ padTo 64 m.data, tags := x.tags ++ ts }
  let rest := s.pfwParts.filter fun x => !mine x
  match part with
  | none => s
  | some x =>
    let go (s : State) : State :=
      if m.arg / 16 % 2 = 0 then { s with pfwParts := rest ++ [x] }
      else
        let s : State := { s with pfwParts := rest }
        match s.homeTeller x.addr with
        | none => s.denyPeer m 2
        | some n => s.newPosting (.peer m.port m.txid) n x.bytes x.tags (getF m.value ⟨3, 2⟩) (getF m.value ⟨63, 48⟩) (getF m.value ⟨1, 0⟩)
            (getF m.value ⟨47, 12⟩ * 4096) .sent
    if m.arg % 16 ≠ 0 then go s
    else
      let (g, s) := s.guardCheck (16 + m.port) 0 m.addr .read false
      match (if m.addr ≥ 0xFF0000000000 then some (GRefusal.mk 5 0x3F 0) else g) with
      | some r => (s.guardRefuse (16 + m.port) r .read m.addr m.src).denyPeer m 1
      | none => go s

/-- PRP: the reply to a forwarded POST. -/
def State.prpArrive (s : State) (p tx arg : Nat) : State :=
  match s.txOf p tx with
  | some t => if t.op = 0x25 then s.postAnswered t (arg % 256) else s
  | none => s

/-- A piece of a mirror record; the last completes it (R334). DEDUCED, log entry 46. -/
def State.jrcArrive (s : State) (m : PeerMsg) : State :=
  let n := m.arg / 32 % 16
  let old := (s.jParts.find? fun x => x.1 == m.port && x.2.1 == m.txid).map (·.2.2)
  let rest := s.jParts.filter fun x => !(x.1 == m.port && x.2.1 == m.txid)
  let bs := if m.arg % 16 = 0 then some (padTo 64 m.data) else old.map (· ++ padTo 64 m.data)
  match bs with
  | none => s
  | some bs =>
    if m.arg / 16 % 2 = 0 then { s with jParts := rest ++ [(m.port, m.txid, bs)] }
    else
      let len := 64 + 32 * (fieldAt bs 16 8 / 64 % 16)
      ({ s with jParts := rest } : State).mirrorReceive n (s.peerSock m.port) m.port m.txid (bs.take len)

/-- JAK: an OPEN record is answered, or a staged record acknowledged (R332, R334). -/
def State.jakArrive (s : State) (tx : Nat) : State :=
  let s := s.mirrorAnswer tx true
  match s.staging.find? fun r => r.mirrorOf.isNone && r.txid == tx with
  | some r => (s.mirrorAck r.teller tx).durReached
  | none => s

/-- A snoop of a line of the peer's memory held here (R376): modified data goes back with the reply. -/
def State.snoopedByPeer (s : State) (m : PeerMsg) : State :=
  let pa := s.windowPa m.port m.line
  match s.rlineAt pa with
  | none => s.reply m 0x12 0 [] 0 false
  | some l =>
    let s := if m.op = 0x10 then { s with rlines := s.rlines.filter (·.pa != l.pa) }
      else { s with rlines := s.rlines.map fun x => if x.pa = l.pa then { x with excl := false, dirty := false } else x }
    if l.dirty then s.reply m 0x12 0 l.data l.tags l.poison else s.reply m 0x12 0 [] 0 false

/-- SRSP. -/
def State.srspArrive (s : State) (m : PeerMsg) : State :=
  match s.snoops.find? fun x => x.agent == pp m.port && x.txid == m.txid with
  | some x => s.snoopDone x m.data m.tags m.poison
  | none => s

/-! Fences from peers (R377) -/

/-- A forwarded posting is applied or rejected. -/
def State.postApplied (s : State) (id : Nat) : Bool :=
  match s.postingOf id with
  | none => true
  | some p => match p.phase with | .durWait | .completing => true | _ => false

/-- The TXIDs of the REQ messages of port p that have been received, in whole or in part, and are not complete at their destination: a
request or a commit at its home slice, a lock not granted, a posting not applied, a participant's record not staged, a mirror record
without room (R377). -/
def State.peerLive (s : State) (p : Nat) : List Nat :=
  (s.homeReqs.filterMap fun r => r.msg.bind fun m => if m.port = p then some m.txid else none) ++
    (s.lockWaits.filterMap fun l => match l.owner with | .peer q tx _ => if q = p then some tx else none | _ => none) ++
    (s.postings.filterMap fun x => match x.origin with | .peer q tx => if q = p ∧ !s.postApplied x.id then some tx else none | _ => none) ++
    (s.pfwParts.filterMap fun x => if x.port = p then some x.txid else none) ++
    (s.jParts.filterMap fun x => if x.1 = p then some x.2.1 else none) ++
    (s.jWait.filterMap fun x => if x.2.2.1 = p then some x.2.2.2.1 else none) ++
    (s.parts.filter (·.port == p)).flatMap fun r => r.got.map (·.2.2)

/-- FAK goes out for every marker whose earlier messages have completed. DEDUCED, log entry 54. -/
def State.answerFncs (s : State) : State :=
  s.fncs.foldl (fun s f =>
    if (f.txs.any fun t => (s.peerLive f.port).contains t) || f.rings.any s.ringWaits.contains then s
    else ({ s with fncs := s.fncs.erase f } : State).send ⟨f.port, 0x32, [], false, 0, f.txid, pp f.port, 0, 0⟩) s

/-- Every IPI whose port's earlier writes are visible at their home slices fires; a port's IPIs fire in the order written (R215, R233). -/
def State.fireRings (s : State) : State :=
  s.ringWaits.foldl (fun s w =>
    if w.reqs.any s.homeReqs.contains || (s.ringWaits.find? (·.port == w.port)) != some w then s
    else ({ s with ringWaits := s.ringWaits.erase w } : State).firePriv w.core w.k) s

/-- A peer's IPI waits for what its port has written before it (R215). -/
def State.ipiArrive (s : State) (m : PeerMsg) : State :=
  let rs := s.homeReqs.filter fun r => r.unit == pp m.port && (match r.msg with | some x => needsExcl x.op || x.op == 0x22 | none => false)
  ({ s with ringWaits := s.ringWaits ++ [⟨m.port, m.arg % 128, 0x20 + m.arg / 128 % 8, rs⟩] } : State).fireRings

/-- DEDUCED, log entry 54. -/
def State.fncArrive (s : State) (m : PeerMsg) : State :=
  let w := FncWait.mk m.port m.txid (s.peerLive m.port) (s.ringWaits.filter (·.port == m.port))
  ({ s with fncs := s.fncs ++ [w] } : State).answerFncs

/-- A piece of a sweep list (R95). -/
def State.swlArrive (s : State) (m : PeerMsg) : State :=
  let key := m.port * 65536 + m.txid
  let is := (List.range 16).map fun i => fieldAt (padTo 64 m.data) (4 * i) 4
  let old := ((s.sweep.pieces.find? fun x => x.1 == key).map (·.2)).getD []
  let all := if m.arg % 256 = 0 then is else old ++ is
  let rest := s.sweep.pieces.filter fun x => x.1 != key
  if m.arg / 256 % 2 = 0 then { s with sweep := { s.sweep with pieces := rest ++ [(key, all)] } }
  else ({ s with sweep := { s.sweep with pieces := rest } } : State).sweepForwarded m.port m.txid all

/-- A message of the peer on port m.port takes effect (R371); none for an OP that is not listed. -/
def State.peerMsg (s : State) (m : PeerMsg) : Option State :=
  match m.op with
  | 0x01 => some (s.homeArrive m .read)
  | 0x02 => some (s.homeArrive m .write)
  | 0x03 => some (s.homeArrive m .read)
  | 0x04 => some (s.homeArrive m .write)
  | 0x05 => some (s.homeArrive m .write)
  | 0x06 => some (({ s with homeReqs := s.homeReqs ++ [HomeReq.mk (pp m.port) m.line true (some m)] } : State).serveLines)
  | 0x07 => some (s.homeArrive m .atomic)
  | 0x08 => some (s.homeArrive m .coinLoad)
  | 0x09 => some (s.homeArrive m .coinStore)
  | 0x10 | 0x11 => some (s.snoopedByPeer m)
  | 0x12 => some (s.srspArrive m)
  | 0x18 => some (s.datArrive m)
  | 0x19 => some (s.cmpArrive m.port m.txid m.arg)
  | 0x1A => some (match s.txOf m.port m.txid with | some t => s.storeRefused t | none => s)
  | 0x20 => some (s.homeArrive m .lock)
  | 0x21 => some (s.lgrArrive m)
  | 0x22 => some (s.cmtArrive m)
  | 0x23 => some (s.relArrive m)
  | 0x24 => some (s.cakArrive m.port m.txid)
  | 0x25 => some (s.pfwArrive m)
  | 0x26 => some (s.prpArrive m.port m.txid m.arg)
  | 0x28 => some (s.jrcArrive m)
  | 0x29 => some (s.jakArrive m.txid)
  | 0x30 => some (s.ipiArrive m)
  | 0x31 => some (s.fncArrive m)
  | 0x32 => some (s.portAnswered ⟨m.port % 7, Nat.mod_lt _ (by decide)⟩ false)
  | 0x33 => some (s.swlArrive m)
  | 0x34 => some (s.sweepAnswer m.port m.txid m.arg)
  | _ => none

/-! A link lost (R374) -/

/-- What this socket's requests to port p come to. -/
def State.txLost (s : State) (p : Nat) : State :=
  (s.peerTx.filter fun t => t.port == p && t.reply.isNone).foldl (fun s t =>
    if isStore t.op then
      if t.src < 0x80 then ((s.dropTx t).storeAnswered t.txid).refuse (coreOf t.src) ⟨t.pa, pp p, false, true⟩ else s.storeRefused t
    else if t.op = 0x06 && t.src ≥ 0x80 then s.dropTx t
    else if t.op = 0x25 then s.postRefused t
    else s.putReply t (.done 2)) s

/-- The peer on port p holds no local line any more: a line it held exclusive is poisoned. -/
def State.dropPeerLines (s : State) (p : Nat) : State :=
  s.rdir.foldl (fun s e =>
    if bitB e.2.who p then
      let a := e.1 * 64
      let s := if e.2.excl then s.poisonLine a else s
      s.setPeers a (e.2.drop p)
    else s) s

/-- Everything the peer on port p had under way here ends. -/
def State.peerGone (s : State) (p : Nat) : State :=
  let own (o : LockOwner) : Bool := match o with | .peer q _ _ => q == p | _ => false
  let s := (s.parts.filter (·.port == p)).foldl (fun s r => s.partStage r) { s with parts := s.parts.filter (·.port != p) }
  let s := { s with lockWaits := s.lockWaits.filter (fun l => !own l.owner), homeReqs := s.homeReqs.filter (·.unit != pp p),
                    snoops := s.snoops.filter (·.agent != pp p), fncs := s.fncs.filter (·.port != p), held := s.held.filter (·.1.port != p),
                    ringWaits := s.ringWaits.filter (·.port != p), pfwParts := s.pfwParts.filter (·.port != p), jParts := s.jParts.filter (·.1 != p),
                    cmtNotes := s.cmtNotes.filter (·.1 != p), jWait := s.jWait.filter (·.2.2.1 != p),
                    sweep := { s.sweep with pieces := s.sweep.pieces.filter fun x => x.1 / 65536 != p } }
  (s.cellLocks.filter fun l => own l.owner).foldl (fun s l => s.unlock l.line l.owner) s

/-- Sweeps waiting on port p: an unanswered list counts as refused, an unfinished one as done. DEDUCED, log entry 55. -/
def State.sweepsLost (s : State) (p : Nat) : State :=
  s.sweep.jobs.foldl (fun s j =>
    if j.origin.isNone && j.asked.contains p then s.sweepAnswer p (j.id % 65536) 1
    else if j.origin.isNone && j.undone.contains p then s.sweepAnswer p (j.id % 65536) 2 else s) s

/-- Mirror streams through port p: MIRDOWN (R334); an OPEN not answered counts as refused. -/
def State.mirrorsLost (s : State) (p : Nat) : State :=
  (List.range 16).foldl (fun s n =>
    if s.jSock n ≠ s.peerSock p then s
    else
      let s := if s.jMirror n then s.setRf (R.TLR_JSTAT (tu n)) F.TLR_JSTAT_MIRDOWN 1 else s
      match s.jMirPend.find? fun e => e.1 == n with
      | some e => if e.2 = 65537 then s else s.mirrorAnswer (e.2 - 1) false
      | none => s) s

/-- IPIs queued at port p are discarded and counted; nothing queued survives. -/
def State.queueLost (s : State) (p : Nat) : State :=
  let n := (s.peerOut.filter fun m => m.port == p && m.op == 0x30).length
  let s := (List.range n).foldl (fun s _ => s.incRf R.DBH_STAT F.DBH_STAT_BADRING) s
  { s with peerOut := s.peerOut.filter (·.port != p) }

/-- What stays of a link that has sent DOWN: the flit alone. -/
def Link.ended (l : Link) : Link := { Link.reset with ctl := l.ctl, wire := l.wire }

/-- Port p declares its link down (R374): time following on it keeps its rate. DEDUCED, log entry 55. -/
def State.portDown (s : State) (p : Nat) : State :=
  let carried := s.portLinked p
  let up := s.portUp p
  let so := s.peerSock p
  let lines := s.rlines.filter fun l => l.pa / 0x100000000000 == so + 1
  let s := s.txLost p
  let s := if carried then s.postingsLinkLost so else s
  let s := { s with rlines := s.rlines.filter fun l => l.pa / 0x100000000000 != so + 1 }
  let s := ((s.dropPeerLines p).peerGone p).sweepsLost p
  let s := s.portAnswered ⟨p % 7, Nat.mod_lt _ (by decide)⟩ true
  let s := (s.mirrorsLost p).queueLost p
  let s := s.setRf (R.PEER_TIME (pp p)) F.PEER_TIME_ALIGNED 0
  let s := if s.rf (R.PEER_CFG (pp p)) F.PEER_CFG_FOLLOW = 1 then { s with follow := 0 } else s
  let s := s.setPeerState p 4
  let s := s.setLink p (if up then ((s.linkOf p).sendCtl .down).ended else Link.reset)
  let s := if carried || !lines.isEmpty then s.deferred (pp p) 1 none else s
  s.serveLines

/-! Messages arriving (R31, R33, R371) -/

/-- The port keeps an arriving message for later: in BRUMATION every class but SNP; in DRAIN requests that would start something new.
DEDUCED, log entry 77. -/
def State.portHolds (s : State) (op : Nat) : Bool :=
  match s.mode with
  | .brumation => opClass op != 2
  | .drain => (1 ≤ op && op ≤ 9) || op == 0x20 || op == 0x25 || op == 0x30 || op == 0x33
  | _ => false

/-- One message taken from a flit: held, or delivered; an OP not listed is counted. `last` marks the last message of a held slot. -/
def State.takeMsg (s : State) (m : PeerMsg) (last : Bool) : State :=
  if s.portHolds m.op then { s with held := s.held ++ [(m, last)] }
  else match s.peerMsg m with
    | some s' => s'
    | none => s.incRf (R.PEER_STAT (pp m.port)) F.PEER_STAT_BADMSG

/-! Commands: messages as their flits deliver them -/

/-- A message arrives at a port that carries messages. DESIGN CHOICE, log entry 53. -/
def arrive (m : PeerMsg) (s : State) : Res := s.alive fun s => if s.portUp m.port ∧ s.portRuns m.port then s.takeMsg m false else s

def execRds (port : PortId) (tx src : Nat) (a : Word) (s : State) : Res := arrive ⟨port, 0x01, [], false, 0, tx, src, 0, a⟩ s
def execRdx (port : PortId) (tx src : Nat) (a : Word) (s : State) : Res := arrive ⟨port, 0x02, [], false, 0, tx, src, 0, a⟩ s
def execRdu (port : PortId) (tx src arg : Nat) (a : Word) (s : State) : Res := arrive ⟨port, 0x03, [], false, 0, tx, src, arg, a⟩ s
def execWrl (port : PortId) (tx src : Nat) (a : Word) (data : List Byte) (poison : Bool) (s : State) : Res :=
  arrive ⟨port, 0x04, padTo 64 data, poison, 0, tx, src, 0, a⟩ s
def execWrp (port : PortId) (tx src arg : Nat) (a : Word) (data : List Byte) (poison : Bool) (s : State) : Res :=
  arrive ⟨port, 0x05, padTo 64 data, poison, 0, tx, src, arg, a⟩ s
def execWbk (port : PortId) (tx src : Nat) (a : Word) (data : List Byte) (tags : BitVec 4) (poison : Bool) (s : State) : Res :=
  arrive ⟨port, 0x06, padTo 64 data, poison, tags, tx, src, 0, a⟩ s
def execAtm (port : PortId) (tx src arg : Nat) (a : Word) (data : List Byte) (s : State) : Res :=
  arrive ⟨port, 0x07, padTo 64 data, false, 0, tx, src, arg, a⟩ s
def execRdc (port : PortId) (tx src : Nat) (a : Word) (s : State) : Res := arrive ⟨port, 0x08, [], false, 0, tx, src, 0, a⟩ s
def execWrc (port : PortId) (tx src : Nat) (a : Word) (data : List Byte) (tags : BitVec 4) (poison : Bool) (s : State) : Res :=
  arrive ⟨port, 0x09, padTo 64 data, poison, tags, tx, src, 0, a⟩ s
def execSnpi (port : PortId) (tx : Nat) (a : Word) (s : State) : Res := arrive ⟨port, 0x10, [], false, 0, tx, 0, 0, a⟩ s
def execSnps (port : PortId) (tx : Nat) (a : Word) (s : State) : Res := arrive ⟨port, 0x11, [], false, 0, tx, 0, 0, a⟩ s

/-- With `modified`, the reply carries the line. -/
def execSrsp (port : PortId) (tx : Nat) (modified : Bool) (data : List Byte) (tags : BitVec 4) (poison : Bool) (s : State) : Res :=
  arrive ⟨port, 0x12, if modified then padTo 64 data else [], poison, tags, tx, 0, 0, 0⟩ s
def execDat (port : PortId) (tx : Nat) (data : List Byte) (tags : BitVec 4) (poison : Bool) (s : State) : Res :=
  arrive ⟨port, 0x18, padTo 64 data, poison, tags, tx, 0, 0, 0⟩ s
def execCmp (port : PortId) (tx arg : Nat) (s : State) : Res := arrive ⟨port, 0x19, [], false, 0, tx, 0, arg, 0⟩ s
def execWnt (port : PortId) (tx : Nat) (a : Word) (s : State) : Res := arrive ⟨port, 0x1A, [], false, 0, tx, 0, 0, a⟩ s
def execLck (port : PortId) (tx src : Nat) (a : Word) (s : State) : Res := arrive ⟨port, 0x20, [], false, 0, tx, src, 0, a⟩ s
def execLgr (port : PortId) (tx : Nat) (data : List Byte) (poison : Bool) (s : State) : Res :=
  arrive ⟨port, 0x21, padTo 64 data, poison, 0, tx, 0, 0, 0⟩ s
/-- What comes with a commit is kept for its participant record. R371's layout has no place for it; a commit decoded from a flit's bits
comes without it. DEDUCED, log entry 17. -/
def execCmt (port : PortId) (tx src : Nat) (a : Word) (data : List Byte) (s : State) (note : Option PostNote := none) : Res :=
  arrive ⟨port, 0x22, padTo 64 data, false, 0, tx, src, 0, a⟩ (match note with
    | some w => if s.inReset || !s.portUp port || !s.portRuns port then s else { s with cmtNotes := s.cmtNotes ++ [(port.val, tx, w)] }
    | none => s)
def execRel (port : PortId) (tx src : Nat) (a : Word) (s : State) : Res := arrive ⟨port, 0x23, [], false, 0, tx, src, 0, a⟩ s
def execCak (port : PortId) (tx : Nat) (s : State) : Res := arrive ⟨port, 0x24, [], false, 0, tx, 0, 0, 0⟩ s
def execPfw (port : PortId) (tx src arg : Nat) (v : Word) (data : List Byte) (tags : BitVec 4) (s : State) : Res :=
  arrive ⟨port, 0x25, padTo 64 data, false, tags, tx, src, arg, v⟩ s
def execPrp (port : PortId) (tx arg : Nat) (s : State) : Res := arrive ⟨port, 0x26, [], false, 0, tx, 0, arg, 0⟩ s
def execJrc (port : PortId) (tx src arg : Nat) (data : List Byte) (s : State) : Res :=
  arrive ⟨port, 0x28, padTo 64 data, false, 0, tx, src, arg, 0⟩ s
def execJak (port : PortId) (tx : Nat) (v : Word) (s : State) : Res := arrive ⟨port, 0x29, [], false, 0, tx, 0, 0, v⟩ s
def execIpi (port : PortId) (arg : Nat) (s : State) : Res := arrive ⟨port, 0x30, [], false, 0, 0, 0, arg, 0⟩ s
def execFnc (port : PortId) (tx : Nat) (v : Word) (s : State) : Res := arrive ⟨port, 0x31, [], false, 0, tx, 0, 0, v⟩ s
def execFak (port : PortId) (tx : Nat) (s : State) : Res := arrive ⟨port, 0x32, [], false, 0, tx, 0, 0, 0⟩ s
def execSwl (port : PortId) (tx arg : Nat) (data : List Byte) (s : State) : Res :=
  arrive ⟨port, 0x33, padTo 64 data, false, 0, tx, 0, arg, 0⟩ s
def execSwr (port : PortId) (tx arg : Nat) (s : State) : Res := arrive ⟨port, 0x34, [], false, 0, tx, 0, arg, 0⟩ s

/-! Commands of the home slices -/

/-- A unit's request for a line, shared or exclusive (R263). Requests of the same teller/vault cycle come one after another, in the order
of their commands. DESIGN CHOICE, log entry 103. -/
def execCoherentRequest (unit a : Nat) (excl : Bool) (s : State) : Res :=
  s.alive fun s =>
    match s.localOf a with
    | none => s
    | some a => ({ s with homeReqs := s.homeReqs ++ [HomeReq.mk unit (a / 64 * 64) excl none] } : State).serveLines

/-- A snoop reaches its cluster, which gives the line up or keeps it shared. A snoop that no request called for is the
directory's, evicting its entry (R280). DESIGN CHOICE, log entry 53. -/
def execSnoop (cluster : Idx16) (a : Nat) (s : State) : Res :=
  s.alive fun s =>
    let l := a / 64 * 64
    let s := s.count (0x80 + cluster.val) 0x11 1
    match s.snoops.find? fun x => x.line == l && x.agent == 0x80 + cluster.val with
    | some x => s.snoopDone x [] 0 false
    | none => s.setClusters l ((s.clustersOf l).drop cluster.val)

/-- EVICT of port p's guard set: every line the peer holds is snooped (R376). -/
def State.evict (s : State) (p : Nat) : State :=
  s.rdir.foldl (fun s e => if bitB e.2.who p then s.sendSnoops (e.1 * 64) true [pp p] else s) s
/-- The peer on port p holds some local line. -/
def State.peerHolds (s : State) (p : Nat) : Bool := s.rdir.any fun e => bitB e.2.who p

def execGuardEvict (port : PortId) (s : State) : Res := s.alive fun s => s.evict port

end Sys2Proof.Machine
end

