-- ==== Sys2Proof/Machine/Link.lean ====
section
/-!
DEFINITION. The Filvo Link layer (R367–R375, R378): flits received and sent, credits, replay and retrains, identification,
and time exchanges.
-/
namespace Sys2Proof.Machine

def Link.credit (l : Link) (c : Nat) : Nat := l.credits[c % 4]'(Nat.mod_lt _ (by decide))
def Link.addCredit (l : Link) (c n : Nat) : Link := { l with credits := l.credits.set (c % 4) (l.credit c + n) (Nat.mod_lt _ (by decide)) }
def Link.useCredit (l : Link) (c : Nat) : Link := { l with credits := l.credits.set (c % 4) (l.credit c - 1) (Nat.mod_lt _ (by decide)) }
def Link.owe (l : Link) (c : Nat) : Link :=
  { l with owed := l.owed.set (c % 4) (l.owed[c % 4]'(Nat.mod_lt _ (by decide)) + 1) (Nat.mod_lt _ (by decide)) }

/-! Sending -/

/-- The messages of port p's queue that the next slot of class c takes: one data message, or up to five short ones (R370). In BRUMATION
journal records and their acknowledgements stay queued (R31, R338). -/
def State.slotOf (s : State) (p c : Nat) : List PeerMsg :=
  let q := s.peerOut.filter fun m => m.port == p && opClass m.op == c && !(s.mode == .brumation && (m.op == 0x28 || m.op == 0x29))
  match q with
  | [] => []
  | m :: _ => if m.hasData then [m] else (q.takeWhile fun x => !x.hasData).take 5

/-- The class the next slot is taken from: PRI first, then RSP, SNP and REQ in turn (R372); none without credit or message. -/
def State.slotClass (s : State) (p : Nat) (l : Link) : Option Nat :=
  let ready (c : Nat) : Bool := l.credit c > 0 && s.slotOf p c != []
  let turn := match l.rr with | 1 => [2, 0, 1] | 2 => [0, 1, 2] | _ => [1, 2, 0]
  if ready 3 then some 3 else turn.find? ready

/-- Up to `n` slots taken from the queue of port p. -/
def State.takeSlots (s : State) (p : Nat) : Nat → List (List PeerMsg) × State
  | 0 => ([], s)
  | n + 1 =>
    let l := s.linkOf p
    match s.slotClass p l with
    | none => ([], s)
    | some c =>
      let ms := s.slotOf p c
      let l := (l.useCredit c)
      let s := s.setLink p (if c = 3 then l else { l with rr := c })
      let s := { s with peerOut := ms.foldl (fun q m => q.erase m) s.peerOut }
      let (r, s) := s.takeSlots p n
      (ms :: r, s)

/-- Port p sends one flit: PAYLOAD when something is ready and the replay buffer has room, else IDLE (R369, R372, R373).
DEDUCED, log entry 55. -/
def State.sendFlit (s : State) (p : Nat) : State :=
  let idle (l : Link) : Link := { l.paid with wire := [l.flit 0 l.txSeq 0 []] }
  if s.peerState p ≠ 2 ∨ !s.portRuns p then s
  else if (s.linkOf p).replay.length ≥ 512 then s.modLink p idle
  else
    let (slots, s) := s.takeSlots p 3
    s.modLink p fun l =>
      if slots = [] then idle l
      else
        let f := l.newFlit slots
        { l.paid with txSeq := f.fseq, replay := l.replay ++ [f], wire := [l.payloadFlit f] }

/-- Every port sends a flit. -/
def State.pump (s : State) : State := (List.range 7).foldl (fun s p => s.sendFlit p) s

/-! Replay (R373) -/

/-- Flits up to ACKSEQ `a` are acknowledged. -/
def State.acked (s : State) (p a : Nat) : State :=
  s.modLink p fun l =>
    match l.replay.findIdx? fun f => f.fseq == a with
    | some i => { l with replay := l.replay.drop (i + 1) }
    | none => l

/-- The flits `rep` of port p's replay buffer go out again: counted and reported. DEDUCED, log entry 55. -/
def State.resent (s : State) (p : Nat) (rep : List Flit) : State :=
  let n := rep.length
  if n = 0 then s
  else
    let now := s.time.toNat
    let k := R.PEER_STAT (pp p)
    let s := s.modLink p fun l => { l with
      replay := rep, resendTimes := (l.resendTimes ++ List.replicate n now).filter fun t => now < t + 1000000, wire := rep.map l.payloadFlit }
    let s := s.setRf k F.PEER_STAT_REPLAYS (satTo 65535 (s.rf k F.PEER_STAT_REPLAYS + n))
    (s.errRecord ⟨pp p, 0, .corrected, false, none, 0, false, []⟩).count (pp p) 0x12 n

/-- A retrain of port p starts (R373). -/
def State.retrain (s : State) (p : Nat) : State := (s.incRf (R.PEER_STAT (pp p)) F.PEER_STAT_RETRAINS).setPeerState p 3

/-- Every unacknowledged flit sent again. A flit already resent four times, or 16 resends within 1 ms, start a retrain.
DEDUCED, log entry 55. -/
def State.resend (s : State) (p : Nat) : State :=
  let q := (s.linkOf p).replay
  if q = [] ∨ s.peerState p ≠ 2 ∨ !s.portRuns p then s
  else if q.any fun f => f.resends ≥ 4 then s.retrain p
  else
    let s := s.resent p (q.map fun f => { f with resends := f.resends + 1 })
    if (s.linkOf p).resendTimes.length ≥ 16 then s.retrain p else s

/-- A NAK with ACKSEQ a. -/
def State.nakArrive (s : State) (p a : Nat) : State := (s.acked p a).resend p

/-! Identification (R367, R375) -/

/-- The path to the peer trained: mirrors resume (R334). DEDUCED, log entry 46. -/
def State.pathUp (s : State) (p : Nat) : State :=
  (List.range 16).foldl (fun s n =>
    if s.jMirror n && s.jSock n == s.peerSock p then (s.setRf (R.TLR_JSTAT (tu n)) F.TLR_JSTAT_MIRDOWN 0).resendMirror n else s) s

/-- The applied layout of lane group g has Filvo Link of the width that X8 names on port 0 (R348, R368). -/
def State.filvoOn (s : State) (g : Nat) (x8 : Bool) : Bool :=
  let c := s.layout (0x120 + g)
  getF c F.LGP_CFG_PROTO0 == 3 && getF c F.LGP_CFG_WIDTH0 == (if x8 then 3 else 4)

/-- Port p's lane group can train it: the layout as applied describes it. -/
def State.laneReady (s : State) (p : Nat) : Bool :=
  s.filvoOn (s.rf (R.PEER_CFG (pp p)) F.PEER_CFG_LGRP) (s.rf (R.PEER_CFG (pp p)) F.PEER_CFG_X8 == 1)

/-- An IDENT flit: the peer's socket ID and its initial credits; `delay` is the one-way delay measured in training, in ns. -/
def State.identArrive (s : State) (p so : Nat) (cr : List Nat) (delay : Nat) : State :=
  if s.peerState p ≠ 1 ∨ !s.portRuns p ∨ !s.laneReady p then s
  else
    let k := R.PEER_STAT (pp p)
    let good := so = s.peerSock p ∧ so ≠ s.socket.toNat
    let far := delay > 1000
    let s := ((s.setRf k F.PEER_STAT_RSOCK so).setRf k F.PEER_STAT_MISMATCH (b2n (!decide good))).setRf k F.PEER_STAT_FAR (b2n far)
    if good ∧ ¬ far then
      let l := { Link.reset with credits := Vector.ofFn fun i => cr.getD i.val 0 }
      ((s.setLink p l).setPeerState p 2).pathUp p
    else s

/-- A PEER_CFG value that EN accepts at port p: LGRP at most 7, its group's port 0 Filvo Link of the width X8 names, and no other
enabled port with the same LGRP or SOCKET. -/
def State.peerCfgOk (s : State) (p : Nat) (v : Word) : Bool :=
  let g := getF v F.PEER_CFG_LGRP
  g ≤ 7 && s.filvoOn g (getF v F.PEER_CFG_X8 == 1) &&
    !(List.range 7).any fun q => q != p && s.rf (R.PEER_CFG (pp q)) F.PEER_CFG_EN == 1 &&
      (s.rf (R.PEER_CFG (pp q)) F.PEER_CFG_LGRP == g || s.peerSock q == getF v F.PEER_CFG_SOCKET)

/-- A PEER_CFG write: EN from 0 to 1 trains the port, if it runs (R33), from 1 to 0 declares its link down (R367, R374). DEDUCED, log entry 55. -/
def State.peerCfgWrite (s : State) (p : Nat) (v : Word) : State :=
  let k := R.PEER_CFG (pp p)
  let o := s.reg k
  let on := getF o F.PEER_CFG_EN = 1
  let n := if on then setF v F.PEER_CFG_LGRP (getF o F.PEER_CFG_LGRP) else v
  let n := n &&& (BitVec.ofNat 64 0x3FF)
  if on then
    if getF v F.PEER_CFG_EN = 1 then s.setReg k n else (s.portDown p).setReg k n
  else if getF v F.PEER_CFG_EN = 1 ∧ s.peerCfgOk p n then
    let s := s.setReg k n
    if s.portRuns p then (s.setPeerState p 1).setLink p s.identLink else s
  else s.setReg k (setF n F.PEER_CFG_EN 0)

/-! Time alignment (R378) -/

/-- TREQ leaves the follower port. -/
def State.timeSync (s : State) (p : Nat) : State :=
  if s.rf (R.PEER_CFG (pp p)) F.PEER_CFG_FOLLOW = 1 ∧ s.peerState p = 2 ∧ s.portRuns p then
    s.modLink p fun l => { l.sendCtl (.treq s.time) with treq := some s.time }
  else s

/-- TREQ arrives: TRSP with t2 and t3. -/
def State.treqArrive (s : State) (p : Nat) : State :=
  if s.peerState p = 2 ∧ s.portRuns p then s.modLink p fun l => l.sendCtl (.trsp s.time s.time) else s

/-- TRSP arrives at the follower: θ and δ; the first exchange in LOAD steps the time base, later ones correct phase and rate slowly, the
rate by a law that is not stated and hence free: DESIGN CHOICE, log entry 144. Without REFCLK nothing aligns (R459).
DEDUCED, log entry 55. -/
def State.trspArrive (s : State) (p : Nat) (t2 t3 : Word) : State :=
  let l := s.linkOf p
  match l.treq with
  | none => s
  | some t1 =>
    if s.peerState p ≠ 2 ∨ !s.portRuns p then s
    else
      let a := (t2 - t1).toInt
      let b := (s.time - t3).toInt
      let th := (a - b).tdiv 2
      let de := (a + b).tdiv 2
      let close := if th.natAbs ≤ 2 ∧ s.pins.refclk then l.close + 1 else 0
      let k := R.PEER_TIME (pp p)
      let s := (s.setRf k F.PEER_TIME_OFFSET (ofInt 32 th).toNat).setRf k F.PEER_TIME_DELAY (ofInt 16 de).toNat
      let s := if close ≥ 8 then s.setRf k F.PEER_TIME_ALIGNED 1 else s
      let s := s.setLink p { l with treq := none, stepped := true, close := close }
      if s.mode == .load && !l.stepped then { s with time := s.time + ofInt 64 th, follow := 0 }
      else { s.bumpFree with follow := th, followRate := toSigned 32 (Config.freeWord s.free).toNat }

/-! Flits received (R369, R373) -/

/-- The messages of a slot's 80 bytes: one data message, or the short messages up to five; units of OP 0x00 are unused. -/
def slotMsgs (p : Nat) (bs : List Byte) : List PeerMsg :=
  let head (b : List Byte) (data : List Byte) : PeerMsg :=
    let ctl := fieldAt b 1 1
    ⟨p, fieldAt b 0 1, data, ctl / 8 % 2 == 1, BitVec.ofNat 4 (ctl / 16), fieldAt b 2 2, fieldAt b 4 2 % 512, fieldAt b 6 2, wordAt b 8⟩
  if fieldAt bs 1 1 / 4 % 2 = 1 then [head bs (padTo 64 (bs.drop 16))]
  else ((List.range 5).map fun i => head (bs.drop (16 * i)) []).filter fun m => m.op != 0

/-- The class of a slot, from its first header. -/
def slotCls (bs : List Byte) : Nat := fieldAt bs 1 1 % 4

/-- A PAYLOAD flit in order: its slots delivered, PRI first, and their buffers freed. -/
def State.payload (s : State) (p : Nat) (hdr : Nat) (bs : List Byte) : State :=
  let slots := ((List.range 3).filter fun k => hdr / 2 ^ (26 + k) % 2 == 1).map fun k => padTo 80 (bs.drop (6 + 80 * k))
  let order := (slots.filter fun b => slotCls b == 3) ++ slots.filter fun b => slotCls b != 3
  order.foldl (fun s b =>
    let ms := slotMsgs p b
    let held := ms.any fun m => s.portHolds m.op
    let s := ms.zipIdx.foldl (fun s x => s.takeMsg x.1 (held && x.2 + 1 == ms.length)) s
    if held then s else s.modLink p fun l => l.owe (slotCls b)) s

/-- What the ports hold is delivered, and the buffers of its slots freed (R31). DEDUCED, log entry 77. -/
def State.releaseHeld (s : State) : State :=
  s.held.foldl (fun s x =>
    let s := s.takeMsg x.1 x.2
    if x.2 then s.modLink x.1.port fun l => l.owe (opClass x.1.op) else s) ({ s with held := [] } : State)

/-- A flit of 256 bytes arrives at port p after FEC (R369, R373). A bad CRC is answered with NAK; PAYLOAD flits out of order are
discarded, their credits with them, since they come again (R372). `delay` counts for IDENT alone. -/
def State.flitArrive (s : State) (p : Nat) (bs : List Byte) (delay : Nat) : State :=
  let st := s.peerState p
  if st = 0 ∨ st = 4 ∨ !s.portRuns p then s
  else if (crc32c (padTo 246 bs)).toNat ≠ fieldAt bs 246 4 then
    s.modLink p fun l => l.sendCtl (.nak l.rxSeq)
  else
    let h := fieldAt bs 0 6
    let ty := h % 4
    let ack := h / 2 ^ 14 % 4096
    let next := ((s.linkOf p).rxSeq + 1) % 4096
    let credit (l : Link) : Link := l.addCredit (h / 2 ^ 29 % 4) (h / 2 ^ 31 % 256)
    let s := s.acked p ack
    let s := if ty = 1 then s else s.modLink p credit
    let s := match ty with
      | 1 =>
        let f := h / 4 % 4096
        if st = 2 ∧ f = next then (s.modLink p fun l => { credit l with rxSeq := f }).payload p h bs else s
      | 2 => s.nakArrive p ack
      | 3 =>
        match fieldAt bs 6 1 with
        | 1 => s.identArrive p (fieldAt bs 7 1) ((List.range 4).map fun i => fieldAt bs (8 + i) 1) delay
        | 2 => s.treqArrive p
        | 3 => s.trspArrive p (wordAt bs 8) (wordAt bs 16)
        | 4 => s.portDown p
        | _ => s
      | _ => s
    if ty = 1 then s.sendFlit p else s

/-! Commands -/

def execFlitReceive (port : PortId) (bytes : List Byte) (delay : Nat) (s : State) : Res :=
  s.alive fun s => s.flitArrive port (padTo 256 bytes) delay
def execNakReceive (port : PortId) (ack : Nat) (s : State) : Res := s.alive fun s => s.nakArrive port (ack % 4096)

/-- ACKSEQ has not advanced for 2 µs: the sender resends from the oldest flit. -/
def execAckTimeout (port : PortId) (s : State) : Res := s.alive fun s => s.resend port

/-- A retrain ends: the port resumes from its replay buffer, each flit resent for the first time since, or the link is down.
DEDUCED, log entry 55. -/
def execRetrainComplete (port : PortId) (ok : Bool) (s : State) : Res :=
  s.alive fun s =>
    if s.peerState port ≠ 3 ∨ !s.portRuns port then s
    else if ok then
      ((s.setPeerState port 2).modLink port fun l => { l with resendTimes := [] }).resent port
        ((s.linkOf port).replay.map fun f => { f with resends := 1 })
    else s.portDown port

def execDownReceive (port : PortId) (s : State) : Res :=
  s.alive fun s => if s.peerState port = 0 ∨ s.peerState port = 4 then s else s.portDown port
def execIdentReceive (port : PortId) (socket : Nat) (credits : List Nat) (delay : Nat) (s : State) : Res :=
  s.alive fun s => s.identArrive port (socket % 8) credits delay
def execPeerCfgEnable (port : PortId) (v : Word) (s : State) : Res := s.alive fun s => s.peerCfgWrite port (setF v F.PEER_CFG_EN 1)
def execTimeSyncRequest (port : PortId) (s : State) : Res := s.alive fun s => s.timeSync port
def execTreqReceive (port : PortId) (_t1 : Word) (s : State) : Res := s.alive fun s => s.treqArrive port
def execTrspReceive (port : PortId) (t2 t3 : Word) (s : State) : Res := s.alive fun s => s.trspArrive port t2 t3

end Sys2Proof.Machine
end

