-- ==== Sys2Proof/Machine/Lanes.lean ====
section
/-!
DEFINITION. Lane groups (R347–R358): layouts and ports, BAR apertures, DMA with its lookup, translation and guards, ATS and
page requests, CXL.mem time-outs.
-/
namespace Sys2Proof.Machine

/-- The unit of lane group n. -/
def lg (n : Nat) : Nat := 0x120 + n

/-! Layout (R347, R348) -/

def portProto (cfg : Word) (p : Nat) : Nat := getF cfg ⟨8 * p + 2, 8 * p⟩
def portWidth (cfg : Word) (p : Nat) : Nat := getF cfg ⟨8 * p + 5, 8 * p + 3⟩

/-- Port p of the layout obeys R347 by itself. -/
def portLegal (cfg : Word) (n p : Nat) : Bool :=
  let t := portProto cfg p
  let w := portWidth cfg p
  t == 0 || (decide (1 ≤ w) && decide (w ≤ 4) && 2 * p % 2 ^ w == 0 &&
    (match t with
     | 1 => true
     | 2 => decide (2 ≤ w)
     | 3 => decide (3 ≤ w) && p == 0 && decide (n ≤ 7)
     | _ => false))

/-- Ports p and q of the layout use a common lane. -/
def portsMeet (cfg : Word) (p q : Nat) : Bool :=
  portProto cfg p != 0 && portProto cfg q != 0 && decide (2 * p < 2 * q + 2 ^ portWidth cfg q) && decide (2 * q < 2 * p + 2 ^ portWidth cfg p)

/-- R347. -/
def layoutOk (cfg : Word) (n : Nat) : Bool :=
  (List.range 8).all fun p => portLegal cfg n p && (List.range 8).all fun q => p == q || !portsMeet cfg p q

def State.portSt (s : State) (n p : Nat) : Nat := s.rf (R.LGP_PSTAT (lg n) p) F.LGP_PSTAT_STATE
/-- The link fields of a port with the given state, its counters kept. -/
def State.setPort (s : State) (n p st width rate : Nat) (flit : Bool) : State :=
  let k := R.LGP_PSTAT (lg n) p
  s.setReg k (setF (setF (setF (setF (s.reg k) F.LGP_PSTAT_STATE st) F.LGP_PSTAT_WIDTH width) F.LGP_PSTAT_RATE rate) F.LGP_PSTAT_FLIT (b2n flit))

/-- The peer ports configured in group n. -/
def State.peersIn (s : State) (n : Nat) : List Nat :=
  (List.range 7).filter fun p => s.rf (R.PEER_CFG (pp p)) F.PEER_CFG_EN == 1 && s.rf (R.PEER_CFG (pp p)) F.PEER_CFG_LGRP == n

/-- The devices of the port are gone from the sweep: their range counts as swept (R96). -/
def State.engineGone (s : State) (u : Nat) : State :=
  if s.tagEngines.contains u then s
  else (s.sweep.jobs.filter fun j => j.engines.contains u).foldl (fun s j =>
    (s.modJob j.id fun j => { j with engines := j.engines.filter (· != u) }).endJob j.id) s

/-- Port p of group n goes to `st` with its link down: regions on it lose READY, ATS invalidations end. DEDUCED, log entry 52. -/
def State.lanePortDown (s : State) (n p st : Nat) : State :=
  ((s.setPort n p st 0 0 false).cxlPortLost n p).engineGone (lg n)

/-- Every port of group n taken down; a peer port in it declares its link down (R348, R422). -/
def State.groupDown (s : State) (n : Nat) : State :=
  let s := (List.range 8).foldl (fun s p => s.lanePortDown n p (if s.portSt n p = 0 then 0 else 3)) s
  (s.peersIn n).foldl (fun s p => if s.peerState p = 4 then s else s.portDown p)
    { s with dmaOut := s.dmaOut.filter (·.req.group != n) }

/-- LGP_CFG takes effect: the ports it describes start training, the others are off. -/
def State.groupTrain (s : State) (n : Nat) : State :=
  let cfg := s.reg (R.LGP_CFG (lg n))
  let s : State := { s with layouts := SMap.set (fun _ => 0) s.layouts (lg n) cfg }
  (List.range 8).foldl (fun s p => s.setPort n p (if portProto cfg p = 0 then 0 else 1) 0 0 false) s

/-- A journal target lies in group n: an area of some teller on a CXL port, or a peer port that carries one (R33). -/
def State.groupCarries (s : State) (n : Nat) : Bool :=
  (List.range 16).any (fun t =>
    (s.jLocal t && (s.areaPort (s.jBase t)).any (·.1 == n)) ||
      (s.rf (R.TLR_JMBASE (tu t)) F.TLR_JMBASE_EN == 1 && (s.areaPort (s.jmBase t)).any (·.1 == n))) ||
    (s.peersIn n).any s.portCarries

/-- Group n runs: in DRAIN only those that carry a journal target (R33). -/
def State.groupRuns (s : State) (n : Nat) : Bool := s.mode != .drain || s.groupCarries n

/-- APPLY (R348). -/
def State.lgpApply (s : State) (n : Nat) : State :=
  if !s.groupRuns n then s else
  let s := s.groupDown n
  let k := R.LGP_CTL (lg n)
  if layoutOk (s.reg (R.LGP_CFG (lg n))) n then (s.setRf k F.LGP_CTL_BADCFG 0).groupTrain n else s.setRf k F.LGP_CTL_BADCFG 1

/-- What a port of the layout may train to: at most its width; for PCIe FLIT mode at 64 GT/s; for CXL 64 GT/s with 256-byte flits or
32 GT/s with either; for Filvo Link 64 GT/s FLIT mode at its full width (R347, R350, R353, R368). -/
def trainsTo (cfg : Word) (p width rate : Nat) (flit : Bool) : Bool :=
  decide (1 ≤ width) && decide (width ≤ portWidth cfg p) &&
    (match portProto cfg p with
     | 1 => decide (rate < 5) || (rate == 5 && flit)
     | 2 => decide (2 ≤ width) && (rate == 4 || (rate == 5 && flit))
     | 3 => width == portWidth cfg p && rate == 5 && flit
     | _ => false)

/-- Port p of group n has trained. A result that the port does not support is none. -/
def State.portTrained (s : State) (n p width rate : Nat) (flit : Bool) : State :=
  if s.portSt n p = 1 ∧ s.unitUp (lg n) ∧ s.groupRuns n ∧ trainsTo (s.layout (lg n)) p width rate flit then s.setPort n p 2 width rate flit else s

/-- LGnn_PERST_N[p] is deasserted: the port is neither off, down nor fenced; a Filvo Link port goes by its peer port (R460). -/
def State.perstReleased (s : State) (n p : Nat) : Bool :=
  (s.portSt n p == 1 || s.portSt n p == 2) && s.unitUp (lg n) &&
    (portProto (s.layout (lg n)) p != 3 || (s.peersIn n).any fun q => s.unitUp (pp q) && s.peerState q != 0 && s.peerState q != 4)

/-- LGnn_REFOUT runs: some port of the group is PCIe or CXL (R460). -/
def State.refOut (s : State) (n : Nat) : Bool :=
  (List.range 8).any fun p => let t := portProto (s.layout (lg n)) p; t == 1 || t == 2

/-! Registers -/

/-- A LGP_PWIN write: EN stays 0 where the aperture would overlap ECAM or another aperture. -/
def State.pwinWrite (s : State) (n p : Nat) (v : Word) : State :=
  let lo := getF v F.LGP_PWIN_BASE
  let hi := getF v F.LGP_PWIN_LIMIT
  let hit := lo ≤ hi && (lo < 256 || (List.range 8).any fun q =>
    let o := s.reg (R.LGP_PWIN (lg n) q)
    q != p && getF o F.LGP_PWIN_EN == 1 && lo ≤ getF o F.LGP_PWIN_LIMIT && getF o F.LGP_PWIN_BASE ≤ hi)
  let v := v &&& BitVec.ofNat 64 (2 ^ 47 - 1)
  s.setReg (R.LGP_PWIN (lg n) p) (if hit then setF v F.LGP_PWIN_EN 0 else v)

/-- A LGP_PRQ write: LOG2 is ignored while EN = 1; setting EN sets PROD := 0. -/
def State.prqWrite (s : State) (n : Nat) (v : Word) : State :=
  let k := R.LGP_PRQ (lg n)
  let o := s.reg k
  let v := v &&& 0xFFFFFFFFFFFFF01F
  let v := if getF o F.LGP_PRQ_EN = 1 then setF v F.LGP_PRQ_LOG2 (getF o F.LGP_PRQ_LOG2) else v
  let s := s.setReg k v
  if getF o F.LGP_PRQ_EN = 0 ∧ getF v F.LGP_PRQ_EN = 1 then
    ({ s with prq := s.prq.filter (·.group != n) } : State).setReg (R.LGP_PRQPROD (lg n)) 0
  else s

/-- A LGP_FNCTL write: ATSTO is cleared by writing 1; the rest holds from 40 ns on (R365). -/
def State.fnctlWrite (s : State) (n k : Nat) (v : Word) : State :=
  let key := R.LGP_FNCTL (lg n) k
  let o := s.reg key
  let late := if getF v F.LGP_FNCTL_ATSTO = 1 then 0 else getF o F.LGP_FNCTL_ATSTO
  s.guardWrite key (setF (v &&& 0xFFFFFFFF000F) F.LGP_FNCTL_ATSTO late)

/-! DMA (R351, R352, R355, R356) -/

/-- The function entry of a requester ID (R355). -/
def State.fnOf (s : State) (n rid : Nat) : Option Nat :=
  (List.range 256).find? fun k =>
    let v := s.reg (R.LGP_FNCTL (lg n) k)
    getF v F.LGP_FNCTL_EN == 1 && getF v F.LGP_FNCTL_RID == rid

/-- What becomes of a request up to its guard: admitted at a physical address, refused at the address known by then, or waiting for a
peer's line. -/
inductive DmaCheck where
  | ok (pa : Nat)
  | refused (r : GRefusal) (a : Nat)
  | wait
  deriving DecidableEq, Repr

/-- The DBH_RING address that lane DMA may write (R214, R363). -/
def dbhRingPa : Nat := 0xFF0140000000

/-- Lookup, translation, page and guard checks in the order of R351. -/
def State.dmaCheck (s : State) (q : DmaReq) (op : GOp) (len : Nat) : DmaCheck × State :=
  let (view, s) := s.guardView
  match view.fnOf q.group q.rid with
  | none => (.refused ⟨6, 0x3F, 0⟩ q.addr, s)
  | some k =>
    let v := view.reg (R.LGP_FNCTL (lg q.group) k)
    let pt := s.reg (R.LGP_FNPT (lg q.group) k)
    let kind := match op with | .read => 0 | .write => 1 | _ => 2
    let plain (s : State) : DmaCheck × State := if q.addr / 2 ^ 48 ≠ 0 then (.refused ⟨7, 0x3F, 0⟩ q.addr, s) else (.ok q.addr, s)
    let (x, s) : DmaCheck × State :=
      if q.translated then (if getF v F.LGP_FNCTL_ATS = 0 then (.refused ⟨7, 0x3F, 0⟩ q.addr, s) else plain s)
      else if getF v F.LGP_FNCTL_XLATE = 0 then plain s
      else
        match s.unitXlate (lg q.group) (getF pt F.LGP_FNPT_MODE) (getF pt F.LGP_FNPT_ROOT * 4096) (getF v F.LGP_FNCTL_ASID) 3 q.addr
            (xKind kind (q.addr % 4096 % len != 0)) with
        | (.ok pa _, s) => (.ok pa, s)
        | (.fault f, s) => (.refused ⟨7, 0x3F, f.cause.code⟩ q.addr, s)
        | (.bus _ _, s) => (.refused ⟨7, 0x3F, 0⟩ q.addr, s)
        | (.wait, s) => (.wait, s)
    match x with
    | .ok pa =>
      if q.addr % 4096 + len > 4096 then (.refused ⟨8, 0x3F, 0⟩ pa, s)
      else if pa ≥ 0xFF0000000000 ∧ ¬ (pa = dbhRingPa ∧ len = 4 ∧ op = .write) then (.refused ⟨5, 0x3F, 0⟩ pa, s)
      else match view.guardDecide q.group k pa op false with
        | some r => (.refused r pa, s)
        | none => (.ok pa, s)
    | r => (r, s)

/-- The answer to the device, and what an unfinished request leaves. DESIGN CHOICE, log entry 49. -/
def State.answers (s : State) (status : Nat) (data : List Byte) : State := { s with answer := ⟨status, data⟩ }
def State.dmaWait (s s' : State) : State := s.keepRequests s'

/-- The bytes [pa, pa + n) split at line boundaries: (address, length). -/
def linesCut (pa n : Nat) : List (Nat × Nat) :=
  (linesOf pa n).map fun l => (max pa l, min (pa + n) (l + 64) - max pa l)

/-- Lines read one after another: the bytes, and whether some line was poisoned; none where a line has no target. -/
inductive LinesRead where
  | ok (bs : List Byte) (poison : Bool)
  | notarget
  | wait
  deriving DecidableEq, Repr

/-- A line's bytes whether poisoned or not. DESIGN CHOICE, log entry 14. DEDUCED, log entry 56. -/
def State.rawRead (s : State) (pa n : Nat) : List Byte :=
  match s.target pa with
  | .local a _ _ => s.readBytes a n
  | .window _ _ => match s.rlineAt pa with | some l => (l.data.drop (pa % 64)).take n | none => List.replicate n 0
  | _ => List.replicate n 0

def State.linesRead (s : State) (u : Nat) : List (Nat × Nat) → LinesRead × State
  | [] => (.ok [] false, s)
  | (a, n) :: r =>
    let next (s : State) (po : Bool) : LinesRead × State :=
      match s.linesRead u r with
      | (.ok bs p, s') => (.ok (s.rawRead a n ++ bs) (p || po), s')
      | x => x
    match s.physRead a n with
    | .ok _ _ => next s false
    | .poison => next (s.deferred u 2 (some a)) true
    | .notarget => (.notarget, s)
    | .wait =>
      match s.takeReply u 0x01 (a / 64 * 64) with
      | (some _, s) => (.notarget, s)
      | (none, s) => (.wait, s.fetchRemote a u false)

/-- Lane groups take nothing from their devices: credit is withheld in BRUMATION, data-plane activity has stopped in DRAIN (R31,
R33). DEDUCED, log entry 77. -/
def State.laneHolds (s : State) : Bool := s.mode == .brumation || s.mode == .drain

/-- A write of group n has been accepted and not performed; what follows it waits (R215). -/
def State.laneBusy (s : State) (n : Nat) : Bool := s.laneWrites.any (·.req.group == n)

/-- The NSRC of a group's guard set rung: the notice of a write that failed after its guard (R234, R473). DEDUCED, log entry 56. -/
def State.dmaNotice (s : State) (n : Nat) : State := s.ringSrc (s.rf (R.GUARD_CTL n) F.GUARD_CTL_NSRC)

/-- Lines written one after another; none where some line has to be waited for. DEDUCED, log entry 56. -/
def State.linesWrite (s : State) (n : Nat) (poison : Bool) : List (Nat × Nat) → List Byte → Option State × State
  | [], _ => (some s, s)
  | (a, len) :: r, bs =>
    let b := bs.take len
    match s.target a with
    | .local x _ _ =>
      if s.writeHeld x len then (none, s)
      else
        let w := (if poison then s.beforePoison x else s).localWrite x b .clear true none
        let s := if poison then w.s.setPoison x true else w.s
        (if w.refused then s.dmaNotice n else s).linesWrite n poison r (bs.drop len)
    | _ =>
      match s.unitWrite (lg n) a b with
      | .done s =>
        let s := if poison then { s with rlines := s.rlines.map fun l => if l.pa = a / 64 * 64 then { l with poison := true } else l } else s
        s.linesWrite n poison r (bs.drop len)
      | .failed s => (s.dmaNotice n).linesWrite n poison r (bs.drop len)
      | .wait s => (none, s)

/-- What the request q, checked to be at physical address pa, goes by until it completes. -/
def State.admission (s : State) (q : DmaReq) (pa : Nat) : Admission :=
  let used := match s.fnOf q.group q.rid with
    | some k =>
      let v := s.reg (R.LGP_FNCTL (lg q.group) k)
      if q.translated || getF v F.LGP_FNCTL_XLATE == 0 then [] else s.usedEntry (lg q.group) (getF v F.LGP_FNCTL_ASID) q.addr
    | none => []
  ⟨pa, s.nextId, used, false⟩

/-- A DMA write that reaches the front of its group: performed, with its answer, or what is kept of it while it waits. An admitted one
completes under its admission (R365). -/
def State.dmaPerform (s0 : State) (w : LaneWrite) : Option LaneWrite × State :=
  let q := w.req
  let go (s : State) (a : Admission) : Option LaneWrite × State :=
    if a.pa = dbhRingPa then (none, (s.dbRingWrite (bytesNat w.bytes)).answers 0 [])
    else match s.linesWrite q.group w.poison (linesCut a.pa w.bytes.length) w.bytes with
      | (some t, _) => (none, t.signalAfter s.nextId (.answer 0 []))
      | (none, t) =>
        let t := s.dmaWait t
        (some { w with adm := some a }, if w.adm.isNone then { t with nextId := t.nextId + 1 } else t)
  if !s0.unitUp (lg q.group) then (none, s0.answers 1 [])
  else match w.adm with
    | some a => go s0 a
    | none => match s0.dmaCheck q .write w.bytes.length with
      | (.refused r a, s) => (none, (s.guardRefuse q.group r .write a q.rid).answers 1 [])
      | (.wait, s) => (some w, s0.dmaWait s)
      | (.ok pa, s) => go s (s.admission q pa)

/-- DMA_WRITE; `poison` marks data that the device sent poisoned. A payload over 512 bytes is none of these ports' (R350):
DESIGN CHOICE, log entry 113. A write that has to wait is kept, and the group's later ones, a ring among them, behind it (R215):
DEDUCED, log entry 127. -/
def State.dmaWrite (s : State) (w : LaneWrite) : State :=
  if s.laneHolds then s
  else if w.req.pasid ∨ w.bytes = [] ∨ w.bytes.length > 512 then s.answers 1 []
  else if s.laneBusy w.req.group then { s with laneWrites := s.laneWrites ++ [w] }
  else
    let (o, t) := s.dmaPerform w
    { t with laneWrites := t.laneWrites ++ o.toList }

/-- The request ATM of a group's unit u to the home of a window address, and what its reply makes of the request (R351, R371); none while
that is out. -/
def State.dmaRemote (s : State) (u so pa op len gs gd : Nat) : Option State × State :=
  match s.portVia so pa with
  | none => (some (s.answers 1 []), s)
  | some p =>
    match s.takeReply u 0x07 pa with
    | (some (.data bs _ po), t) => (some (t.answers (if po then 2 else 0) (bs.take len)), s)
    | (some (.done _), t) => (some (t.answers 1 []), s)
    | (none, _) =>
      if (s.peerTx.any fun t => t.src == u && t.op == 0x07 && t.pa == pa) then (none, s)
      else (none, (s.returnRLine pa).request p 0x07 pa u (op + (if len = 8 then 8 else 0)) (natBytes 8 gs ++ natBytes 8 gd) 0 false)

/-- An admitted read or atomic performed and answered; or none, with the requests it makes while it waits. -/
def State.dmaGo (s0 : State) (o : DmaOut) : Option State × State :=
  let u := lg o.req.group
  let pa := o.adm.pa
  match o.kind with
  | .read =>
    match s0.linesRead u (linesCut pa o.len) with
    | (.ok bs po, s) => (some (s.answers (if po then 2 else 0) bs), s0)
    | (.notarget, s) => (some (s.answers 1 []), s0)
    | (.wait, s) => (none, s)
  | .atomic op gs gd =>
    match s0.target pa with
    | .window so _ => s0.dmaRemote u so pa op o.len gs gd
    | _ => match s0.linesRead u [(pa, o.len)] with
      | (.notarget, s) => (some (s.answers 1 []), s0)
      | (.wait, s) => (none, s)
      | (.ok bs true, s) => (some (s.answers 2 bs), s0)
      | (.ok bs false, s) =>
        match atomFn op (8 * o.len) (bytesNat bs) gs gd with
        | none => (some (s.answers 0 bs), s0)
        | some v =>
          match s.linesWrite o.req.group false [(pa, o.len)] (natBytes o.len (v % 2 ^ (8 * o.len))) with
          | (some t, _) => (some (t.signalAfter s.nextId (.answer 0 bs)), s0)
          | (none, t) => (none, t)

/-- A request just admitted: answered, or kept until it can be (R365). -/
def State.dmaStart (s : State) (o : DmaOut) : State :=
  match s.dmaGo o with
  | (some t, _) => t
  | (none, t) => let t := s.dmaWait t; { t with nextId := t.nextId + 1, dmaOut := t.dmaOut ++ [o] }

/-- DMA_READ. -/
def State.dmaRead (s0 : State) (q : DmaReq) (len : Nat) : State :=
  if s0.laneHolds || s0.laneBusy q.group then s0
  else if q.pasid ∨ len = 0 ∨ !s0.unitUp (lg q.group) then s0.answers 1 []
  else
    match s0.dmaCheck q .read len with
    | (.refused r a, s) => (s.guardRefuse q.group r .read a q.rid).answers 1 []
    | (.wait, s) => s0.dmaWait s
    | (.ok pa, s) => s.dmaStart ⟨q, .read, len, s.admission q pa⟩

/-- DMA_ATOMIC: FetchAdd, Swap and CAS of 32 and 64 bits (R350), performed at the home slice; the old value is the answer. -/
def State.dmaAtomic (s0 : State) (q : DmaReq) (op len gs gd : Nat) : State :=
  if s0.laneHolds || s0.laneBusy q.group then s0
  else if q.pasid || !s0.unitUp (lg q.group) || !(op ≤ 2) || !(len == 4 || len == 8) then s0.answers 1 []
  else
    match s0.dmaCheck q .atomic len with
    | (.refused r a, s) => (s.guardRefuse q.group r .atomic a q.rid).answers 1 []
    | (.wait, s) => s0.dmaWait s
    | (.ok pa, s) =>
      if pa % len ≠ 0 then s.answers 1 []
      else s.dmaStart ⟨q, .atomic op (gs % 2 ^ (8 * len)) (gd % 2 ^ (8 * len)), len, s.admission q pa⟩

/-- The first waiting write of every group tried again, then every admitted read and atomic. -/
def State.laneRetry (s : State) : State :=
  if s.laneHolds then s
  else
    let s := s.laneWrites.foldl (fun s w =>
      if (s.laneWrites.find? (·.req.group == w.req.group)) != some w then s
      else match s.dmaPerform w with
        | (none, t) => { t with laneWrites := t.laneWrites.erase w }
        | (some w', t) => { t with laneWrites := t.laneWrites.map fun x => if x = w then w' else x }) s
    s.dmaOut.foldl (fun s o => match s.dmaGo o with
      | (some t, _) => { t with dmaOut := t.dmaOut.erase o }
      | (none, t) => s.dmaWait t) s

/-! ATS and PRI (R357, R358) -/

/-- ATS_TRANSLATION_REQUEST: the physical page and its size, or no translation. DEDUCED, log entry 57. -/
def State.atsRequest (s0 : State) (q : DmaReq) (write : Bool) : State :=
  if s0.laneHolds || s0.laneBusy q.group then s0
  else match s0.fnOf q.group q.rid with
  | none => (s0.guardRefuse q.group ⟨6, 0x3F, 0⟩ (if write then .write else .read) q.addr q.rid).answers 1 []
  | some k =>
    let v := s0.reg (R.LGP_FNCTL (lg q.group) k)
    let pt := s0.reg (R.LGP_FNPT (lg q.group) k)
    if getF v F.LGP_FNCTL_ATS = 0 ∨ q.pasid then s0.answers 1 []
    else if getF v F.LGP_FNCTL_XLATE = 0 then
      s0.answers (if q.addr / 2 ^ 48 = 0 then 0 else 1) (if q.addr / 2 ^ 48 = 0 then natBytes 8 (q.addr / 4096 * 4096) ++ natBytes 8 4096 else [])
    else
      let asid := getF v F.LGP_FNCTL_ASID
      match s0.unitXlate (lg q.group) (getF pt F.LGP_FNPT_MODE) (getF pt F.LGP_FNPT_ROOT * 4096) asid 3 q.addr
          (xKind (b2n write) false) with
      | (.ok pa _, s) =>
        let size := match s.usedEntry (lg q.group) asid q.addr with | t :: _ => pageSize t.level | [] => 4096
        s.answers 0 (natBytes 8 (pa / size * size) ++ natBytes 8 size)
      | (.wait, s) => s0.dmaWait s
      | (_, s) => s.answers 1 []

/-- PAGE_REQUEST: an entry in the ring, or Response Failure where the ring has no room. DEDUCED, log entry 57. -/
def State.pageRequest (s : State) (n p rid : Nat) (rd wr last : Bool) (prgi page : Nat) : State :=
  if s.laneHolds || s.laneBusy n then s
  else match s.fnOf n rid with
  | none => (s.guardRefuse n ⟨6, 0x3F, 0⟩ (if wr then .write else .read) (page * 4096) rid).answers 1 []
  | some k =>
    let q := s.reg (R.LGP_PRQ (lg n))
    let size := 2 ^ getF q F.LGP_PRQ_LOG2
    if s.rf (R.LGP_FNCTL (lg n) k) F.LGP_FNCTL_PRI = 0 then s.answers 1 []
    else if getF q F.LGP_PRQ_EN = 0 ∨ (s.prq.filter (·.group == n)).length ≥ size then
      (s.incRf (R.LGP_PSTAT (lg n) p) F.LGP_PSTAT_PRQDROP).answers 1 (natBytes 1 15)
    else
      let i := s.rf (R.LGP_PRQPROD (lg n)) F.LGP_PRQPROD_PROD
      let w0 := b2n rd + 2 * b2n wr + 4 * b2n last + prgi % 512 * 8 + page % 2 ^ 52 * 4096
      let w1 := rid % 65536 + k * 65536 + (i / size + 1) % 2 * 2 ^ 63
      let a := getF q F.LGP_PRQ_BASE * 4096 + 16 * (i % size)
      let done (s : State) : State :=
        let s := { s with prq := s.prq ++ [PrqEntry.mk n rid (prgi % 512)] }
        ((s.setRf (R.LGP_PRQPROD (lg n)) F.LGP_PRQPROD_PROD (i + 1)).ringSrc (getF q F.LGP_PRQ_DBSRC)).answers 0 []
      match s.unitWrite (lg n) a (natBytes 8 w0 ++ natBytes 8 w1) with
      | .done t => done (t.finishSince s.nextId)
      | .failed t => done ((t.finishSince s.nextId).dmaNotice n)
      | .wait _ => s

/-- LGP_PRGR: the PRG Response goes out, and the group's requests have been answered. -/
def State.prgrWrite (s : State) (n : Nat) (v : Word) : State :=
  let rid := getF v F.LGP_PRGR_RID
  let gi := getF v F.LGP_PRGR_PRGI
  ({ s with prq := s.prq.filter fun e => !(e.group == n && e.rid == rid && e.prgi == gi) } : State).answers 0
    (natBytes 2 rid ++ natBytes 2 gi ++ natBytes 1 (getF v F.LGP_PRGR_CODE))

/-- The functions an LGP_INVTLB write sends ATS Invalidate Requests to (R358). -/
def State.atsTargets (s : State) (n : Nat) (v : Word) : List Nat :=
  (List.range 256).filter fun k =>
    let c := s.reg (R.LGP_FNCTL (lg n) k)
    getF v F.LGP_INVTLB_OP != 0 && getF c F.LGP_FNCTL_EN == 1 && getF c F.LGP_FNCTL_ATS == 1 &&
      (getF v F.LGP_INVTLB_OP == 1 || getF c F.LGP_FNCTL_ASID == getF v F.LGP_INVTLB_ASID)

/-- An LGP_INVTLB write: entries removed, the requests translated through them marked, invalidations sent. -/
def State.lgpInv (s : State) (n : Nat) (v : Word) : State :=
  let hit := invHits (getF v ⟨1, 0⟩) (getF v ⟨31, 16⟩) (s.rf (R.LGP_INVVA (lg n)) ⟨63, 12⟩ * 4096)
  let mark (g : Nat) (a : Admission) : Admission := { a with removed := a.removed || (g == n && a.used.any hit) }
  let s := s.unitInv (lg n) (R.LGP_INVVA (lg n)) v
  { s with atsInvs := s.atsInvs ++ (s.atsTargets n v).map fun k => AtsInv.mk n k s.time.toNat,
           dmaOut := s.dmaOut.map fun o => { o with adm := mark o.req.group o.adm },
           laneWrites := s.laneWrites.map fun w => { w with adm := w.adm.map (mark w.req.group) } }

/-- An invalidation of group n is under way, or a request translated through a removed entry (R358). -/
def State.atsBusy (s : State) (n : Nat) : Bool :=
  s.atsInvs.any (·.group == n) || s.admissions.any fun a => a.1 == n && a.2.removed

/-- The write of unit `init`: held until every invalidation and every request through a removed entry has completed. A held write that is
presented again does not start anew. DEDUCED, log entry 57. -/
def State.lgpInvWrite (s : State) (init n : Nat) (v : Word) : Bool × State :=
  let v := v &&& 0xFFFF0003
  let me := (n, init, v)
  if s.invHeld.contains me then (s.atsBusy n, if s.atsBusy n then s else { s with invHeld := s.invHeld.erase me })
  else
    let s := s.lgpInv n v
    (s.atsBusy n, if s.atsBusy n then { s with invHeld := s.invHeld ++ [me] } else s)

/-- An invalidation of function k ends; with `timeout` the function is disabled (R358). -/
def State.atsEnd (s : State) (n k : Nat) (timeout : Bool) : State :=
  match s.atsInvs.find? fun e => e.group == n && e.fn == k with
  | none => s
  | some e =>
    let s := { s with atsInvs := s.atsInvs.erase e }
    if timeout then
      (s.setRf (R.LGP_FNCTL (lg n) k) F.LGP_FNCTL_EN 0).setRf (R.LGP_FNCTL (lg n) k) F.LGP_FNCTL_ATSTO 1
    else s

/-! CXL.mem (R354) -/

/-- The lane group whose device holds the CXL line at local address a. -/
def State.cxlGroup (s : State) (a : Nat) : Option Nat := (s.cxlPort a).map (·.1)

/-- A CXL.mem request for the line of local address a is not completed in 2 ms: its accesses end with NOTARGET until the device
answers. DEDUCED, log entry 58. -/
def State.cxlTimeout (s : State) (a : Nat) : State :=
  let l := a / 64 * 64
  match s.cxlGroup l with
  | none => s
  | some n =>
    let s := { s with cxlLost := if s.cxlLost.contains l then s.cxlLost else s.cxlLost ++ [l] }
    s.deferred (lg n) 3 (some l)

/-- A CXL.mem response for the line: the device answers again; data it marks poisoned leaves the line poisoned.
DEDUCED, log entry 58. -/
def State.cxlResponse (s : State) (a : Nat) (poison : Bool) : State :=
  let l := a / 64 * 64
  if (s.cxlGroup l).isNone then s
  else
    let s := { s with cxlLost := s.cxlLost.filter (· != l) }
    if poison && !s.isDirty l then s.poisonLine l else s

/-! Commands -/

def execLgpApply (group : Idx16) (s : State) : Res := s.alive fun s => s.lgpApply group.val
def execPortTrained (group : Idx16) (port : Fin 8) (width rate : Fin 8) (flit : Bool) (s : State) : Res :=
  s.alive fun s => s.portTrained group.val port.val width.val rate.val flit

def execDmaRead (group : Idx16) (rid : Nat) (translated pasid : Bool) (addr len : Nat) (s : State) : Res :=
  s.alive fun s => s.dmaRead ⟨group.val, rid % 65536, translated, pasid, addr % 2 ^ 64⟩ len
def execDmaWrite (group : Idx16) (rid : Nat) (translated pasid : Bool) (addr : Nat) (bytes : List Byte) (poison : Bool) (s : State) : Res :=
  s.alive fun s => s.dmaWrite ⟨⟨group.val, rid % 65536, translated, pasid, addr % 2 ^ 64⟩, bytes, poison, none⟩
def execDmaAtomic (group : Idx16) (rid : Nat) (translated pasid : Bool) (addr op len : Nat) (gs gd : Word) (s : State) : Res :=
  s.alive fun s => s.dmaAtomic ⟨group.val, rid % 65536, translated, pasid, addr % 2 ^ 64⟩ op len gs.toNat gd.toNat
def execAtsTranslationRequest (group : Idx16) (rid : Nat) (pasid : Bool) (addr : Nat) (write : Bool) (s : State) : Res :=
  s.alive fun s => s.atsRequest ⟨group.val, rid % 65536, false, pasid, addr % 2 ^ 64⟩ write
def execPageRequest (group : Idx16) (port : Fin 8) (rid : Nat) (rd wr last : Bool) (prgi page : Nat) (s : State) : Res :=
  s.alive fun s => s.pageRequest group.val port.val (rid % 65536) rd wr last prgi page
def execLgpPrgrWrite (group : Idx16) (v : Word) (s : State) : Res := s.alive fun s => s.prgrWrite group.val v
def execLgpInvtlbWrite (group : Idx16) (v : Word) (s : State) : Res := s.alive fun s => s.lgpInv group.val (v &&& 0xFFFF0003)
def execAtsInvalidateTimeout (group : Idx16) (fn : Nat) (s : State) : Res := s.alive fun s => s.atsEnd group.val fn true
def execAtsInvalidateCompletion (group : Idx16) (fn : Nat) (s : State) : Res := s.alive fun s => s.atsEnd group.val fn false
def execCxlMemTimeout (a : Nat) (s : State) : Res := s.alive fun s => s.cxlTimeout a
def execCxlMemResponse (a : Nat) (poison : Bool) (s : State) : Res := s.alive fun s => s.cxlResponse a poison

/-- A PTM Request: the root port answers with the time base (R350). -/
def execPtmRequest (group : Idx16) (port : Fin 8) (s : State) : Res :=
  s.alive fun s => if s.portSt group.val port.val = 2 then s.answers 0 (natBytes 8 s.time.toNat) else s

end Sys2Proof.Machine
end

