-- ==== Sys2Proof/Machine/Image.lean ====
section
/-!
DEFINITION. The flash and the configuration image as data (R396–R406, R410–R414): where things lie, the checks of a slot, and
what its segments say. Nothing here changes the machine.
-/
namespace Sys2Proof.Machine

/-! Flash -/

/-- An erased byte. DESIGN CHOICE, log entry 3. -/
def erasedByte (_ : Nat) : Byte := 0xFF
def State.flB (s : State) (o : Nat) : Byte := SMap.get erasedByte s.flash o
def State.flBytes (s : State) (o n : Nat) : List Byte := (List.range n).map fun i => s.flB (o + i)
/-- The little-endian value of `n` bytes of the flash. -/
def State.flNat (s : State) (o n : Nat) : Nat := bytesNat (s.flBytes o n)
def State.flWord (s : State) (o : Nat) : Word := BitVec.ofNat 64 (s.flNat o 8)
def State.putFlash (s : State) (o : Nat) : List Byte → State
  | [] => s
  | b :: bs => ({ s with flash := SMap.set erasedByte s.flash o b } : State).putFlash (o + 1) bs

/-- S of R397. -/
def State.slotSize (s : State) : Nat := (s.flashSize - 0x100000) / 2
/-- The flash offset of slot 0 (A) or 1 (B). -/
def State.slotOff (s : State) (slot : Nat) : Nat := 0x100000 + slot * s.slotSize

/-- `bs` with its four bytes at 60–63 zero, as their own CRC takes them. -/
def zero60 (bs : List Byte) : List Byte := bs.take 60 ++ [0, 0, 0, 0] ++ bs.drop 64

/-- The boot record holds its magic, its CRC and a FORCE of 0 or 1 (R398). -/
def State.bootRecordOk (s : State) : Bool :=
  s.flNat 0x10000 4 == 0x5442444B && s.flNat (0x10000 + 60) 4 == (crc32c (s.flBytes 0x10000 60)).toNat && s.flNat (0x10000 + 4) 1 ≤ 1

/-- The calibration block is valid, its trims in range or not as `trimsOk` says (R414). -/
def State.calOk (s : State) (trimsOk : Bool) : Bool :=
  let len := s.flNat 4 4
  s.flNat 0 4 == 0x4C43444B && 64 ≤ len && len ≤ 65536 && s.flWord 8 == s.reg R.IMG_FDIEID &&
    s.flNat 60 4 == (crc32c (zero60 (s.flBytes 0 len))).toNat && trimsOk

/-- Channel n's training record reads its MAGIC and its CRC (R413). -/
def State.trainOk (s : State) (n : Nat) : Bool :=
  let o := 0x20000 + n * 0xE000
  s.flNat o 4 == 0x5254444B && s.flNat (o + 60) 4 == (crc32c (zero60 (s.flBytes o 0xE000))).toNat

/-! Slots -/

/-- `n` bytes at slot offset `o` as a number. -/
def State.im (s : State) (slot o n : Nat) : Nat := s.flNat (s.slotOff slot + o) n
def State.imMagic (s : State) (slot : Nat) : Bool := s.im slot 0 4 == 0x4D49444B
def State.imNseg (s : State) (slot : Nat) : Nat := s.im slot 14 2
def State.imGen (s : State) (slot : Nat) : Nat := s.im slot 16 4
def State.imLen (s : State) (slot : Nat) : Nat := s.im slot 24 8

/-- A failure as IMG_ERR0 and IMG_ERR1 report it. -/
structure BootErr where
  code : Nat
  seg : Nat
  off : Nat
  deriving DecidableEq, Repr

/-- A segment entry (R401). -/
structure Seg where
  idx : Nat
  ty : Nat
  off : Nat
  len : Nat
  crc : Nat
  deriving DecidableEq, Repr

def State.segAt (s : State) (slot j : Nat) : Seg :=
  let e := 256 + 32 * j
  ⟨j, s.im slot e 2, s.im slot (e + 8) 8, s.im slot (e + 16) 8, s.im slot (e + 24) 4⟩
def State.segs (s : State) (slot : Nat) : List Seg := (List.range (s.imNseg slot)).map (s.segAt slot)
def State.segsOf (s : State) (slot ty : Nat) : List Seg := (s.segs slot).filter (·.ty == ty)

/-- The first slot to try (R398): the boot record's choice, else the higher GEN, a header that does not read ranking below one that
does, else A. DEDUCED, log entry 62. -/
def State.firstSlot (s : State) : Nat :=
  if s.bootRecordOk && s.flNat (0x10000 + 4) 1 == 1 then s.flNat (0x10000 + 5) 1 % 2
  else if s.imMagic 1 && (!s.imMagic 0 || s.imGen 0 < s.imGen 1) then 1 else 0

/-- The first failing check of a list, as its error. -/
def firstErr (cs : List (Bool × BootErr)) : Option BootErr := (cs.find? fun c => !c.1).map (·.2)

/-- Check 1 of R399. -/
def State.headerErr (s : State) (slot : Nat) : Option BootErr :=
  firstErr [(s.imMagic slot, ⟨2, 0xFF, 0⟩), (s.im slot 4 2 == 1, ⟨2, 0xFF, 4⟩), (s.im slot 6 2 == 4096, ⟨2, 0xFF, 6⟩),
    (s.im slot 8 4 == 0x9128, ⟨2, 0xFF, 8⟩), (s.im slot 12 1 == 1, ⟨2, 0xFF, 12⟩)]

def segsMeet (a b : Seg) : Bool := decide (a.off < b.off + b.len) && decide (b.off < a.off + a.len)

/-- Check 2 of R399: R401's rules, entry by entry, then the number of segments of each type. DEDUCED, log entry 62. -/
def State.segTableErr (s : State) (slot : Nat) : Option BootErr :=
  let n := s.imNseg slot
  let len := s.imLen slot
  if n = 0 ∨ n > 120 then some ⟨3, 0xFF, 14⟩
  else if len < 4096 ∨ len > s.slotSize then some ⟨3, 0xFF, 24⟩
  else
    let ss := s.segs slot
    let ok (g : Seg) : Bool :=
      let e := 256 + 32 * g.idx
      1 ≤ g.ty && g.ty ≤ 7 && s.im slot (e + 2) 6 == 0 && s.im slot (e + 28) 4 == 0 && g.off % 64 == 0 && 4096 ≤ g.off &&
        g.off + g.len ≤ len && !(ss.take g.idx).any (segsMeet g)
    let num (t : Nat) : Nat := (ss.filter (·.ty == t)).length
    firstErr (ss.map (fun g => (ok g, ⟨3, g.idx, 256 + 32 * g.idx⟩)) ++
      [(1 ≤ num 1 && num 2 ≤ 1 && num 3 == 1 && num 4 == 1 && num 7 ≤ 1, ⟨3, 0xFF, 14⟩)])

/-- The hash in key fuse k. -/
def State.fuseKey (s : State) (k : Nat) : List Byte :=
  (List.range 6).flatMap fun w => natBytes 8 (s.reg (R.IMG_FKEY (6 * k + w))).toNat
/-- All key fuses read zero: the part is open (R399). -/
def State.openPart (s : State) : Bool := (List.range 24).all fun j => s.reg (R.IMG_FKEY j) == 0
/-- The key of the given bytes is fuse key k, not revoked. -/
def State.keyOk (s : State) (k : Nat) (key : List Byte) : Bool :=
  k < 4 && sha384 key == s.fuseKey k && !bitB (s.reg R.IMG_FREVOKE) k

/-- The number of ones of the SVN fuses. -/
def State.minSvn (s : State) : Nat := ((List.range 64).filter fun i => bitB (s.reg R.IMG_FSVN) i).length

/-- Checks 3–6 of R399. -/
def State.trustErr (s : State) (slot : Nat) : Option BootErr :=
  let o := s.slotOff slot
  let key := s.flBytes (o + 40) 96
  match firstErr [(s.openPart || s.keyOk (s.im slot 13 1) key, ⟨4, 0xFF, 13⟩), (s.minSvn ≤ s.im slot 20 4, ⟨5, 0xFF, 20⟩)] with
  | some e => some e
  | none =>
    match firstErr ((s.segs slot).map fun g => ((crc32c (s.flBytes (o + g.off) g.len)).toNat == g.crc, ⟨6, g.idx, 256 + 32 * g.idx⟩)) with
    | some e => some e
    | none =>
      let bs := s.flBytes o (s.imLen slot)
      let body := bs.take 136 ++ List.replicate 96 0 ++ bs.drop 232
      if s.openPart || ecdsaOk key (s.flBytes (o + 136) 96) (sha384 body) then none else some ⟨7, 0xFF, 136⟩

/-- The verdict of R399 on a slot. -/
def State.slotErr (s : State) (slot : Nat) : Option BootErr :=
  match s.headerErr slot with
  | some e => some e
  | none => match s.segTableErr slot with
    | some e => some e
    | none => s.trustErr slot

/-! Parameter records -/

/-- What a record sets (R402). -/
inductive Par where
  | field (lsb width : Nat) (w32 : Bool) (unit count off : Nat) (value : Word)
  | seq (id : Nat) (value : Word)
  deriving DecidableEq, Repr

/-- A record with the segment and the slot offset it stands at. -/
structure ParRec where
  seg : Nat
  off : Nat
  par : Par
  deriving DecidableEq, Repr

/-- R403's and R404's rules for one record; BOOTTOP's granule is checked when GRAN is known. -/
def Par.ok : Par → Bool
  | .field lsb width w32 unit count off value =>
    let bits := if w32 then 32 else 64
    count != 0 && (List.range count).all (fun i => unitExists (unit + i)) && off % (bits / 8) == 0 && lsb + width ≤ bits &&
      value.toNat < 2 ^ width
  | .seq id value =>
    let v := value.toNat
    if id = 1 then v ≤ 2 ^ 36
    else if id = 2 then v ≤ 7
    else if id = 3 then v ≤ 1
    else 0x100 ≤ id && id ≤ 0x10F && (v == 0 || v == 4800 || v == 5200)

/-- The record whose words are w0, w1 and w2, and its length in words; none where RTYPE or LENQ is not listed.
DEDUCED, log entry 62. -/
def parOf (w0 w1 w2 : Word) : Option (Par × Nat) :=
  if getF w0 ⟨7, 0⟩ = 1 ∧ getF w0 ⟨15, 8⟩ = 3 then
    some (.field (getF w0 ⟨21, 16⟩) (getF w0 ⟨27, 22⟩ + 1) (bitB w0 31) (getF w0 ⟨47, 32⟩) (getF w0 ⟨63, 48⟩) (getF w1 ⟨23, 0⟩) w2, 3)
  else if getF w0 ⟨7, 0⟩ = 2 ∧ getF w0 ⟨15, 8⟩ = 2 then some (.seq (getF w0 ⟨31, 16⟩) w1, 2)
  else none

/-- The records of a PARAM segment from slot offset `pos` to END; an error where one is malformed. -/
def State.parseRecs (s : State) (slot : Nat) (g : Seg) : Nat → Nat → Except BootErr (List ParRec)
  | 0, pos => .error ⟨8, g.idx, pos⟩
  | fuel + 1, pos =>
    let w (i : Nat) : Word := BitVec.ofNat 64 (s.im slot (pos + 8 * i) 8)
    if pos + 8 > g.off + g.len then .error ⟨8, g.idx, pos⟩
    else if w 0 = 0 then .ok []
    else match parOf (w 0) (w 1) (w 2) with
      | none => .error ⟨8, g.idx, pos⟩
      | some (p, n) =>
        if pos + 8 * n > g.off + g.len ∨ !p.ok then .error ⟨8, g.idx, pos⟩
        else (s.parseRecs slot g fuel (pos + 8 * n)).map (⟨g.idx, pos, p⟩ :: ·)

def State.segRecs (s : State) (slot : Nat) (g : Seg) : Except BootErr (List ParRec) := s.parseRecs slot g (g.len / 8 + 1) g.off

/-- Every record of the slot, in order (R405). -/
def State.params (s : State) (slot : Nat) : Except BootErr (List ParRec) :=
  (s.segsOf slot 1).foldl (fun r g => r.bind fun a => (s.segRecs slot g).map (a ++ ·)) (.ok [])

/-- The value that the records give to the 64-bit register at `off` of unit u, above its reset value. -/
def imgValue (rs : List ParRec) (u off : Nat) : Word :=
  rs.foldl (fun v r => match r.par with
    | .field lsb width false unit count o x => if o = off ∧ unit ≤ u ∧ u < unit + count then setF v ⟨lsb + width - 1, lsb⟩ x.toNat else v
    | _ => v) (ctlReset (u * 0x1000000 + off))

/-- The last value of a sequencer setting, with its record's place. -/
def seqParam (rs : List ParRec) (id : Nat) : Option (Nat × ParRec) :=
  (rs.reverse.findSome? fun r => match r.par with | .seq i v => if i = id then some (v.toNat, r) else none | _ => none)

/-- The registers that must not differ between home slices, with the bits that count (R405). -/
def sameRegs : List (Nat × Word) := (0xA00, 0xFFFFFFFFF01F) :: (0xC00, 3) :: (List.range 16).map fun r => (0xC80 + 8 * r, 0xFFFFFFFFC00007F3)

/-- The record writes some of those bits in a home slice. A W32 record names no 64-bit register. -/
def touchesSame (r : ParRec) : Bool :=
  match r.par with
  | .field lsb width false unit count off _ => unit ≤ 0x10F && 0x100 < unit + count &&
      sameRegs.any fun k => k.1 == off && k.2 &&& (⟨lsb + width - 1, lsb⟩ : Fld).mask 64 != 0
  | _ => false

/-- G of the image. -/
def imgGran (rs : List ParRec) : Nat :=
  match getF (imgValue rs 0x100 0xC00) F.VLT_ILV_GRAN with
  | 0 => 256 | 1 => 4096 | 2 => 65536 | _ => 2097152

/-- BOOTTOP of the image. -/
def imgTop (rs : List ParRec) : Nat := ((seqParam rs 1).map (·.1)).getD 0

/-- R404's granule rule and R405's comparison of the home slices. -/
def recsErr (rs : List ParRec) : Option BootErr :=
  match rs.find? offGranule with
  | some r => some ⟨8, r.seg, r.off⟩
  | none => sliceErr
where
  /-- a BOOTTOP that is no multiple of 16 × G -/
  offGranule (r : ParRec) : Bool := match r.par with | .seq 1 v => v.toNat % (16 * imgGran rs) != 0 | _ => false
  sliceErr : Option BootErr :=
    if sameRegs.all fun k => (List.range 16).all fun n => imgValue rs (0x100 + n) k.1 &&& k.2 == imgValue rs 0x100 k.1 &&& k.2 then none
    else match (rs.filter touchesSame).getLast? with
      | some r => some ⟨8, r.seg, r.off⟩
      | none => none

/-! PURSE, PRELOAD and ENTRY segments -/

/-- A PURSE item: its segment and slot offset, its index and entry (R411). -/
structure PurseItem where
  seg : Nat
  off : Nat
  idx : Nat
  entry : Purse
  deriving DecidableEq, Repr

def State.purseItems (s : State) (slot : Nat) : List PurseItem :=
  (s.segsOf slot 5).flatMap fun g => (List.range (g.len / 40)).map fun i =>
    let o := g.off + 40 * i
    let w (j : Nat) : Word := BitVec.ofNat 64 (s.im slot (o + 8 * j) 8)
    ⟨g.idx, o, (w 0).toNat, ⟨w 1, w 2, w 3, w 4⟩⟩

/-- A PRELOAD block: its segment and slot offset, the local address, the length, and whether it lies within its segment. -/
structure PreBlock where
  seg : Nat
  off : Nat
  addr : Nat
  len : Nat
  whole : Bool
  deriving DecidableEq, Repr

def State.preBlocksFrom (s : State) (slot : Nat) (g : Seg) : Nat → Nat → List PreBlock
  | 0, _ => []
  | fuel + 1, pos =>
    if pos ≥ g.off + g.len then []
    else
      let a := s.im slot pos 8
      let n := s.im slot (pos + 8) 8
      if pos + 16 + n > g.off + g.len then [⟨g.idx, pos, a, n, false⟩]
      else ⟨g.idx, pos, a, n, true⟩ :: s.preBlocksFrom slot g fuel (pos + 16 + n)

def State.preBlocks (s : State) (slot : Nat) : List PreBlock :=
  (s.segsOf slot 6).flatMap fun g => s.preBlocksFrom slot g (g.len / 16 + 1) g.off

/-- An entry record (R412). -/
structure EntryRec where
  off : Nat
  pcc : BitVec 128
  stk : BitVec 128
  tdt : Word
  release : Bool
  stkValid : Bool
  deriving DecidableEq, Repr

/-- Record i of the slot's ENTRY segment, if the segment holds it. -/
def State.entryRec (s : State) (slot i : Nat) : Option EntryRec :=
  match s.segsOf slot 4 with
  | g :: _ =>
    if 64 * i + 64 > g.len then none
    else
      let o := g.off + 64 * i
      let fl := s.im slot (o + 40) 8
      some ⟨o, BitVec.ofNat 128 (s.im slot o 16), BitVec.ofNat 128 (s.im slot (o + 16) 16), BitVec.ofNat 64 (s.im slot (o + 32) 8),
        fl % 2 == 1, fl / 2 % 2 == 1⟩
  | [] => none

/-- R412's rules for a record that starts its core, the purse entries as `look` gives them. -/
def EntryRec.ok (r : EntryRec) (look : Nat → Option Purse) (top : Nat) : Bool :=
  let p : Coin := ⟨r.pcc, true⟩
  let k : Coin := ⟨r.stk, true⟩
  let a := p.cursor.toNat
  (match look p.purse with
   | some e => e.state == 1 && e.type == 1 && e.issue == p.issue && bitB p.rights 2 && a % 4 == 0 && e.base ≤ a && a < e.base + e.length && a < top
   | none => false) &&
  (!r.stkValid || (match look k.purse with
   | some e => e.state == 1 && e.type == 0 && e.issue == k.issue
   | none => false))

/-- The entry that the image's items leave at index i. -/
def itemAt (items : List PurseItem) (i : Nat) : Option Purse := ((items.filter (·.idx == i)).getLast?).map (·.entry)

/-- The checks of R410 for an image with the given records. DEDUCED, log entry 62. -/
def State.spanErr (s : State) (slot : Nat) (rs : List ParRec) : Option BootErr :=
  let top := imgTop rs
  let pt := imgValue rs 0x100 0xA00
  let size := getF pt F.VLT_PTBASE_PTB_SIZE
  let base := getF pt F.VLT_PTBASE_PTB_BASE * 4096 / 2 ^ (size + 5) * 2 ^ (size + 5)
  let items := s.purseItems slot
  let seq1 := match seqParam rs 1 with | some (_, r) => (r.seg, r.off) | none => (0xFF, 0)
  let entrySeg := ((s.segsOf slot 4).headD ⟨0xFF, 4, 0, 0, 0⟩)
  firstErr ((top == 0 || base + 2 ^ size * 32 ≤ top, ⟨9, seq1.1, seq1.2⟩) ::
    items.map (fun p => (p.idx < 2 ^ size && !p.entry.malformed && top != 0, ⟨10, p.seg, p.off⟩)) ++
    (s.segsOf slot 5).map (fun g => (g.len % 40 == 0, ⟨10, g.idx, g.off + g.len / 40 * 40⟩)) ++
    (s.preBlocks slot).map (fun b => (b.whole && b.addr % 64 == 0 && b.len % 64 == 0 && b.addr + b.len ≤ top, ⟨11, b.seg, b.off⟩)) ++
    (List.range 128).map fun i => match s.entryRec slot i with
      | some r => (!r.release || r.ok (itemAt items) top, ⟨12, entrySeg.idx, r.off⟩)
      | none => (false, ⟨12, entrySeg.idx, entrySeg.off + 64 * i⟩))

/-- What APPLY's check finds: the records, or the failure. -/
def State.applyCheck (s : State) (slot : Nat) : Except BootErr (List ParRec) :=
  match s.params slot with
  | .error e => .error e
  | .ok rs => match recsErr rs with
    | some e => .error e
    | none => match s.spanErr slot rs with
      | some e => .error e
      | none => .ok rs

end Sys2Proof.Machine
end

