-- ==== Sys2Proof/Machine/Units.lean ====
section
/-!
DEFINITION. What software asks of the management plane by writing its registers (R415–R452, R459–R464): steward operations up to
their acceptance, mode requests, clocks, telemetry, the time base, flash commands, the eft, injection and debug control.
-/
namespace Sys2Proof.Machine

/-! Unit states -/

/-- The kinds of units that steward operations tell apart (R420). -/
inductive UnitKind where
  | core | cluster | slice | memory | group | port | fixed
  deriving DecidableEq, Repr

def unitKind (u : Nat) : UnitKind :=
  if u < 0x80 then .core else if u < 0x90 then .cluster
  else if 0x100 ≤ u ∧ u ≤ 0x10F then .slice else if 0x110 ≤ u ∧ u ≤ 0x11F then .memory
  else if 0x120 ≤ u ∧ u ≤ 0x12F then .group else if 0x130 ≤ u ∧ u ≤ 0x136 then .port else .fixed

/-- The 205 units of R36. -/
def allUnits : List Nat := (List.range 0x171).filter unitExists

def State.ustat (s : State) (u : Nat) (f : Fld) : Nat := s.rf (R.MGMT_USTAT u) f
def State.setUstat (s : State) (u : Nat) (f : Fld) (n : Nat) : State := s.setRf (R.MGMT_USTAT u) f n
def State.unitBusy (s : State) (u : Nat) : Bool := s.ustat u F.MGMT_USTAT_BUSY == 1
/-- The unit's state and the cause of its fence. -/
def State.setUnit (s : State) (u st cause : Nat) : State :=
  (s.setUstat u F.MGMT_USTAT_STATE st).setUstat u F.MGMT_USTAT_CAUSE cause

/-- Some unit counts as fenced for R29: it was fenced, retired, taken offline or stopped, and not brought back.
DEDUCED, log entry 81. -/
def State.anyFenced (s : State) : Bool :=
  s.csr.any fun e => e.1 % 0x1000000 == 0xF00008 && getF e.2 F.MGMT_USTAT_CAUSE != 0
/-- RUN or DEGRADED (R29). -/
def State.runMode (s : State) : Mode := if s.anyFenced then .degraded else .run
/-- A unit has come back: DEGRADED becomes RUN with the last one (R29). -/
def State.restored (s : State) : State := if s.mode = .degraded ∧ !s.anyFenced then s.setMode .run else s

/-! Steward operations, up to their acceptance (R420, R421) -/

/-- The unit operations of R420 in codes: OP is listed for the kind of unit u and its state is one the table admits. -/
def State.opAdmitted (s : State) (u op : Nat) : Bool :=
  let st := s.unitState u
  let k := unitKind u
  let up := k != .core || s.unitUp (0x80 + u / 8)
  match op with
  | 1 => k != .fixed && (st == 0 || st == 7)
  | 2 => k != .fixed && k != .memory && (st == 2 || (st == 7 && k == .slice)) && up
  | 3 => (k == .core || k == .cluster || k == .group || (k == .memory && u % 2 == 0)) && st != 3
  | 4 => ((k == .core || k == .cluster || k == .group) && st == 3 && up) || (k == .memory && (st == 2 || st == 3 || st == 4))
  | 5 => k == .memory && (st == 0 || st == 2)
  | 6 => k == .slice && st == 0
  | 7 => (k == .cluster || k == .memory || k == .group) && st == 2
  | _ => false

/-- R422: a home slice is not fenced while its channel serves, a partition is enabled or a region is. -/
def State.sliceFenceRefused (s : State) (n : Nat) : Bool :=
  !(s.rf (R.MEM_CFG (mc n)) F.MEM_CFG_STATE == 4 || s.rf (R.MEM_CFG (mc n)) F.MEM_CFG_STATE == 5) || s.partEn n ||
    (List.range 16).any fun r => getF (s.cxlr n r) F.VLT_CXLR_EN == 1

/-- Some sweep is in SCAN. -/
def State.scanning (s : State) : Bool := s.sweep.jobs.any fun j => j.stage == .scan

/-- R287's cases for the retirement of channel n. -/
def State.retireRefused (s : State) (n : Nat) : Bool :=
  s.rf (R.VLT_ILV 0x100) F.VLT_ILV_GRAN == 0 || (s.partEn n && decide (s.partBase n < min (s.partEnd n) s.ddrTop))

/-- A rule of the owning chapter refuses the operation (R287, R422, R431, R432). -/
def State.opRefused (s : State) (u op arg : Nat) : Bool :=
  let n := u % 16
  match op, unitKind u with
  | 1, .slice => s.sliceFenceRefused n
  | 3, .memory => !((s.unitState u == 2 || s.unitState u == 4) && (s.unitState (u + 1) == 2 || s.unitState (u + 1) == 4))
  | 5, _ => !s.scanning && s.retireRefused n
  | 6, _ => let t := arg % 16; t == n || s.unitState (tu t) != 0 || s.handing t
  | _, _ => false

/-- An operation accepted: BUSY, and FENCING where it fences a unit in service. -/
def State.opAccept (s : State) (u op arg : Nat) : State :=
  let s := s.setUstat u F.MGMT_USTAT_BUSY 1
  let st := s.unitState u
  let s := if op = 1 ∨ (op = 3 ∧ st ≠ 2 ∧ st ≠ 4 ∧ st ≠ 5) then s.setUstat u F.MGMT_USTAT_STATE 1 else s
  { s with unitOps := s.unitOps ++ [UnitOp.mk u op arg] }

/-- The fence that the image makes while nothing runs yet (R408). DEDUCED, log entry 60. -/
def State.imageFence (s : State) (u : Nat) : State :=
  if s.opAdmitted u 1 && !s.opRefused u 1 0 then
    let s := match unitKind u with
      | .memory => s.dropChannel (u % 16) 4
      | .group => s.groupDown (u % 16)
      | .port => s.portDown (u % 16)
      | .cluster => (List.range 8).foldl (fun s j =>
          let k := (u - 0x80) * 8 + j
          if s.unitState k = 0 then { s.setUnit k 2 3 with byCluster := s.byCluster ++ [k] } else s) s
      | _ => s
    s.setUnit u 2 3
  else s.setUstat u F.MGMT_USTAT_RESULT (if s.opAdmitted u 1 then 3 else 5)

/-- A write of MGMT_UCTL: BUSY, MODE, NOTSUP and REFUSED in that order, or the operation is accepted (R421). `load` is a write of
the image sequencer. -/
def State.unitAsk (s : State) (load : Bool) (u op arg : Nat) : State :=
  let res (n : Nat) : State := s.setUstat u F.MGMT_USTAT_RESULT n
  if s.unitBusy u then res 1
  else if load && s.mode == .load && op == 1 then s.imageFence u
  else if s.mode = .load ∨ s.mode = .drain then res 2
  else if !s.opAdmitted u op then res 5
  else if s.opRefused u op arg then res 3
  else s.opAccept u op arg

/-- The write itself. DEDUCED, log entry 60. -/
def State.uctlWrite (s : State) (load : Bool) (u : Nat) (v : Word) : State :=
  s.unitAsk load u (getF v F.MGMT_UCTL_OP) (getF v F.MGMT_UCTL_ARG)

/-! Modes (R426) -/

/-- Armed injections of KIND 1 disarm on leaving DIAGNOSTIC (R446). -/
def State.disarmSevere (s : State) : State :=
  (s.csr.filter fun e => e.1 % 0x1000000 ≥ 0xF80000 && e.1 % 16 == 0 && getF e.2 F.ERRINJ_CTL_MODE != 0 && getF e.2 F.ERRINJ_CTL_KIND == 1).foldl
    (fun s e => s.setRf e.1 F.ERRINJ_CTL_MODE 0) s

def State.modeResult (s : State) (n : Nat) : State := s.setRf R.MGMT_MODE F.MGMT_MODE_RESULT n

/-- A write of MGMT_MODE: CHG, then the request. -/
def State.modeWrite (s : State) (v : Word) : State :=
  let k := R.MGMT_MODE
  let req := getF v F.MGMT_MODE_REQ
  let chg := getF v F.MGMT_MODE_CHG
  let s := s.setRf k F.MGMT_MODE_CHG chg
  let live := s.mode = .run ∨ s.mode = .degraded
  if req = 0 then s
  else if s.rf k F.MGMT_MODE_BUSY = 1 then s.modeResult 2
  else if req = 3 ∧ live ∧ chg ≠ 0 then
    { s.setRf k F.MGMT_MODE_BUSY 1 with brum := some (Brumation.asked chg) }
  else if req = 4 ∧ live then (s.setMode .diagnostic).modeResult 0
  else if req = 1 ∧ s.mode = .diagnostic then (s.disarmSevere.setMode s.runMode).modeResult 0
  else s.modeResult 1

/-- The mode register as read. -/
def State.modeValue (s : State) : Word := setF (s.reg R.MGMT_MODE) F.MGMT_MODE_CUR s.mode.code

/-! Clocks and limits (R429, R462) -/

/-- A write of MGMT_CLK of cluster n: FREQ outside 16–68 leaves the field; CUR follows the ceiling unless a limit holds it lower.
DEDUCED, log entry 72. -/
def State.clkWrite (s : State) (n : Nat) (v : Word) : State :=
  let k := R.MGMT_CLK (0x80 + n)
  let f := getF v F.MGMT_CLK_FREQ
  let s := s.setRf k F.MGMT_CLK_STOPIDLE (getF v F.MGMT_CLK_STOPIDLE)
  if f < 16 ∨ f > 68 then s
  else
    let cur := s.rf k F.MGMT_CLK_CUR
    let held := (bitB s.pwrHeld n ∧ cur < s.rf k F.MGMT_CLK_FREQ) ∨ bitB s.hot n
    (s.setRf k F.MGMT_CLK_FREQ f).setRf k F.MGMT_CLK_CUR (if held ∧ cur < f then cur else f)

/-- MGMT_CLK as read: no frequency is in force while the clock is stopped. -/
def State.clkValue (s : State) (n : Nat) : Word :=
  let v := s.reg (R.MGMT_CLK (0x80 + n))
  if s.clockStopped n then setF v F.MGMT_CLK_CUR 0 else v

def State.pwrWrite (s : State) (v : Word) : State :=
  let t := getF v F.MGMT_PWR_TDP
  if 350 ≤ t ∧ t ≤ 600 then s.setRf R.MGMT_PWR F.MGMT_PWR_TDP t else s

/-! Error rings and injection (R443–R446) -/

/-- A write of MGMT_EPTR: CONS, unless PROD − CONS would exceed 64. -/
def State.eptrWrite (s : State) (i : Nat) (v : Word) : State :=
  let k := R.MGMT_EPTR i
  let c := getF v F.MGMT_EPTR_CONS
  if (s.rf k F.MGMT_EPTR_PROD + 65536 - c) % 65536 > 64 then s else s.setRf k F.MGMT_EPTR_CONS c

/-- The classes of detector d of unit u (R444); none where the unit has no such detector. -/
def detClasses (u d : Nat) : List ErrClass :=
  let c := ErrClass.corrected
  let e := ErrClass.deferred
  let f := ErrClass.fatal
  let l : List (List ErrClass) := match unitKind u with
    | .core => [[c], [c, e], [c], [c, f], [f]]
    | .cluster => [[c, e], [c, e], [f]]
    | .slice => [[c, e], [c, e], [c, e], [c, e], [c], [c, f], [c, f], [c], [e], [e], [c], [c, f]]
    | .memory => [[c], [e], [e], [c], [c], [f]]
    | .group => [[c], [e], [e], [e]]
    | .port => [[c], [e]]
    | .fixed => if u = 0x142 then [[f]] else [[c, f]]
  l.getD d []

/-- LIVE: the detector has a correctable class. -/
def detLive (u d : Nat) : Bool := (detClasses u d).contains .corrected

/-- ERRINJ_CTL as read. -/
def State.injValue (s : State) (u d : Nat) : Word := setF (s.reg (R.ERRINJ_CTL u d)) F.ERRINJ_CTL_LIVE (b2n (detLive u d))

/-- The registers of detector d of unit u accept writes now (R32). -/
def State.injOpen (s : State) (u d : Nat) : Bool := s.mode == .diagnostic || detLive u d

/-- The injection period of detector d of unit u in ns: PERIOD in microseconds, of which 0 acts as 1 (R445). -/
def State.injPeriod (s : State) (u d : Nat) : Nat := 1000 * max 1 (s.rf (R.ERRINJ_PER u d) F.ERRINJ_PER_PERIOD)
/-- A period of detector d of unit u starts now. -/
def State.injStart (s : State) (u d : Nat) : State :=
  { s with injNext := SMap.set zeroNat s.injNext (R.ERRINJ_CTL u d) (s.time.toNat + s.injPeriod u d) }

/-- A write of ERRINJ_CTL (R446): one that leaves MODE other than 0 is accepted only in DIAGNOSTIC, or while running for a correctable
fault of a live-injectable detector. Detector 4 of a core has no injection. DEDUCED, log entry 75. -/
def State.injWrite (s : State) (u d : Nat) (v : Word) : State :=
  let k := R.ERRINJ_CTL u d
  let kind := getF v F.ERRINJ_CTL_KIND
  let m := if u < 0x80 ∧ d = 4 then 0 else if getF v F.ERRINJ_CTL_MODE = 3 then s.rf k F.ERRINJ_CTL_MODE else getF v F.ERRINJ_CTL_MODE
  if !s.injOpen u d then s
  else if m = 0 ∨ s.mode = .diagnostic ∨ ((s.mode = .run ∨ s.mode = .degraded) ∧ kind = 0 ∧ detLive u d) then
    let s : State := { s with injDue := s.injDue.erase (u, d) }
    ((s.setRf k F.ERRINJ_CTL_MODE m).setRf k F.ERRINJ_CTL_KIND kind).injStart u d
  else s

/-! Snapshots (R439) -/

/-- A write of SNAP_CTL: a refused arm changes nothing but RESULT. -/
def State.snapWrite (s : State) (v : Word) : State :=
  let k := R.SNAP_CTL
  let res (s : State) (n : Nat) : State := s.setRf k F.SNAP_CTL_RESULT n
  let t := (s.setRf k F.SNAP_CTL_ID (getF v F.SNAP_CTL_ID)).setRf k F.SNAP_CTL_DBSRC (getF v F.SNAP_CTL_DBSRC)
  if getF v F.SNAP_CTL_GO = 0 then t
  else if (s.reg R.SNAP_AT).toNat < s.time.toNat + 2000 then res s 1
  else if s.snapAt.isSome then res s 2
  else { (res t 0).setReg R.SNAP_DONE (BitVec.ofNat 64 (getF v F.SNAP_CTL_ID)) with snapAt := some (s.reg R.SNAP_AT) }

/-! The time base (R435, R436) -/

/-- Some UP port follows its peer's time base. -/
def State.followsPeer (s : State) : Bool :=
  (List.range 7).any fun p => s.peerState p == 2 && s.rf (R.PEER_CFG (pp p)) F.PEER_CFG_FOLLOW == 1

/-- The socket is not the time reference: a port of it is configured to follow (R378). -/
def State.follower (s : State) : Bool := (List.range 7).any fun p => s.rf (R.PEER_CFG (pp p)) F.PEER_CFG_FOLLOW == 1

/-- `x` limited to ±500,000. -/
def rateClamp (x : Int) : Int := max (-500000) (min 500000 x)

def State.adjWrite (s : State) (v : Word) : State :=
  if s.followsPeer ∨ s.rf R.TIME_PPSCTL F.TIME_PPSCTL_EN = 1 then s
  else
    let r := rateClamp (toSigned 32 (getF v F.TIME_ADJ_RATE))
    s.setReg R.TIME_ADJ (setF v F.TIME_ADJ_RATE (ofInt 32 r).toNat)

/-! Flash commands (R414) -/

/-- The initiator may write IMG_FCMD and IMG_FBUF: the eft, or debug at level 2 or higher. DESIGN CHOICE, log entry 64. -/
def State.flashFrom (s : State) (init : Nat) : Bool := init == 0x160 || (init == 0x170 && s.rf R.DBG_CTL F.DBG_CTL_LEVEL ≥ 2)

/-- The program buffer. -/
def State.flashBuf (s : State) : List Byte := (List.range 32).flatMap fun i => natBytes 8 (s.reg (R.IMG_FBUF i)).toNat

/-- A write of IMG_FCMD: nothing while a command runs; a misaligned command fails at once. DESIGN CHOICE, log entry 64. -/
def State.fcmdWrite (s : State) (init : Nat) (v : Word) : State :=
  let op := getF v F.IMG_FCMD_OP
  let a := getF v F.IMG_FCMD_ADDR
  if !s.flashFrom init || (op != 1 && op != 2) || s.flashOp.isSome then s
  else if a % (if op = 1 then 65536 else 256) ≠ 0 ∨ a ≥ s.flashSize then s.setRf R.IMG_FSTAT F.IMG_FSTAT_ERR 1
  else { (s.setRf R.IMG_FSTAT F.IMG_FSTAT_ERR 0).setRf R.IMG_FSTAT F.IMG_FSTAT_BUSY 1 with flashOp := some ⟨op, a, s.flashBuf⟩ }

/-- The page of the flash shown at unit 0x160 offsets 0x100000 upward, as a flash offset. -/
def State.flashPage (s : State) : Nat := s.rf R.IMG_FPAGE F.IMG_FPAGE_PAGE * 0x100000

/-! The eft (R418) -/

/-- SWAP: the other slot becomes the slot in use if it passes R399. -/
def State.eftSwap (s : State) : State :=
  let other := 1 - s.rf R.IMG_STATUS F.IMG_STATUS_SLOT
  if (s.slotErr other).isNone then
    let s := (s.setRf R.IMG_STATUS F.IMG_STATUS_SLOT other).setRf R.MGMT_EFT F.MGMT_EFT_SWAPERR 0
    { s with boot := { s.boot with kicked := s.time } }
  else s.setRf R.MGMT_EFT F.MGMT_EFT_SWAPERR 1

/-- DEDUCED, log entry 74. -/
def State.eftWrite (s : State) (v : Word) : State :=
  let k := R.MGMT_EFT
  let w := getF v F.MGMT_EFT_WDT
  let s := if getF v F.MGMT_EFT_KICK = 1 ∨ s.rf k F.MGMT_EFT_WDT = 0 then { s with boot := { s.boot with kicked := s.time } } else s
  let s := s.setRf k F.MGMT_EFT_WDT w
  let s := if getF v F.MGMT_EFT_RESTARTED = 1 then s.setRf k F.MGMT_EFT_RESTARTED 0 else s
  if getF v F.MGMT_EFT_SWAP = 1 then s.eftSwap else s

/-! Debug (R447–R452) -/

def State.dbgLevel (s : State) : Nat := s.rf R.DBG_CTL F.DBG_CTL_LEVEL

/-- Core k stands halted at an instruction boundary (R450). DEDUCED, log entry 20. -/
def State.coreHalted (s : State) (k : CoreId) : Bool := (s.core k).run == .halted && (s.core k).recallW.isNone && (s.core k).flight.isNone

def State.haltCore (s : State) (k : CoreId) : State :=
  s.modCore k fun c => if c.run = .running ∨ c.run = .waiting then { c with run := .halted, step := false } else c
def State.resumeCore (s : State) (k : CoreId) : State :=
  s.modCore k fun c => if c.run = .halted then { c with run := .running, step := false } else c
def State.stepCore (s : State) (k : CoreId) : State :=
  s.modCore k fun c => if c.run = .halted then { c with run := .running, step := true } else c

/-- HALT, RESUME and STEP (bits 0 to 2) asked of core k: each 1 sets its bit (R9), and the bits of an earlier request are cleared.
DESIGN CHOICE, log entry 116. -/
def State.cctlAsk (s : State) (k : CoreId) (b : Nat) : State :=
  let s := if b = 0 then s else s.setRf (R.DBG_CCTL k.val) ⟨2, 0⟩ b
  let s := if b % 2 = 1 then s.haltCore k else s
  let s := if b / 2 % 2 = 1 then s.resumeCore k else s
  if b / 4 % 2 = 1 then s.stepCore k else s

/-- A write of DBG_CCTL of core k. -/
def State.cctlWrite (s : State) (k : CoreId) (v : Word) : State :=
  (s.setRf (R.DBG_CCTL k.val) F.DBG_CCTL_HALTONBRK (getF v F.DBG_CCTL_HALTONBRK)).cctlAsk k (getF v ⟨2, 0⟩)

/-- DEDUCED, log entry 20. -/
def State.cctlValue (s : State) (k : CoreId) : Word :=
  setF (s.reg (R.DBG_CCTL k.val)) F.DBG_CCTL_HALTED (b2n (s.coreHalted k))

/-- Debug control takes a write: the level is n or more, or the image sequencer makes it, whose writes no level limits (R403, R447). -/
def State.dbgTakes (s : State) (load : Bool) (n : Nat) : Bool := load || decide (n ≤ s.dbgLevel)

/-- A fresh nonce (R448). DESIGN CHOICE, log entry 18. -/
def State.newNonce (s : State) : State :=
  let t := (List.range 6).foldl (fun (t : State) j => t.setReg (R.DBG_NONCE j) (Config.freeWord (s.free + j))) s
  { t with free := s.free + 6 }

/-- The bytes that a run of 64-bit registers holds. -/
def State.regBytes (s : State) (k : Nat → Nat) (n : Nat) : List Byte := (List.range n).flatMap fun j => natBytes 8 (s.reg (k j)).toNat

/-- The digest an unlock to level v signs (R448). -/
def State.unlockDigest (s : State) (v : Nat) : List Byte :=
  sha384 (s.regBytes R.DBG_NONCE 6 ++ natBytes 8 (s.reg R.IMG_FDIEID).toNat ++ natBytes 1 v)

/-- DBG_UNLOCK.RESULT of an attempt: 4 within 1 ms of a failure, 5 after 16, 2 key, 3 signature, 1 passed. -/
def State.unlockVerdict (s : State) (v k : Nat) : Nat :=
  let key := s.regBytes R.DBG_KEY 12
  if s.rf R.DBG_UNLOCK F.DBG_UNLOCK_FAILS ≥ 16 then 5
  else if (match s.dbgFailAt with | some t => decide (s.time.toNat < t.toNat + 1000000) | none => false) then 4
  else if s.openPart then 1
  else if !s.keyOk k key then 2
  else if !ecdsaOk key (s.regBytes R.DBG_SIG 12) (s.unlockDigest v) then 3 else 1

/-- A write of DBG_UNLOCK; every attempt replaces the nonce, a failure is counted, the level only rises. -/
def State.unlockWrite (s : State) (v : Word) : State :=
  let k := R.DBG_UNLOCK
  let lv := getF v F.DBG_UNLOCK_LEVEL
  let ki := getF v F.DBG_UNLOCK_KEYIDX
  let s := (s.setRf k F.DBG_UNLOCK_LEVEL lv).setRf k F.DBG_UNLOCK_KEYIDX ki
  if getF v F.DBG_UNLOCK_GO = 0 then s
  else
    let r := s.unlockVerdict lv ki
    let s := s.newNonce
    if r = 1 then (s.setRf k F.DBG_UNLOCK_RESULT 1).setRf R.DBG_CTL F.DBG_CTL_LEVEL (max s.dbgLevel lv)
    else if r = 2 ∨ r = 3 then
      let s : State := { s.incRf k F.DBG_UNLOCK_FAILS with dbgFailAt := some s.time }
      s.setRf k F.DBG_UNLOCK_RESULT (if s.rf k F.DBG_UNLOCK_FAILS ≥ 16 then 5 else r)
    else s.setRf k F.DBG_UNLOCK_RESULT r

/-- LOCK (R448). DEDUCED, log entry 65. -/
def State.dbgLock (s : State) : State := { s.setRf R.DBG_CTL F.DBG_CTL_LEVEL 0 with tap := { s.tap with extest := none } }

/-- The trace buffer lies wholly within PINNED kind-1 partitions (R452). DEDUCED, log entry 65. -/
def State.traceBufOk (s : State) : Bool :=
  let b := s.rf R.DBG_TRBUF F.DBG_TRBUF_BASE * 0x10000
  let step := min s.gran 0x10000
  (List.range (s.rf R.DBG_TRBUF F.DBG_TRBUF_SIZE * 0x100000 / step)).all fun i =>
    match s.localOf (b + i * step) with
    | some a =>
      let h := s.home a
      s.partEn h && s.rf (R.VLT_PART (hs h)) F.VLT_PART_KIND == 1 && s.rf (R.VLT_PSTAT (hs h)) F.VLT_PSTAT_STATE == 2 &&
        decide (s.partBase h ≤ a) && decide (a < s.partEnd h)
    | none => false

/-- A write of DBG_TRCTL: EN set over an unsuitable buffer stays 0; setting it starts DBG_TRPTR at 0 (R452). -/
def State.trctlWrite (s : State) (v : Word) : State :=
  let k := R.DBG_TRCTL
  let on := s.rf k F.DBG_TRCTL_EN = 1
  let s := (s.setRf k F.DBG_TRCTL_WRAP (getF v F.DBG_TRCTL_WRAP)).setRf k F.DBG_TRCTL_TYPES (getF v F.DBG_TRCTL_TYPES)
  if getF v F.DBG_TRCTL_EN = 0 then s.setRf k F.DBG_TRCTL_EN 0
  else if on then s
  else if s.traceBufOk then (s.setRf k F.DBG_TRCTL_EN 1).setReg R.DBG_TRPTR 0
  else s

end Sys2Proof.Machine
end

