-- ==== Sys2Proof/Machine/Loads.lean ====
section
/-!
DEFINITION. Outstanding loads and long operations of a core: when their values are fixed (R253), when they reach their registers
(R115, R133, R152, R197).
-/
namespace Sys2Proof.Machine

/-! BAR windows -/

/-- R349: the lane group of a BAR address, if the address is in its ECAM region or an enabled aperture.
DESIGN CHOICE, log entry 14. -/
def State.barGroup (s : State) (pa : Nat) : Option Nat :=
  let n := (pa - 0x900000000000) / 0x60000000000
  let o := (pa - 0x900000000000) % 0x60000000000
  if n ≥ 16 then none
  else if o < 0x10000000 then some n
  else if (List.range 8).any fun p =>
      let r := R.LGP_PWIN (0x120 + n) p
      s.rf r F.LGP_PWIN_EN == 1 && s.rf r F.LGP_PWIN_BASE ≤ o / 0x100000 && o / 0x100000 ≤ s.rf r F.LGP_PWIN_LIMIT
  then some n else none

/-! Loads -/

/-- The value a load writes (R112, R142). -/
def loadValue (kind : LoadKind) (bs : List Byte) (tag : Bool) : DVal :=
  match kind with
  | .gpr signed => .w (if signed then sext64 (8 * bs.length) (bytesNat bs) else BitVec.ofNat 64 (bytesNat bs))
  | .fpr => .w (BitVec.ofNat 64 (bytesNat bs))
  | .qpr => .quad (BitVec.ofNat 128 (bytesNat bs))
  | .coin => .coin ⟨BitVec.ofNat 128 (bytesNat bs), tag⟩
  | .word16 => .w (BitVec.ofNat 64 (bytesNat bs))

/-- The data of the outstanding load at index i arrives: older loads that overlap it are performed first (R253), and the
destination is written in the bank in which the load issued (R197). A coin passes the retirement test (R93).
DEDUCED, log entry 89. -/
def State.loadReturn (s : State) (k : CoreId) (i : Nat) : State :=
  match (s.core k).loads[i]? with
  | none => s
  | some l =>
    if s.loadHeld l then s.block else
    let f (j : Nat) (x : Load) : Load :=
      if j < i then l.parts.foldl (fun x g => s.samplePart x g.half.pa g.half.len) x else x
    let s := s.modCore k fun c => { c with loads := c.loads.mapIdx f }
    let (bs, tag) := (s.sampleLoad l).data
    let s := s.modCore k fun c => { c with loads := c.loads.eraseIdx i }
    match loadValue l.kind bs tag with
    | .coin x =>
      let (x, s) := s.retire k x
      s.modCore k fun c => c.write l.dst (.coin x)
    | v => s.modCore k fun c => c.write l.dst v

/-- One half of the outstanding load at index i of core k performed, the load still outstanding (R113). Older loads that overlap it
are performed first (R253). -/
def State.halfReturn (s : State) (k : CoreId) (i j : Nat) : State :=
  match (s.core k).loads[i]? with
  | none => s
  | some l =>
    match l.parts[j]? with
    | none => s
    | some p =>
      if s.loadHeld l then s.block
      else
        let one (m : Nat) (q : LoadPart) : LoadPart := if m = j then s.performPart q else q
        let f (n : Nat) (x : Load) : Load :=
          if n < i then s.samplePart x p.half.pa p.half.len
          else if n = i then { x with parts := x.parts.mapIdx one }
          else x
        s.modCore k fun c => { c with loads := c.loads.mapIdx f }

/-- Data of the outstanding load at index i arrives. Halves of a split load not performed yet arrive together or one of them alone,
which is free (R113). DESIGN CHOICE, log entry 7. -/
def State.dataReturn (s : State) (k : CoreId) (i : Nat) : State :=
  match (s.core k).loads[i]? with
  | none => s
  | some l =>
    if (l.parts.filter fun p => p.got.isNone).length ≥ 2 then
      match Config.freeNat s.free % 3 with
      | 0 => s.bumpFree.loadReturn k i
      | n => s.bumpFree.halfReturn k i (n - 1)
    else s.loadReturn k i

/-- The oldest `n` outstanding loads of core k returned. -/
def State.returnFirst (s : State) (k : CoreId) : Nat → State
  | 0 => s
  | n + 1 => (s.loadReturn k 0).returnFirst k n

/-- Every outstanding load of core k returned. -/
def State.returnAll (s : State) (k : CoreId) : State := s.returnFirst k (s.core k).loads.length

/-- The outstanding loads up to the youngest one to destination `d` returned: the interlock of R133. DESIGN CHOICE, log entry 9. -/
def State.returnFor (s : State) (k : CoreId) (d : Dst) : State :=
  let ls := (s.core k).loads
  s.returnFirst k (ls.length - (ls.reverse.takeWhile fun l => l.dst.base != d).length)

/-! Completion of long operations (R152) -/

/-- One long operation completes: its results are written, its flags set, its enabled exception made pending.
DEDUCED, log entry 90. -/
def CoreState.longDone (c : CoreState) (l : LongOp) : CoreState :=
  let c := l.writes.foldl (fun c w => c.write w.1 w.2) c
  let c := c.csSet R.CS_FPFLAGS (c.csGet R.CS_FPFLAGS ||| l.flags.zeroExtend 64)
  match l.ax with
  | some r => { c with ax := c.ax ++ [r] }
  | none => c

/-- Every long operation of the core completes, in the order of issue. -/
def CoreState.longsDone (c : CoreState) : CoreState :=
  c.longs.foldl CoreState.longDone { c with longs := [] }

/-- Long operations completed up to the youngest that writes `d`. -/
def CoreState.longsFor (c : CoreState) (d : Dst) : CoreState :=
  let keep := (c.longs.reverse.takeWhile fun l => !l.writes.any fun w => w.1.base == d).length
  let n := c.longs.length - keep
  (c.longs.take n).foldl CoreState.longDone { c with longs := c.longs.drop n }

/-- Everything pending on register `d` of core k arrives. DESIGN CHOICE, log entry 9. -/
def State.settle (s : State) (k : CoreId) (d : Dst) : State :=
  (s.returnFor k d.base).modCore k (·.longsFor d.base)

end Sys2Proof.Machine
end

