-- ==== Sys2Proof/Machine/Control.lean ====
section
/-!
DEFINITION. Control-space accesses (R6–R12): the match of width and alignment, the registers whose write or read does more
than their field types say, and the field types for all others. Debug access to memory and to halted cores (R449, R450) and the
re-application of image segments (R434) are made of such accesses.
-/
namespace Sys2Proof.Machine

/-- The outcome of a control-space access. -/
inductive CtlRes where
  | ok (v : Word)
  /-- done, but not acknowledged yet: the access completes later (R27) -/
  | held
  /-- R7 was broken: bus error, nothing changed -/
  | access
  /-- the unit number has no target (R36) -/
  | notarget
  deriving DecidableEq, Repr

/-! Reads -/

/-- The core whose hub window offset `o` lies in. -/
def hubCore (o : Nat) : Nat := (o - 0x400000) / 0x1000 % 128

/-- MGMT_USTAT as read: the steward, and HALTED for a core that debug has halted. -/
def State.ustatValue (s : State) (u : Nat) : Word :=
  let v := setF (s.reg (R.MGMT_USTAT u)) F.MGMT_USTAT_STEWARD (s.steward u)
  if u < 0x80 && getF v F.MGMT_USTAT_STATE == 0 && s.coreHalted (coreOf u) then setF v F.MGMT_USTAT_STATE 6 else v

/-- What the register at key k holds now; most hold what is stored. -/
def State.ctlValue (s : State) (k : Nat) (r : RegRow) : Word :=
  let u := k / 0x1000000
  let o := k % 0x1000000
  match r.name with
  | .SEQ_NEXT => s.seqNextValue
  | .SEQ_CTL => s.seqCtlValue
  | .SEQ_LAST => s.seq.last
  | .TLR_CTL => s.tlrCtlValue (u % 16)
  | .TLR_STAT => s.tlrStatValue (u % 16)
  | .TLR_JSTAT => s.jstatValue (u % 16)
  | .DBH_SPEND => s.spend ((o - 0x200000) / 8)
  | .DBH_PPEND => s.privBits (hubCore o) privP
  | .DBH_PACT => s.privBits (hubCore o) privA
  | .DBH_PEEK => BitVec.ofNat 64 ((s.claimPeek (hubCore o) [true, false]).getD 0xFFFFFFFF)
  | .MGMT_USTAT => s.ustatValue u
  | .MGMT_MODE => s.modeValue
  | .MGMT_CLK => s.clkValue (u % 16)
  | .ERRINJ_CTL => s.injValue u ((o - 0xF80000) / 16)
  | .TIME_NOW => s.time
  | .DBG_ID => s.reg R.IMG_FDIEID
  | .DBG_CCTL => s.cctlValue (coreOf ((o - 0x1000) / 8))
  | _ => s.reg k

/-- The bytes shown where no register stands: the flash page and the error rings (R414, R442); elsewhere zero (R8). -/
def State.holeByte (s : State) (k : Nat) : Byte :=
  if 0x160100000 ≤ k ∧ k < 0x160200000 then s.flB (s.flashPage + (k - 0x160100000))
  else if 0x160400000 ≤ k ∧ k < 0x160431000 then s.sramB (k - 0x160000000)
  else 0

/-- A read of control-space key `k`, `len` bytes, by unit `init`. Claims take a source (R218). -/
def State.ctlRead (s : State) (_init k len : Nat) : CtlRes × State :=
  if !unitExists (k / 0x1000000) then (.notarget, s)
  else match regHit k len with
    | .clash => (.access, s)
    | .hole => (.ok (BitVec.ofNat 64 (bytesNat ((List.range len).map fun i => s.holeByte (k + i)))), s)
    | .exact r =>
      let c := hubCore (k % 0x1000000)
      match r.name with
      | .DBH_CLAIM => let (v, s) := s.claim c [true, false]; (.ok v, s)
      | .DBH_CLAIMG => let (v, s) := s.claim c [true]; (.ok v, s)
      | .DBH_CLAIMN => let (v, s) := s.claim c [false]; (.ok v, s)
      | _ => (.ok (readFields r.fields (s.ctlValue k r)), s.setReg k (clearFields r.fields (s.reg k)))

/-! Writes -/

/-- A write of a guard register by its field types, the old value kept for 40 ns (R365). -/
def State.guardPlain (s : State) (k : Nat) (r : RegRow) (v : Word) : State := s.guardWrite k (writeFields false r.fields (s.reg k) v)

/-- A write of GUARD_CTL: STRICT and NSRC; EVICT of a peer port's set is acknowledged once the peer holds no line (R376). -/
def State.guardCtl (s : State) (set : Nat) (v : Word) : CtlRes × State :=
  let s := s.guardCtlWrite set v
  if getF v F.GUARD_CTL_EVICT = 1 ∧ 16 ≤ set ∧ set < 23 then
    let s := s.evict (set - 16)
    (if s.peerHolds (set - 16) then .held else .ok 0, s)
  else (.ok 0, s)

/-- The write of `v` to the register of row r at key k: what its unit does with it. `load` is a write of the image sequencer. -/
def State.regWrite (s : State) (load : Bool) (init k : Nat) (r : RegRow) (v : Word) : CtlRes × State :=
  let u := k / 0x1000000
  let o := k % 0x1000000
  let n := u % 16
  let w := v.toNat
  let plain := s.plainWrite (load || s.mode == .load) k r v
  let ok (s : State) : CtlRes × State := (.ok 0, s)
  match r.name with
  -- doorbell hub
  | .DBH_RING => ok (s.dbRingWrite w)
  | .DBH_HOLD => ok (s.dbHoldWrite v)
  | .DBH_IPI => ok (s.ipiWrite v)
  | .DBH_PEND => ok (s.fireShared (w % 65536))
  | .DBH_UNPEND => ok (s.dbUnpend (w % 65536))
  | .DBH_SRC => ok (s.dbSrcWrite ((o - 0x100000) / 8) v)
  | .DBH_DONE => ok (s.dbDone (hubCore o) (w % 2 ^ 32))
  | .DBH_PCFG => ok (s.dbPrivCfg (hubCore o) false v)
  | .DBH_PCLASS => ok (s.dbPrivCfg (hubCore o) true v)
  | .DBH_PPEND => ok (s.dbPpend (hubCore o) v)
  | .DBH_TCTL => ok (s.dbTctlWrite (hubCore o) v)
  -- vault, memory
  | .VLT_SWCTL => ok (s.swctlWrite v)
  | .VLT_SWADD => ok (s.swAdd v)
  | .VLT_PART => ok (s.partWrite n v)
  | .VLT_PRANGE => ok (s.prangeWrite n v)
  | .VLT_CXLR => ok (s.cxlrWrite n ((o - 0xC80) / 8) v)
  | .MEM_COPYCTL => ok (s.copyctlWrite n v)
  -- tellers, sequencer, journal
  | .TLR_SUBMIT => ok (s.submitWrite n v)
  | .TLR_INVTLB => if s.tlrInvHeld n v then (.held, s) else ok (s.tlrInvWrite n v)
  | .TLR_SRBASE => ok (s.srbaseWrite n ((o - 0x100) / 0x20) v)
  | .TLR_SRCFG => ok (s.srcfgWrite n ((o - 0x108) / 0x20) v)
  | .SEQ_NEXT => ok { s with seq := s.seq.writeNext v }
  | .SEQ_CTL => ok { s with seq := s.seq.writeCtl v }
  | .TLR_JCTL => let (h, s) := s.jctlWrite n v; (if h then .held else .ok 0, s)
  | .TLR_JBASE => ok (s.jAreaWrite k v (s.jLocal n))
  | .TLR_JSIZE => ok (s.jAreaWrite k v (s.jLocal n))
  | .TLR_JMSIZE => ok (s.jAreaWrite k v (s.rf (R.TLR_JMBASE u) F.TLR_JMBASE_EN == 1))
  | .TLR_JTAIL => ok (s.jtailWrite n v)
  | .TLR_JMTAIL => ok (s.jmtailWrite n v)
  | .TLR_JMBASE => ok (s.jmbaseWrite n v)
  -- lane groups, peer ports, guards
  | .LGP_CTL => ok (if getF v F.LGP_CTL_APPLY = 1 then s.lgpApply n else s)
  | .LGP_INVTLB => let (h, s) := s.lgpInvWrite init n v; (if h then .held else .ok 0, s)
  | .LGP_PRQ => ok (s.prqWrite n v)
  | .LGP_PRGR => ok (s.prgrWrite n v)
  | .LGP_PWIN => ok (s.pwinWrite n ((o - 0x80) / 8) v)
  | .LGP_FNCTL => ok (s.fnctlWrite n ((o - 0x1000) / 16) v)
  | .PEER_CFG => ok (s.peerCfgWrite (u - 0x130) v)
  | .GUARD_CTL => s.guardCtl (o / 0x1000) v
  | .GUARD_LO => ok (s.guardPlain k r v)
  | .GUARD_HI => ok (s.guardPlain k r v)
  | .GUARD_ATTR => ok (s.guardPlain k r v)
  | .GUARD_BIND => ok (s.guardBindWrite (o / 0x1000) ((o % 0x1000 - 0x818) / 0x20) v)
  -- management plane
  | .MGMT_UCTL => ok (s.uctlWrite load u v)
  | .MGMT_CLK => ok (s.clkWrite n v)
  | .MGMT_MODE => ok (s.modeWrite v)
  | .MGMT_EFT => ok (s.eftWrite v)
  | .MGMT_EPTR => ok (s.eptrWrite ((o - 0x300000) / 8) v)
  | .MGMT_PWR => ok (s.pwrWrite v)
  | .ERRINJ_CTL => ok (s.injWrite u ((o - 0xF80000) / 16) v)
  | .ERRINJ_PER => ok (if s.injOpen u ((o - 0xF80008) / 16) then plain else s)
  | .SNAP_CTL => ok (s.snapWrite v)
  | .TIME_ADJ => ok (s.adjWrite v)
  -- the sequencer never writes the flash (R413)
  | .IMG_FCMD => ok (if load then s else s.fcmdWrite init v)
  | .IMG_FBUF => ok (if load || s.flashFrom init then plain else s)
  | .DBG_CTL => ok (if getF v F.DBG_CTL_LOCK = 1 then s.dbgLock else s)
  | .DBG_UNLOCK => ok (s.unlockWrite v)
  | .DBG_TRCTL => ok (if s.dbgTakes load 2 then s.trctlWrite v else s)
  | .DBG_TRBUF => ok (if s.dbgTakes load 2 && s.rf R.DBG_TRCTL F.DBG_TRCTL_EN == 0 then plain else s)
  | .DBG_TRCORE0 => ok (if s.dbgTakes load 2 then plain else s)
  | .DBG_TRCORE1 => ok (if s.dbgTakes load 2 then plain else s)
  | .DBG_CCTL => ok (if s.dbgTakes load 2 then s.cctlWrite (coreOf ((o - 0x1000) / 8)) v else s)
  | _ => ok plain

/-- The match of an access to a register (R7, R8, R36), and the write where it matches one. -/
def State.ctlAccess (s : State) (k len : Nat) (f : RegRow → CtlRes × State) : CtlRes × State :=
  if !unitExists (k / 0x1000000) then (.notarget, s)
  else match regHit k len with
    | .clash => (.access, s)
    | .hole => (.ok 0, s)
    | .exact r => f r

/-! Image records as writes (R403, R434) -/

/-- The bits of a register that a write of the same bits leaves as they are: its RW and RWL fields. -/
def settable (fs : List RegField) (v : Word) : Word :=
  fs.foldl (fun r f => match f.ty with | .rw => r ||| (v &&& f.fld.mask 64) | .rwl => r ||| (v &&& f.fld.mask 64) | _ => r) 0

/-- How the sequencer writes a register: the state before, its key, its row and the value. -/
abbrev SeqWrite := State → Nat → RegRow → Word → CtlRes × State

/-- Bits [lsb + width − 1 : lsb] of the register at `off` of unit u written by `wr`, its other bits unchanged (R403). -/
def State.fieldWrite (wr : SeqWrite) (s : State) (lsb width : Nat) (w32 : Bool) (u off : Nat) (value : Word) : State :=
  let k := u * 0x1000000 + off
  (s.ctlAccess k (if w32 then 4 else 8) fun r =>
    wr s k r (setF (settable r.fields (s.ctlValue k r)) ⟨lsb + width - 1, lsb⟩ value.toNat)).2

/-- A record applied by `wr` to the units of its run that `p` selects. SEQ records are the sequencer's. -/
def State.applyBy (wr : SeqWrite) (s : State) (p : Nat → Bool) (r : ParRec) : State :=
  match r.par with
  | .field lsb width w32 unit count off value =>
    ((List.range count).filter fun i => p (unit + i)).foldl (fun s i => s.fieldWrite wr lsb width w32 (unit + i) off value) s
  | .seq _ _ => s

/-- A record re-applied to a unit that can be fenced, or to the sequencer. -/
def State.applyRec (s : State) (p : Nat → Bool) (r : ParRec) : State :=
  s.applyBy (fun s k r v => s.regWrite true 0x160 k r v) p r

/-- The segment's bytes match the CRC of its entry. -/
def State.segCrcOk (s : State) (slot : Nat) (g : Seg) : Bool := (crc32c (s.flBytes (s.slotOff slot + g.off) g.len)).toNat == g.crc

/-- A write of IMG_APPLY: UNIT must be fenced, SEG name a PARAM segment (0xFF all), its CRC match; then its FIELD records for UNIT are
written. DEDUCED, log entry 73. -/
def State.imgApply (s : State) (v : Word) : State :=
  let k := R.IMG_APPLY
  let u := getF v F.IMG_APPLY_UNIT
  let g := getF v F.IMG_APPLY_SEG
  let s := (s.setRf k F.IMG_APPLY_UNIT u).setRf k F.IMG_APPLY_SEG g
  let res (s : State) (n : Nat) : State := s.setRf k F.IMG_APPLY_RESULT n
  if getF v F.IMG_APPLY_GO = 0 then s
  else if !unitExists u || s.unitState u != 2 then res s 1
  else
    let slot := s.rf R.IMG_STATUS F.IMG_STATUS_SLOT
    let gs := (s.segsOf slot 1).filter fun x => g == 0xFF || x.idx == g
    if gs.isEmpty then res s 3
    else if !gs.all (s.segCrcOk slot) then res s 2
    else match gs.foldl (fun r x => r.bind fun a => (s.segRecs slot x).map (a ++ ·)) (Except.ok []) with
      | .error _ => res s 3
      | .ok rs => res (rs.foldl (fun s r => s.applyRec (· == u) r) s) 0

/-! Registers of a halted core (R450) -/

/-- A core state register as debug reads it; coins with their tag. DEDUCED, log entry 65. -/
def State.dbgCsRead (s : State) (k : CoreId) (i : Nat) : BitVec 128 × Bool × State :=
  let c := s.core k
  let bank := c.csF R.CS_BANKWIN F.CS_BANKWIN_BANK
  match csRule bank i with
  | none => (0, false, s)
  | some r =>
    if r.coin then
      if i = R.CS_PCC then (c.pcc.bits, c.pcc.tag, s)
      else if 0x130 ≤ i ∧ i < 0x138 then
        let s := s.settle k (winDst bank i)
        let x := ((s.core k).read (winDst bank i)).coinOf
        (x.bits, x.tag, s)
      else ((c.ccGet i).bits, (c.ccGet i).tag, s)
    else if 0x120 ≤ i ∧ i < 0x130 then
      let s := s.settle k (winDst bank i)
      (((s.core k).read (winDst bank i)).word.zeroExtend 128, false, s)
    else if i = R.CS_TIME then
      let (v, s) := s.timeRead k
      (v.zeroExtend 128, false, s)
    else
      let s := if i = R.CS_FPCTL ∨ i = R.CS_FPFLAGS then s.modCore k CoreState.longsDone else s
      (((s.csFixed k i).getD ((s.core k).csGet i)).zeroExtend 128, false, s)

/-- A core state register written by debug; a coin gets tag 0, a read-only register does not change. DEDUCED, log entry 65. -/
def State.dbgCsWrite (s : State) (k : CoreId) (i : Nat) (x : BitVec 128) : State :=
  let bank := (s.core k).csF R.CS_BANKWIN F.CS_BANKWIN_BANK
  let v : Word := x.extractLsb' 0 64
  match csRule bank i with
  | none => s
  | some r =>
    if r.ro then s
    else if 0x120 ≤ i ∧ i < 0x138 then
      (s.settle k (winDst bank i)).modCore k fun c => c.write (winDst bank i) (if r.coin then .coin ⟨x, false⟩ else .w v)
    else if r.coin then s.modCore k fun c => c.ccSet i ⟨x, false⟩
    else if i = R.CS_FREEHEAD then s.freeheadWrite k v
    else
      let s := if i = R.CS_FPCTL ∨ i = R.CS_FPFLAGS ∨ i = R.CS_STATUS then s.modCore k CoreState.longsDone else s
      s.modCore k fun c => c.csNext i v

/-- The register that FILE and INDEX name, in the bank in use; none for a number the file does not have. -/
def CoreState.dbgDst (c : CoreState) (file i : Nat) : Option Dst :=
  match file with
  | 0 => if i < 32 then some (c.gDst i) else none
  | 1 => if i < 16 then some (c.cDst i) else none
  | _ => if i < 16 then some (.h i) else none

/-- A write of DBG_CSEL; GO reads or writes the register of a halted core through DBG_CDATA. -/
def State.cselWrite (s : State) (r : RegRow) (v : Word) : State :=
  let s := s.plainWrite false R.DBG_CSEL r v
  let k := coreOf (getF v F.DBG_CSEL_CORE)
  let file := getF v F.DBG_CSEL_FILE
  let i := getF v F.DBG_CSEL_INDEX
  if getF v F.DBG_CSEL_GO = 0 ∨ s.dbgLevel < 2 ∨ !s.coreHalted k then s
  else
    let data : BitVec 128 := s.reg (R.DBG_CDATA 1) ++ s.reg (R.DBG_CDATA 0)
    let put (s : State) (x : BitVec 128) (t : Bool) : State :=
      ((s.setReg (R.DBG_CDATA 0) (x.extractLsb' 0 64)).setReg (R.DBG_CDATA 1) (x.extractLsb' 64 64)).setReg (R.DBG_CDATA 2) (b2w t)
    let write := getF v F.DBG_CSEL_WRITE = 1
    if file = 3 then
      if write then s.dbgCsWrite k i data
      else
        let (x, t, s) := s.dbgCsRead k i
        put s x t
    else match (s.core k).dbgDst file i with
      | none => if write then s else put s 0 false
      | some d =>
        let s := s.settle k d
        if write then s.modCore k fun c => c.write d (if file = 1 then .coin ⟨data, false⟩ else .w (data.extractLsb' 0 64))
        else match (s.core k).read d with
          | .coin x => put s x.bits x.tag
          | x => put s (x.word.zeroExtend 128) false

/-! Debug access to memory and control space (R447, R449) -/

/-- R447's table: the debug level that an access to control-space key k needs. DEDUCED, log entry 65. -/
def dbgNeeds (k : Nat) (write : Bool) : Nat :=
  let u := k / 0x1000000
  let o := k % 0x1000000
  if u = 0x170 ∧ (o < 0x18 ∨ (0x100 ≤ o ∧ o < 0x130) ∨ (0x140 ≤ o ∧ o < 0x220)) then 0
  else if !write && (u == 0x150 || u == 0x160 || u == 0x170 || decide (o ≥ 0xF00000)) then 1
  else 2

/-- The address lies in a sealed range, or in a sealed purse entry (R449). -/
def State.dbgSealed (s : State) (a : Nat) : Bool :=
  ((List.range 16).any fun i =>
    let v := s.reg (R.DBG_SEAL i)
    let b := getF v F.DBG_SEAL_BASE
    getF v F.DBG_SEAL_EN == 1 && b ≤ a / 4096 && a / 4096 ≤ b + getF v F.DBG_SEAL_PAGES) ||
  (match s.localOf a with
   | some l => (s.entriesIn l 8).any s.entrySealed
   | none => false)

/-- A refusal: recorded in DBG_REFUSE, reported, and RESULT. -/
def State.dbgRefused (s : State) (a reason : Nat) : State :=
  let k := R.DBG_REFUSE
  let v := s.reg k
  let s :=
    if getF v F.DBG_REFUSE_VALID = 1 then s.setReg k (setF v F.DBG_REFUSE_OVF 1)
    else s.setReg k (setF (setF (setF v F.DBG_REFUSE_ADDR a) F.DBG_REFUSE_REASON reason) F.DBG_REFUSE_VALID 1)
  (s.errRecord ⟨0x170, 0, .corrected, false, some a, 0, false, []⟩).setRf R.DBG_MCTL F.DBG_MCTL_RESULT 1

/-- What an access of a management unit to memory or a window came to. -/
inductive Accessed where
  | read (bs : List Byte) (s : State)
  | wrote (s : State)
  /-- a bus error -/
  | failed (s : State)
  | wait (s : State)
  deriving DecidableEq, Repr

/-- An access of unit u to memory or a window: a read of n bytes, or a write of `bs`. What a lane device answers is free. -/
def State.mgmtAccess (s : State) (u a n : Nat) (bs : Option (List Byte)) : Accessed :=
  match s.target a, bs with
  | .bar pa, _ =>
    if (s.barGroup pa).isNone then .failed s
    else if bs.isSome then .wrote s else .read (natBytes n (Config.freeWord s.free).toNat) s.bumpFree
  | _, some bs =>
    match s.unitWrite u a bs with
    | .done t => .wrote t
    | .failed s => .failed s
    | .wait s => .wait s
  | _, none =>
    match s.physRead a n with
    | .ok bs _ => .read bs s
    | .wait => match s.takeReply u 0x01 (a / 64 * 64) with
      | (some _, s) => .failed s
      | (none, s) => .wait (s.fetchRemote a u false)
    | _ => .failed s

/-- The access itself, once admitted: the outcome in RESULT, data in DBG_MDATA; held while a line or a peer is waited for. -/
def State.dbgMemory (s : State) (a : Nat) (write : Bool) : CtlRes × State :=
  let res (s : State) (n : Nat) : CtlRes × State := (.ok 0, s.setRf R.DBG_MCTL F.DBG_MCTL_RESULT n)
  match s.mgmtAccess 0x170 a 8 (if write then some (natBytes 8 (s.reg R.DBG_MDATA).toNat) else none) with
  | .read bs s => res (s.setReg R.DBG_MDATA (BitVec.ofNat 64 (bytesNat bs))) 0
  | .wrote t => (.ok 0, t.signalAfter s.nextId (.debug 0))
  | .failed s => res s 2
  | .wait s => (.held, s)

/-- The guards' decision on a debug access: none where it is admitted. At level 3 the default map applies, and a read that a matching
guard refuses is admitted (R449). -/
def State.dbgGuard (s : State) (a : Nat) (write : Bool) : Option GRefusal × State :=
  let op : GOp := if write then .write else .read
  match s.guardCheck 25 0 a op (s.dbgLevel == 3) with
  | (some r, s) => (if !write && s.dbgLevel == 3 && r.reason != 1 then none else some r, s)
  | x => x

/-! The registers that start an access of their own -/

/-- A write where only DBG_MCTL does no more than its field types say. -/
def State.ctlWrite1 (s : State) (load : Bool) (init k len : Nat) (v : Word) : CtlRes × State :=
  s.ctlAccess k len fun r => match r.name with
    | .IMG_APPLY => (.ok 0, s.imgApply v)
    | .DBG_CSEL => (.ok 0, s.cselWrite r v)
    | _ => s.regWrite load init k r v

/-- A debug access to control space (R447): none where the level does not permit it. -/
def State.dbgControl (s : State) (k len : Nat) (write : Bool) (v : Word) : Option (CtlRes × State) :=
  if s.dbgLevel < dbgNeeds k write then none
  else some (if write then s.ctlWrite1 false 0x170 k len v else s.ctlRead 0x170 k len)

/-- A write of DBG_MCTL: WRITE, and with GO one access (R449): sealed, level, guards, then the access. DEDUCED, log entry 65. -/
def State.mctlWrite (s : State) (v : Word) : CtlRes × State :=
  let w := getF v F.DBG_MCTL_WRITE
  let write := w == 1
  let s := s.setRf R.DBG_MCTL F.DBG_MCTL_WRITE w
  let a := s.rf R.DBG_MADDR F.DBG_MADDR_ADDR * 8
  if getF v F.DBG_MCTL_GO = 0 then (.ok 0, s)
  else if s.dbgSealed a then (.ok 0, s.dbgRefused a 1)
  else if a ≥ 0xFF0000000000 then
    match s.dbgControl (a - 0xFF0000000000) 8 write (s.reg R.DBG_MDATA) with
    | none => (.ok 0, s.dbgRefused a 3)
    | some (.ok x, s) => (.ok 0, (if write then s else s.setReg R.DBG_MDATA x).setRf R.DBG_MCTL F.DBG_MCTL_RESULT 0)
    | some (.held, s) => (.held, s)
    | some (_, s) => (.ok 0, s.setRf R.DBG_MCTL F.DBG_MCTL_RESULT 2)
  else if s.dbgLevel < 2 then (.ok 0, s.dbgRefused a 3)
  else match s.dbgGuard a write with
    | (some r, s) => (.ok 0, (s.dbgRefused a 2).guardRefuse 25 r (if write then .write else .read) a 0)
    | (none, s) => s.dbgMemory a write

/-- A record of the image written at APPLY, its GO bits taking effect as any write of them does (R403). -/
def State.bootRec (s : State) (r : ParRec) : State :=
  s.applyBy (fun s k r v => match r.name with
    | .IMG_APPLY => (.ok 0, s.imgApply v)
    | .DBG_CSEL => (.ok 0, s.cselWrite r v)
    | .DBG_MCTL => s.mctlWrite v
    | _ => s.regWrite true 0x160 k r v) (fun _ => true) r

/-- A write of `v` to control-space key `k`, `len` bytes, by unit `init`. DEDUCED, log entry 87. -/
def State.ctlWrite (s : State) (init k len : Nat) (v : Word) : CtlRes × State :=
  if k = R.DBG_MCTL ∧ len = 8 then s.mctlWrite v else s.ctlWrite1 false init k len v

end Sys2Proof.Machine
end

