-- ==== Sys2Proof/Machine/CoreMem.lean ====
section
/-!
DEFINITION. Memory accesses of a core: the coin check and translation with their trap reports (R50–R56, R242–R245), loads,
the store buffer and its drains (R113, R253–R259), write notices (R473), atomics and instruction fetch (R100).
-/
namespace Sys2Proof.Machine

/-! Trap reports and the core monad -/

/-- What a trap reports (R194): descriptor number, CS_TINFO flags, and the registers written in addition. -/
structure TrapRep where
  num : Nat
  tinfo : Word
  cs : List (Nat × Word)
  deriving DecidableEq, Repr

/-- Why an instruction does not complete: a trap to enter, or a wait for something outside the core. -/
inductive Stop where
  | trap (t : TrapRep)
  | stall
  /-- a wait of an access that has passed its check, for a peer (R89) -/
  | await
  /-- a breakpoint or watchpoint match with HALTONBRK set (R451) -/
  | halt
  /-- trap 0x0C taken at a barrier, with the instruction as return address (R155–R157) -/
  | barrier
  deriving DecidableEq, Repr

/-- A computation of a core that may stop; the state it stops in is kept (marks, cached entries). -/
abbrev CM := EStateM Stop State

def getS : CM State := get
def getC (k : CoreId) : CM CoreState := fun s => .ok (s.core k) s
def modS (f : State → State) : CM Unit := fun s => .ok () (f s)
def modC (k : CoreId) (f : CoreState → CoreState) : CM Unit := fun s => .ok () (s.modCore k f)
def trapM {α : Type} (t : TrapRep) : CM α := throw (.trap t)
def stallM {α : Type} : CM α := throw .stall
def awaitM {α : Type} : CM α := throw .await
/-- A trap that writes nothing beyond CS_TINFO. -/
def simpleTrap (n : Nat) : TrapRep := ⟨n, 0, []⟩
def illegal {α : Type} : CM α := trapM (simpleTrap 0x00)
def privileged {α : Type} : CM α := trapM (simpleTrap 0x10)

/-- A pure state function with a result, in the core monad. -/
def liftS {α : Type} (f : State → α × State) : CM α := fun s => let (a, s') := f s; .ok a s'

def tiFlag (f : Fld) (b : Bool) : Word := if b then f.mask 64 else 0

/-- Trap 0x02 at virtual address `va` (R194). -/
def busTrap (va : Word) (flags : Word) : TrapRep := ⟨0x02, flags, [(R.CS_FADDR, va)]⟩

/-- CS_CFINFO of a coin trap (R56). -/
def cfinfo (cause kind creg size purse : Nat) : Word :=
  setF (setF (setF (setF (setF 0 F.CS_CFINFO_CAUSE cause) F.CS_CFINFO_KIND kind) F.CS_CFINFO_CREG creg) F.CS_CFINFO_SIZE size)
    F.CS_CFINFO_PURSE purse

/-- A coin trap (R56): PURSE is 0 for cause TAG, SIZE 0 for kinds without a bounds step. -/
def coinTrap (e : CoinCause) (kind creg size purse : Nat) (va flags : Word) : TrapRep :=
  ⟨e.trap, flags, [(R.CS_CFINFO, cfinfo e.code kind creg (if kind ≤ 11 then size else 0) (if e = .tag then 0 else purse)),
    (R.CS_FADDR, va)]⟩

/-! Watchpoints -/

/-- The lowest-numbered watchpoint that an access of `n` bytes at `va` matches (R451). -/
def CoreState.watchHit (c : CoreState) (va n : Nat) (rd wr : Bool) : Option Nat :=
  if c.csF R.CS_DBGCTL F.CS_DBGCTL_SKIP = 1 then none
  else (List.range 4).find? fun i =>
    let w := c.csGet (R.CS_WPC i)
    let lo := (c.csGet (R.CS_WPA i)).toNat
    getF w F.CS_WPC_EN == 1 && ((rd && getF w F.CS_WPC_LD == 1) || (wr && getF w F.CS_WPC_ST == 1)) &&
      lo % 2 ^ getF w F.CS_WPC_SIZE == 0 && va < lo + 2 ^ getF w F.CS_WPC_SIZE && lo < va + n

/-- DBG_CCTL.HALTONBRK of core k: matches halt instead of trapping (R451). -/
def State.haltOnBrk (s : State) (k : CoreId) : Bool := s.rf (R.DBG_CCTL k.val) F.DBG_CCTL_HALTONBRK == 1

/-- The report of a breakpoint (hit 1) or watchpoint (hit 2) match (R451). -/
def brkRep (c : CoreState) (hit idx : Nat) : TrapRep :=
  ⟨0x13, 0, [(R.CS_DBGCTL, setF (setF (c.csGet R.CS_DBGCTL) F.CS_DBGCTL_HIT hit) F.CS_DBGCTL_IDX idx)]⟩

/-- Watchpoints tested for an access at c.cursor + o, ahead of the access's own traps (R451, R201). DEDUCED, log entry 92. -/
def watch (k : CoreId) (cb : Coin) (o : Int) (n : Nat) (rd wr : Bool) : CM Unit := fun s =>
  let c := s.core k
  match c.watchHit (ofInt 64 (checkAddr cb o)).toNat n rd wr with
  | none => .ok () s
  | some i =>
    let r := brkRep c 2 i
    if s.haltOnBrk k then .error .halt (s.modCore k fun c => r.cs.foldl (fun c w => c.csSet w.1 w.2) c)
    else .error (.trap r) s

/-- The coin trap of a check by register `creg`, or by a coin in no c register (`creg` = 16: a fetch, a save list), whose CREG
the manual does not state; a SIZE above 255 does not fit its field. Both are free values then. DEDUCED, log entry 24. -/
def checkTrap (s : State) (e : CoinCause) (kind creg size purse : Nat) (va flags : Word) : TrapRep :=
  coinTrap e kind (if creg ≥ 16 then Config.freeNat s.free % 16 else creg)
    (if size > 255 then Config.freeNat (s.free + 1) % 256 else size) purse va flags

/-- check(c, o, s, kind, v) of R50 by core k; the result is the address and the entry it was checked against. `flags` go into
CS_TINFO (FETCH). `extra` is what an instruction checks beyond R50, which takes the row of its trap (R52). An access that awaits a peer is
not checked again (R89). DEDUCED, log entry 15. -/
def coinCheckN (need : BitVec 12) (k : CoreId) (creg : Nat) (c : Coin) (o : Int) (size kind : Nat) (v : Option Coin) (flags : Word := 0)
    (extra : Purse → Option CoinCause := fun _ => none) : CM (Nat × Purse) :=
  fun s =>
    let core := s.core k
    let a := checkAddr c o
    let va := ofInt 64 a
    let bad (e : CoinCause) (s : State) : EStateM.Result Stop State (Nat × Purse) :=
      .error (.trap (checkTrap s e kind creg size c.purse va flags)) s.bumpFree.bumpFree
    if core.flight.isSome then .ok (a.toNat, match s.purseRead c.purse with | .ok p => p | _ => ⟨0, 0, 0, 0⟩) s
    else match checkBefore s.ptbCount c with
    | some e => bad e s
    | none =>
      match s.purseCached k c.purse with
      | (.ok p, s) =>
        match firstCause (checkEntryN need p c a size kind v core.ring core.asid) (extra p) with
        | some e => bad e s
        | none => .ok (a.toNat, p) s
      | (.poison, s) => .error (.trap (busTrap va (flags ||| tiFlag F.CS_TINFO_PURSE true ||| tiFlag F.CS_TINFO_POISON true))) s
      | (.notarget, s) => .error (.trap (busTrap va (flags ||| tiFlag F.CS_TINFO_PURSE true ||| tiFlag F.CS_TINFO_NOTARGET true))) s

def coinCheckP (k : CoreId) (creg : Nat) (c : Coin) (o : Int) (size kind : Nat) (v : Option Coin) (flags : Word := 0)
    (extra : Purse → Option CoinCause := fun _ => none) : CM (Nat × Purse) := coinCheckN (neededRights kind) k creg c o size kind v flags extra

/-- The row of R52's table of a trap of a coin check; a failed read of the entry ranks directly after INDEX. -/
def TrapRep.row (t : TrapRep) : Nat := if t.num = 0x02 then 11 else 2 * (t.num + 1)

/-- Two checks of one instruction: the trap whose row of R52 comes first, the first check's where both have the same. -/
def bothChecks {α β : Type} (m : CM α) (n : CM β) : CM (α × β) := fun s =>
  match m s with
  | .ok a s' => match n s' with
    | .ok b s'' => .ok (a, b) s''
    | .error e s'' => .error e s''
  | .error (.trap t) s' => match n s' with
    | .error (.trap u) s'' => if u.row < t.row then .error (.trap u) s'' else .error (.trap t) s''
    | .ok _ s'' => .error (.trap t) s''
    | .error e s'' => .error e s''
  | .error e s' => .error e s'

/-- The address alone. DEDUCED, log entry 92. -/
def coinCheck (k : CoreId) (creg : Nat) (c : Coin) (o : Int) (size kind : Nat) (v : Option Coin) (flags : Word := 0) : CM Nat := do
  let r ← coinCheckP k creg c o size kind v flags
  pure r.1

/-- The translation context of core k, for the leaf checks of `ring`. -/
def CoreState.xctx (c : CoreState) (k : CoreId) (ring : Nat) : XCtx :=
  ⟨c.csF R.CS_PTMODE F.CS_PTMODE_MODE, c.csF R.CS_PTMODE F.CS_PTMODE_ROOT * 4096, c.asid, ring, c.tlb, c.walk, k.val⟩

/-- The report of a translation fault (R245). -/
def xTrap (f : XFault) (kind asid : Nat) (va flags : Word) : TrapRep :=
  ⟨f.cause.trap, flags,
    [(R.CS_FADDR, va),
     (R.CS_XINFO, setF (setF (setF (setF (setF 0 F.CS_XINFO_CAUSE f.cause.code) F.CS_XINFO_LEVEL f.level) F.CS_XINFO_TLB (b2n f.tlb))
        F.CS_XINFO_KIND kind) F.CS_XINFO_ASID asid),
     (R.CS_XPTE, f.pte),
     (R.CS_XPTEA, match f.ea with | some ea => setF (setF 0 F.CS_XPTEA_ADDR (ea / 8)) F.CS_XPTEA_VALID 1 | none => 0)]⟩

/-- What core k has cached of translations after one: its TLBs hold 64 and 3,072 leaves, its walk cache 32 entries (R247). -/
def CoreState.setXlate (c : CoreState) (free : Nat) (x : XCtx) : CoreState := { c with tlb := capTo 3136 free x.tlb, walk := capTo 32 free x.walk }

/-! The store buffer -/

/-- The unit that reports a failed write of local address `a`: its home slice (R473). For a range that R34 gives no unit, the home slice
of the address modulo 2^44: DESIGN CHOICE, log entry 105. -/
def State.homeUnit (s : State) (a : Nat) : Nat := 0x100 + s.home (a % 0x100000000000)

/-- The peer port that reports a failed write to the window of socket `so`: the port configured for it, whatever its state (R473).
Where no port is configured for it, port 0. DESIGN CHOICE, log entry 105. -/
def State.portFor (s : State) (so : Nat) : Nat :=
  0x130 + ((s.portOf so).getD (((List.range 7).find? fun p => s.rf (R.PEER_CFG (0x130 + p)) F.PEER_CFG_SOCKET == so &&
    s.rf (R.PEER_CFG (0x130 + p)) F.PEER_CFG_EN == 1).getD 0))

/-- What the performance of a store came to. -/
inductive Stored where
  /-- performed, or refused and reported -/
  | done (s : State)
  /-- sent on its way: it stays in the store buffer until what it waits for (R66, R253) -/
  | sent (w : SbWait) (s : State)
  /-- it cannot be performed now -/
  | held (s : State)
  deriving DecidableEq, Repr

def Stored.state : Stored → State
  | .done s => s
  | .sent _ s => s
  | .held s => s

/-- The tags of a held line of a peer after store `e` of n bytes. -/
def SbEntry.lineTags (e : SbEntry) (t : BitVec 4) (n : Nat) : BitVec 4 :=
  match e.kind with
  | .coin x => setF t ⟨e.pa % 64 / 16, e.pa % 64 / 16⟩ (b2n x)
  | _ => (granules (e.pa % 64) n).foldl (fun (t : BitVec 4) g => setF t ⟨g / 16, g / 16⟩ 0) t

/-- Store `e` of core k, not sent yet, at its target (R253, R473). A coin store into the purse table sets its tag like any other,
where R57 names it both a coin store and a software write to the purse table: DESIGN CHOICE, log entry 100.
DEDUCED, log entry 87. DEDUCED, log entry 93. -/
def State.performStore (s : State) (k : CoreId) (e : SbEntry) : Stored :=
  let n := e.bytes.length
  let s := if e.release || e.kind == .markLS then s.sampleAll k else s.sampleOverlapping k e.pa n
  match e.kind with
  | .markSS | .markLS => if s.blocked then .held s else .done s
  | _ =>
    let cached := e.mt != .uncached && e.mt != .device
    if s.blocked then .held s
    else match s.target e.pa with
    | .local a _ _ =>
      if s.writeHeld a n then .held s else
      let tr : TagRule := match e.kind with | .coin t => .set t | _ => .clear
      let r := s.localWrite a e.bytes tr cached (some k.val)
      let t := if r.refused then r.s.refuse k ⟨e.pa, s.homeUnit a, false, false⟩ else if cached then r.s.enterL2 k a n true else r.s
      if t.purseWrs.any (·.id == s.nextId) then .sent (.purse s.nextId) t else .done t
    | .window so _ =>
      match s.portVia so e.pa with
      | none => .done (s.refuse k ⟨e.pa, s.portFor so, false, true⟩)
      | some p =>
        let own := match s.rlineAt e.pa with | some l => l.excl && cached | none => false
        if own then .done ((s.setRLine e.pa e.bytes (e.lineTags (((s.rlineAt e.pa).map (·.tags)).getD 0) n)).joinL2 k e.pa true)
        -- the line is on its way here: the store waits for it (R253)
        else if s.peerTx.any (fun t => t.pa / 64 == e.pa / 64 && (t.op == 1 || t.op == 2) && t.reply.isNone) then .held s
        else
          let tx := s.nextId % 65536
          let s := s.dropRLine e.pa false
          .sent (.peer tx) (s.request p (match e.kind with | .coin _ => 0x09 | _ => if n = 64 then 0x04 else 0x05) e.pa k.val
            (e.pa % 64 + n % 128 * 64) e.bytes (match e.kind with | .coin t => BitVec.ofNat 4 (b2n t) | _ => 0) false)
    | .bar pa =>
      match s.barGroup pa with
      | some _ => .done s
      | none => .done (s.refuse k ⟨e.pa, 0x120 + (pa - 0x900000000000) / 0x60000000000, false, true⟩)
    | .control key =>
      match s.ctlWrite k.val key n (BitVec.ofNat 64 (bytesNat e.bytes)) with
      | (.ok _, s') => .done s'
      | (.held, s') => .held s'
      | (.access, s') => .done (s'.refuse k ⟨e.pa, key / 0x1000000, true, false⟩)
      | (.notarget, s') => .done (s'.refuse k ⟨e.pa, key / 0x1000000, false, true⟩)
    | .none => .done (s.refuse k ⟨e.pa, s.homeUnit e.pa, false, true⟩)

/-- Of two buffered stores, the older has to be performed before the younger: they overlap, a marker or a release stands between them,
the older is a control-space store, or both are DEVICE (R27, R254, R255, R256). DEDUCED, log entry 88. -/
def State.mustPrecede (s : State) (o e : SbEntry) : Bool :=
  e.kind != .markLS && (o.kind == .markSS || o.kind == .markLS || e.kind == .markSS || e.release || o.pa ≥ 0xFF0000000000 ||
    (o.mt == .device && e.mt == .device) || s.sharesByte o.pa o.bytes.length e.pa e.bytes.length)

/-- Entry i of a store buffer may leave before the entries ahead of it. -/
def State.sbMayLeave (s : State) (sb : List SbEntry) (i : Nat) : Bool :=
  match sb[i]? with
  | none => false
  | some e => (sb.take i).all fun o => !s.mustPrecede o e

/-- A MINT's purse write holds core k's later stores (R83). DEDUCED, log entry 88. -/
def State.storesHeld (s : State) (k : CoreId) : Bool := s.purseWrs.any fun w => w.core == some k.val && w.hold

/-- Entry e may be merged into one write of the line at local address l (R240, R282). -/
def State.mergeable (s : State) (l : Nat) (e : SbEntry) : Bool :=
  s.localOf e.pa == some (s.canon e.pa) && s.canon e.pa / 64 * 64 == l && e.bytes != [] && e.mt != .uncached && e.mt != .device &&
    !e.release && e.wait == .none && e.kind != .markSS && e.kind != .markLS

/-- The buffered stores that entry i of core k can be merged with into a write of its whole line, oldest first: each may pass the stores
left behind. Empty where there is no such merge. A purse-table line never merges: R47 decides there. -/
def State.mergeSet (s : State) (k : CoreId) (i : Nat) : List Nat :=
  let sb := (s.core k).sb
  match sb[i]? with
  | none => []
  | some e =>
    let l := s.canon e.pa / 64 * 64
    let js := (List.range sb.length).filter fun j => match sb[j]? with | some x => s.mergeable l x | none => false
    let free (j : Nat) : Bool := match sb[j]? with
      | some x => (List.range j).all fun m => js.contains m || (match sb[m]? with | some o => !s.mustPrecede o x | none => true)
      | none => false
    let covers (b : Nat) : Bool := js.any fun j => match sb[j]? with
      | some x => s.canon x.pa ≤ b && b < s.canon x.pa + x.bytes.length
      | none => false
    if js.contains i && js.all free && (List.range 64).all (fun t => covers (l + t)) && (s.entriesIn l 64).isEmpty && !s.writeHeld l 64 then js
    else []

/-- The stores of a merge performed as one write: the poison of the line goes (R282). -/
def State.mergeWrite (s : State) (k : CoreId) (js : List Nat) (l : Nat) : State :=
  let es := js.filterMap fun j => (s.core k).sb[j]?
  let s := es.foldl (fun s e => (s.performStore k e).state) s
  (s.modCore k fun c => { c with sb := js.foldr (fun j sb => sbErase sb j) c.sb }).setPoison l false

/-- Entry i of core k's store buffer drains, if it may. Onto a poisoned line it goes alone or, where the buffer holds the whole line,
merged with the others: a free choice (R282). DEDUCED, log entry 119. It stays where its target line is held (R263, R305), its unit does not
acknowledge the write yet (R27), or what it was sent to has not answered (R66, R253). `send`: a store to a peer may be sent now. -/
def State.drainEntry (s : State) (k : CoreId) (i : Nat) (send : Bool) : State :=
  let c := s.core k
  match c.sb[i]? with
  | none => s
  | some e =>
    if e.wait != .none then s.block
    else if !s.sbMayLeave c.sb i then s
    else if s.storesHeld k then s.block
    else
      let js := if s.poisoned (s.canon e.pa) then s.mergeSet k i else []
      if js != [] && !s.blocked && Config.freeBool s.free then
        let t := s.bumpFree.mergeWrite k js (s.canon e.pa / 64 * 64)
        if t.blocked then s.block else t
      else match (if js != [] then s.bumpFree else s).performStore k e with
      | .done s' => s'.modCore k fun c => { c with sb := sbErase c.sb i }
      | .sent w s' =>
        if send || (match w with | .purse _ => true | _ => false) then
          s'.modCore k fun c => { c with sb := c.sb.modify i fun e => { e with wait := w } }
        else s.block
      | .held s' => if e.pa ≥ 0xFF0000000000 then s'.block else s.block

/-- Entry i drains as an event of the memory pipeline. -/
def State.drain (s : State) (k : CoreId) (i : Nat) : State := s.drainEntry k i true

/-- Entry i performed: a purse write it starts, or has started, is carried to its completion (R66); a peer's answer is waited for. -/
def State.drainNow (s : State) (k : CoreId) (i : Nat) : State :=
  match (s.core k).sb[i]? with
  | none => s
  | some e => match e.wait with
    | .purse id => s.finishPurseWr id
    | _ => (s.drainEntry k i false).finishSince s.nextId

/-- The oldest entries of core k's store buffer drained, `n` of them, purse writes completed in between. -/
def State.drainFirst (s : State) (k : CoreId) : Nat → State
  | 0 => s
  | n + 1 => ((s.finishCorePurseWrs k.val).drainNow k 0).drainFirst k n

/-- Core k's store buffer drained to the last entry. -/
def State.drainAll (s : State) (k : CoreId) : State := s.drainFirst k (s.core k).sb.length

/-- The entries of a store buffer, youngest first, that have to be performed for those that satisfy `p`: themselves and the older
ones they may not pass (R259). `need` holds the younger ones found. The result is oldest first. -/
def State.sbNeeded (s : State) (p : SbEntry → Bool) : List SbEntry → List SbEntry → List Bool → List Bool
  | [], _, acc => acc
  | e :: r, need, acc =>
    let b := p e || need.any fun y => s.mustPrecede e y
    s.sbNeeded p r (if b then e :: need else need) (b :: acc)

/-- The entries marked drained in order; `i` is the index of the next one. -/
def State.drainMarked (s : State) (k : CoreId) : Nat → List Bool → State
  | _, [] => s
  | i, false :: r => s.drainMarked k (i + 1) r
  | i, true :: r =>
    let s' := s.drainNow k i
    s'.drainMarked k (if (s'.core k).sb.length < (s.core k).sb.length then i else i + 1) r

/-- Core k's buffered stores that satisfy `p` performed, and no others but those that have to precede them (R259).
DESIGN CHOICE, log entry 9. -/
def State.drainWhile (s : State) (k : CoreId) (p : SbEntry → Bool) : State :=
  if (s.core k).sb.any p then
    let s := s.finishCorePurseWrs k.val
    s.drainMarked k 0 (s.sbNeeded p (s.core k).sb.reverse [] [])
  else s

/-! Translation -/

/-- What the walk of a store waits for, as the store itself does (R246): the fences before it and control-space stores. Without a walk the
store waits in the store buffer. DESIGN CHOICE, log entry 9. -/
def State.storeOrder (s : State) (k : CoreId) : State :=
  if (s.core k).csF R.CS_PTMODE F.CS_PTMODE_MODE = 0 then s
  else s.drainWhile k fun e => e.kind == .markSS || e.kind == .markLS || e.pa ≥ 0xFF0000000000

/-- What the walk of a release waits for: every earlier access performed (R246, R256). -/
def State.releaseOrder (s : State) (k : CoreId) (release : Bool) : State :=
  if release && (s.core k).csF R.CS_PTMODE F.CS_PTMODE_MODE != 0 then (s.drainAll k).sampleAll k else s

/-- Core k translates one part of an access, a write after what its walk waits for (R242, R246). DEDUCED, log entry 92. -/
def xlate (k : CoreId) (va : Nat) (a : XAcc) (ring : Nat) (flags : Word) : CM (Nat × MType) := fun s =>
  let s := if a.writes then s.storeOrder k else s
  let c := s.core k
  let o := s.translate (c.xctx k ring) va a false
  let s' := o.s.modCore k fun c => c.setXlate o.s.free o.ctx
  let vaw : Word := BitVec.ofNat 64 va
  match o.res with
  | .ok pa mt => .ok (pa, mt) s'
  | .fault f => .error (.trap (xTrap f a.kind c.asid vaw flags)) s'
  | .bus ea poison =>
    .error (.trap ⟨0x02, flags ||| tiFlag F.CS_TINFO_WALK true ||| tiFlag F.CS_TINFO_POISON poison |||
      tiFlag F.CS_TINFO_NOTARGET (!poison),
      [(R.CS_FADDR, vaw), (R.CS_XPTEA, setF (setF 0 F.CS_XPTEA_ADDR (ea / 8)) F.CS_XPTEA_VALID 1)]⟩) s'
  | .wait => .error .stall s'

/-- The halves of an access at the line boundary it crosses (R113). -/
def splitVa (va n : Nat) : List (Nat × Nat) :=
  let room := 64 - va % 64
  if n ≤ room then [(va, n)] else [(va, room), (va + room, n - room)]

/-- Every half translated, in address order; HALF2 marks a fault on the second (R113, R211). -/
def xlateAll (k : CoreId) (a : XAcc) (ring : Nat) : List (Nat × Nat) → Bool → CM (List Half)
  | [], _ => pure []
  | (va, n) :: r, second => do
    let (pa, mt) ← xlate k va a ring (tiFlag F.CS_TINFO_HALF2 second)
    let rest ← xlateAll k a ring r true
    pure (⟨pa, n, mt⟩ :: rest)

/-! Loads -/

/-- The fences a later load waits for (R255). -/
def State.afterFences (s : State) (k : CoreId) : State :=
  let c := s.core k
  let s := if c.fenceLL then s.sampleAll k else s
  let s := if c.fenceSL then s.drainAll k else s
  s.modCore k fun c => { c with fenceLL := false, fenceSL := false }

/-- What a later load waits for: fences, and control-space stores, which are performed before any later access (R27, R254). -/
def State.loadFences (s : State) (k : CoreId) : State := (s.afterFences k).drainWhile k fun e => e.pa ≥ 0xFF0000000000

/-- What an access waits for before it, its walk included (R246): the fences; for an acquire, earlier releases; for a release, every
earlier access (R255, R256). -/
def State.orderBefore (s : State) (k : CoreId) (acquire : Bool) : State :=
  let s := s.loadFences k
  if acquire then s.drainWhile k (·.release) else s

/-- Every earlier access of core k performed: what a release and FENCE.ALL wait for (R255, R256). DESIGN CHOICE, log entry 9. -/
def State.performAll (s : State) (k : CoreId) : State :=
  ((s.drainAll k).finishCorePurseWrs k.val).returnAll k

/-- The access has its answer from the peer: what follows it is checked as usual (R89). -/
def landed (k : CoreId) : CM Unit := modC k fun c => { c with flight := none }

/-- A request of core k to a peer, made once; the instruction waits for its reply. Nothing is sent while the instruction waits for an
earlier access (R253–R256, R259). DEDUCED, log entry 8. -/
def askPeer (k : CoreId) (port op pa arg : Nat) (data : List Byte) (tags : BitVec 4) : CM PeerReply := fun s =>
  if s.blocked then .error .stall s
  else match s.takeReply k.val op pa with
  | (some r, s) => .ok r (s.modCore k fun c => { c with flight := none })
  | (none, s) =>
    if s.peerTx.any (fun t => t.src == k.val && t.op == op && t.pa == pa) then .error .await s
    else .error .await ((s.returnRLine pa).request port op pa k.val arg data tags false)

/-- The bytes of one half read now, or how the read stops (R52 row 11, R241, R376). -/
def readHalf (k : CoreId) (va : Nat) (h : Half) (coin : Bool) (flags : Word) : CM (List Byte × Bool) := do
  let s ← getS
  let vaw : Word := BitVec.ofNat 64 va
  let bus (f : Fld) : CM (List Byte × Bool) := trapM (busTrap vaw (flags ||| tiFlag f true))
  match s.target h.pa with
  | .local a _ _ =>
    if s.readHeld a h.len then stallM
    else if s.poisoned a then bus F.CS_TINFO_POISON else pure (s.readBytes a h.len, s.tagAt a)
  | .window so _ =>
    match s.portVia so h.pa with
    | none => bus F.CS_TINFO_NOTARGET
    | some p =>
      if coin then
        match ← askPeer k p 0x08 h.pa 0 [] 0 with
        | .data bs t po => if po then bus F.CS_TINFO_POISON else pure (padTo 16 bs, bitB t 0)
        | .done _ => bus F.CS_TINFO_NOTARGET
      else if h.mt = .uncached ∨ h.mt = .device then
        match ← askPeer k p 0x03 h.pa (h.pa % 64 + h.len % 128 * 64) [] 0 with
        | .data bs _ po => if po then bus F.CS_TINFO_POISON else pure (padTo h.len bs, false)
        | .done _ => bus F.CS_TINFO_NOTARGET
      else
        match s.rlineAt h.pa with
        | some l => do
          landed k
          if l.poison then bus F.CS_TINFO_POISON else pure ((l.data.drop (h.pa % 64)).take h.len, bitB l.tags (h.pa % 64 / 16))
        | none =>
          match s.takeReply k.val 0x01 (h.pa / 64 * 64) with
          | (some _, s') => do set s'; bus F.CS_TINFO_NOTARGET
          | (none, s') => do set (s'.fetchRemote h.pa k.val false); awaitM
  | .bar pa =>
    match s.barGroup pa with
    | none => bus F.CS_TINFO_NOTARGET
    | some _ => do
      modS State.bumpFree
      pure (natBytes h.len (Config.freeWord s.free).toNat, false)
  | .control key =>
    match s.ctlRead k.val key h.len with
    | (.ok v, s') => do set s'; pure (natBytes h.len v.toNat, false)
    | (.held, _) => stallM
    | (.access, s') => do set s'; bus F.CS_TINFO_ACCESS
    | (.notarget, s') => do set s'; bus F.CS_TINFO_NOTARGET
  | .none => bus F.CS_TINFO_NOTARGET

def readHalves (k : CoreId) (coin : Bool) : List (Nat × Half) → Bool → CM (List Byte × Bool)
  | [], _ => pure ([], true)
  | (va, h) :: r, second => do
    let (bs, t) ← readHalf k va h coin (tiFlag F.CS_TINFO_HALF2 second)
    let (bs', t') ← readHalves k coin r true
    pure (bs ++ bs', t && t')

/-- The youngest store that core k holds in its buffer for the bytes of half h, if it holds all of them and may be forwarded (R259). -/
def SbEntry.covers (e : SbEntry) (so : State) (h : Half) (coin : Bool) : Bool :=
  so.canon e.pa ≤ so.canon h.pa && so.canon h.pa + h.len ≤ so.canon e.pa + e.bytes.length && h.mt != .uncached && h.mt != .device &&
    (match e.kind with | .coin _ => true | _ => !coin)

/-- What half h takes from entry e. -/
def SbEntry.forward (e : SbEntry) (s : State) (h : Half) : List Byte × Bool :=
  ((e.bytes.drop (s.canon h.pa - s.canon e.pa)).take h.len, match e.kind with | .coin t => t | _ => false)

/-- Each half's bytes forwarded from the one buffered store that holds the load, the halves of a split store being one; or the wait for
every overlapping store. A load inside more than one buffered store waits, where R259's two sentences disagree:
DESIGN CHOICE, log entry 101. -/
def forwardOrDrain (k : CoreId) (hs : List Half) (coin : Bool) : CM (List LoadPart) := fun s =>
  let sb := (s.core k).sb
  let hit (e : SbEntry) : Bool := hs.any fun h => s.sharesByte e.pa e.bytes.length h.pa h.len
  let plain := hs.map fun h => LoadPart.mk h none
  match sb.filter hit, hs with
  | [], _ => .ok plain s
  | [e], [h] => if e.covers s h coin then .ok [⟨h, some (e.forward s h)⟩] s else .ok plain (s.drainWhile k hit)
  | [e, f], [h, g] =>
    if f.half2 && e.covers s h coin && f.covers s g coin then .ok [⟨h, some (e.forward s h)⟩, ⟨g, some (f.forward s g)⟩] s
    else if f.half2 && e.covers s h coin && !overlaps e.pa e.bytes.length g.pa g.len && (g.mt == .uncached || g.mt == .device) then
      -- a NORMAL half may forward while the UNCACHED half goes to its target (R113)
      .ok [⟨h, some (e.forward s h)⟩, ⟨g, none⟩] (s.drainWhile k fun x => s.sharesByte x.pa x.bytes.length g.pa g.len)
    else if f.half2 && f.covers s g coin && (h.mt == .uncached || h.mt == .device) then
      .ok [⟨h, none⟩, ⟨g, some (f.forward s g)⟩] (s.drainWhile k fun x => s.sharesByte x.pa x.bytes.length h.pa h.len)
    else .ok plain (s.drainWhile k hit)
  | _, _ => .ok plain (s.drainWhile k hit)

/-- Each half not forwarded read now, so that its bus error is raised at the load (R473); a half in local memory that is not DEVICE is
performed later (R115). -/
def loadParts (k : CoreId) (coin : Bool) : List (Nat × LoadPart) → Bool → CM (List LoadPart)
  | [], _ => pure []
  | (va, p) :: r, second => do
    let q ← if p.got.isSome then pure p else do
      let d ← readHalf k va p.half coin (tiFlag F.CS_TINFO_HALF2 second)
      let s ← getS
      pure (match s.target p.half.pa with
        | .local .. => if p.half.mt = .device then { p with got := some d } else p
        | _ => { p with got := some d })
    let rest ← loadParts k coin r true
    pure (q :: rest)

/-- The lines that core k reads of half h enter its L2, UNCACHED and DEVICE ones apart (R240, R280). -/
def State.fetchL2 (s : State) (k : CoreId) (h : Half) : State :=
  if h.mt = .uncached ∨ h.mt = .device then s
  else match s.localOf h.pa with
    | some a => s.enterL2 k a h.len false
    | none => if (s.rlineAt h.pa).isSome then s.joinL2 k h.pa false else s

/-- A checked and translated load becomes outstanding until its data arrives. DEVICE accesses, and those a peer or a device
answers, are performed at once (R241). DEDUCED, log entry 89. -/
def startLoad (k : CoreId) (parts : List (Nat × Nat)) (hs : List Half) (coin : Bool) (lk : LoadKind) (dst : Dst) (acquire : Bool) :
    CM Unit := do
  let now := hs.any fun h => h.mt == .device
  if now then modS fun s => s.drainWhile k fun e => e.mt == .device
  let ps ← forwardOrDrain k hs coin
  let qs ← loadParts k coin ((parts.map (·.1)).zip ps) false
  modS fun s => hs.foldl (fun s h => s.fetchL2 k h) s
  modC k fun c => { c with loads := c.loads ++ [⟨dst, qs, lk⟩] }
  if acquire || now then modS fun s => s.returnAll k

/-- A data or coin load issues (R111–R113). -/
def issueLoad (k : CoreId) (creg : Nat) (cb : Coin) (o : Int) (size kind : Nat) (lk : LoadKind) (dst : Dst) (acquire : Bool) : CM Unit := do
  let va ← coinCheck k creg cb o size kind none
  modS fun s => s.orderBefore k acquire
  let c ← getC k
  let parts := splitVa va size
  let hs ← xlateAll k (xKind kind (va % size != 0)) c.ring parts false
  startLoad k parts hs (kind == 4) lk dst acquire

/-- A store checked and both halves translated, nothing written (R113). -/
def storeHalves (k : CoreId) (creg : Nat) (cb : Coin) (o : Int) (size kind : Nat) (v : Option Coin) (release : Bool) : CM (List Half) := do
  let va ← coinCheck k creg cb o size kind v
  modS fun s => s.releaseOrder k release
  let c ← getC k
  xlateAll k (xKind kind (va % size != 0)) c.ring (splitVa va size) false

/-- The halves of a store entered in the store buffer (R113, R259). -/
def bufferStore (k : CoreId) (hs : List Half) (sk : SbKind) (bs : List Byte) (release : Bool) : CM Unit :=
  modC k fun c =>
    { c with sb := c.sb ++ (hs.foldl (fun (acc : List SbEntry × List Byte) h =>
        (acc.1 ++ [⟨sk, h.pa, acc.2.take h.len, h.mt, release, !acc.1.isEmpty, .none⟩], acc.2.drop h.len)) ([], bs)).1 }

/-- What a write performed at once must follow: overlapping stores, store fences and releases (R253, R255, R256). -/
def SbEntry.before (e : SbEntry) (s : State) (h : Half) : Bool :=
  s.sharesByte e.pa e.bytes.length h.pa h.len || e.kind == .markSS || e.kind == .markLS || e.release || e.pa ≥ 0xFF0000000000

/-- A write by core k at a translated address, performed at once: the write of an atomic (R257). Its purse write is carried to its
completion (R66). -/
def writeNow (k : CoreId) (h : Half) (sk : SbKind) (bs : List Byte) : CM Unit :=
  modS fun s =>
    let s := s.drainWhile k (·.before s h)
    let s := s.blockIf (s.storesHeld k)
    match s.performStore k (SbEntry.of sk h.pa bs h.mt false) with
    | .done t => t
    | .sent (.purse _) t => t.finishSince s.nextId
    | r => r.state.block

/-- A read by core k at a translated address, performed at once after the core's earlier overlapping stores and loads. -/
def readNow (k : CoreId) (va : Nat) (h : Half) (coin : Bool) (flags : Word) : CM (List Byte × Bool) := do
  modS fun s => (s.drainWhile k fun e => s.sharesByte e.pa e.bytes.length h.pa h.len).sampleOverlapping k h.pa h.len
  let d ← readHalf k va h coin flags
  modS fun s => s.fetchL2 k h
  pure d

end Sys2Proof.Machine
end

