-- ==== Sys2Proof/Machine/Trap.lean ====
section
/-!
DEFINITION. Return stacks and frames (R118, R189), taking a trap or interrupt (R191–R201, R207–R210) with its vector step
(R179), and the events due at an instruction boundary (R201).
-/
namespace Sys2Proof.Machine

/-! Return stacks -/

/-- A return-stack or save-area fault (R118, R127). -/
def stackFault (cause ring : Nat) (save : Bool) : TrapRep :=
  ⟨if save then 0x0E else 0x0D, 0,
    [(R.CS_STKINFO, setF (setF (setF 0 F.CS_STKINFO_CAUSE cause) F.CS_STKINFO_STKRING ring) F.CS_STKINFO_SAVE (b2n save))]⟩

/-- rscheck(r, a) of R118 for the return stack of `ring`. -/
def rscheck (k : CoreId) (ring : Nat) (r : Coin) (a : Int) : CM Nat := fun s =>
  let bad (n : Nat) : EStateM.Result Stop State Nat := .error (.trap (stackFault n ring false)) s
  if (s.core k).flight.isSome then .ok a.toNat s
  else if !r.tag then bad 3
  else if a % 16 ≠ 0 then bad 12
  else if r.purse ≥ s.ptbCount then bad 11
  else
    let va := ofInt 64 a
    match s.purseCached k r.purse with
    | (.poison, s) => .error (.trap (busTrap va (tiFlag F.CS_TINFO_PURSE true ||| tiFlag F.CS_TINFO_POISON true))) s
    | (.notarget, s) => .error (.trap (busTrap va (tiFlag F.CS_TINFO_PURSE true ||| tiFlag F.CS_TINFO_NOTARGET true))) s
    | (.ok p, s) =>
      let bad (n : Nat) : EStateM.Result Stop State Nat := .error (.trap (stackFault n ring false)) s
      let asid := (s.core k).asid
      if r.issue ≠ p.issue then bad 4
      else if p.malformed ∨ p.state ≠ 1 ∨ (p.owner ≠ 0 ∧ p.owner ≠ asid) then bad 5
      else if p.type ≠ 4 ∨ !p.rstk then bad 6
      else if ring > p.floor then bad 7
      else if a < p.base then bad 1
      else if a + 16 > p.base + p.length then bad 2
      else .ok a.toNat s

/-- A granule on a return stack translated for writing or reading, its line readable (R118, R207). DEDUCED, log entry 97. -/
def stackHalf (k : CoreId) (ring va : Nat) (write : Bool) : CM Half := do
  let (pa, mt) ← xlate k va (xRetstack write) ring 0
  let s ← getS
  let vaw : Word := BitVec.ofNat 64 va
  match s.target pa with
  | .local a _ _ => if s.poisoned a then trapM (busTrap vaw (tiFlag F.CS_TINFO_POISON true)) else pure ⟨pa, 16, mt⟩
  | .window so _ =>
    if (s.portVia so pa).isNone then trapM (busTrap vaw (tiFlag F.CS_TINFO_NOTARGET true))
    else if (match s.rlineAt pa with | some l => l.poison | none => false) then trapM (busTrap vaw (tiFlag F.CS_TINFO_POISON true))
    else pure ⟨pa, 16, mt⟩
  | _ => trapM (busTrap vaw (tiFlag F.CS_TINFO_NOTARGET true))

def coinBytes (c : Coin) : List Byte := natBytes 16 c.bits.toNat

/-- A granule entered in the store buffer. -/
def pushSb (k : CoreId) (h : Half) (x : Coin) : CM Unit :=
  modC k fun c => { c with sb := c.sb ++ [SbEntry.of (.coin x.tag) h.pa (coinBytes x) h.mt false] }

/-- A coin with R93 applied, as it is moved between memory and a register. DEDUCED, log entry 34. -/
def retireM (k : CoreId) (x : Coin) : CM Coin := liftS fun s => s.retire k x

/-- push(x) of R118 onto the stack of the current ring. -/
def push1 (k : CoreId) (x : Coin) : CM Unit := do
  let c ← getC k
  let r := c.ccGet (R.CS_RSTK c.ring)
  let a ← rscheck k c.ring r (checkAddr r (-16))
  let h ← stackHalf k c.ring a true
  let x ← retireM k x
  pushSb k h x
  modC k fun c => c.ccSet (R.CS_RSTK c.ring) (r.withCursor (BitVec.ofNat 64 a))

/-- pop() of R118 from the stack of the current ring, without the cursor's change: the entry and the stack coin after it. -/
def pop1 (k : CoreId) : CM (Coin × Coin) := do
  let c ← getC k
  let r := c.ccGet (R.CS_RSTK c.ring)
  let a ← rscheck k c.ring r (checkAddr r 0)
  modS fun s => s.orderBefore k false
  let h ← stackHalf k c.ring a false
  let (bs, t) ← readNow k a h true 0
  let x ← retireM k ⟨BitVec.ofNat 128 (bytesNat bs), t⟩
  pure (x, r.withCursor (BitVec.ofNat 64 (a + 16)))

/-- A status granule (R189). -/
def statusGranule (status : Word) (num : Nat) (g int : Bool) : Coin :=
  ⟨BitVec.ofNat 128 (2 ^ 127 + b2n int * 2 ^ 71 + b2n g * 2 ^ 70 + num % 64 * 2 ^ 64) ||| status.zeroExtend 128, false⟩

/-- push2(n, x, y) of R189: both entries checked before either is written. -/
def push2 (k : CoreId) (n : Nat) (x y : Coin) : CM Unit := do
  let c ← getC k
  let r := c.ccGet (R.CS_RSTK n)
  let _ ← rscheck k n r (checkAddr r (-16))
  let a ← rscheck k n r (checkAddr r (-32))
  let hx ← stackHalf k n (a + 16) true
  let hy ← stackHalf k n a true
  let x ← retireM k x
  pushSb k hx x
  pushSb k hy y
  modC k fun c => c.ccSet (R.CS_RSTK n) (r.withCursor (BitVec.ofNat 64 a))

/-! Areas of memory of type NORMAL: save areas and vector frames (R126, R178) -/

/-- The lines of an area translated one by one (R240). -/
def xlateLines (k : CoreId) (write : Bool) (va : Nat) : Nat → CM (List Half)
  | 0 => pure []
  | n + 1 => do
    let c ← getC k
    let (pa, mt) ← xlate k va (xArea write) c.ring 0
    let rest ← xlateLines k write (va + 64) n
    pure (⟨pa, 64, mt⟩ :: rest)

/-- 64-byte lines read one after another: bytes, and the tags by granule. -/
def readLines (k : CoreId) (va : Nat) : List Half → CM (List Byte × List Bool)
  | [] => pure ([], [])
  | h :: r => do
    let (bs, _) ← readNow k va h false 0
    let s ← getS
    let ts := match s.physRead h.pa 64 with
      | .ok _ t => (List.range 4).map fun j => bitB t j
      | _ => [false, false, false, false]
    let (bs', ts') ← readLines k (va + 64) r
    pure (bs ++ bs', ts ++ ts')

/-- A computation whose trap is turned into `none`; a wait stays a wait. -/
def attempt {α : Type} (m : CM α) : CM (Option α) := fun s =>
  match m s with
  | .ok a s' => .ok (some a) s'
  | .error (.trap _) s' => .ok none s'
  | .error e s' => .error e s'

/-! Vector state at entry (R179) -/

def CoreState.vUsed (c : CoreState) : Bool := c.csF R.CS_VSTATE F.CS_VSTATE_USED == 1
def CoreState.vPend (c : CoreState) : Bool := c.csF R.CS_VSTATE F.CS_VSTATE_PEND == 1
def CoreState.vNoframe (c : CoreState) : Bool := c.csF R.CS_VSTATE F.CS_VSTATE_NOFRAME == 1

/-- Every v and m register zero, CS_VL 512, CS_VCTL 0 (R177). -/
def CoreState.vZero (c : CoreState) : CoreState :=
  (({ c with v := Vector.replicate 32 0, m := Vector.replicate 8 0 } : CoreState).csSet R.CS_VL 0x200).csSet R.CS_VCTL 0

/-- vector_entry() of R179. -/
def vectorEntry (k : CoreId) : CM Unit := do
  let c ← getC k
  if !c.vUsed then modC k fun c => c.csSet R.CS_VNEST (c.csGet R.CS_VNEST + 1)
  else
    let c14 := (c.read (c.cDst 14)).coinOf
    let b : Word := (c14.cursor - 16960) &&& ~~~(63 : Word)
    let got ← attempt do
      let va ← coinCheck k 14 c14 ((b.toNat : Int) - c14.cursor.toNat) 64 7 none
      xlate k va (xArea true) c.ring 0
    match got with
    | none =>
      modC k fun c =>
        let c := (c.csSet R.CS_VNSAVE (c.csGet R.CS_VNEST)).csSet R.CS_VNEST 0
        (c.csSetF R.CS_VSTATE F.CS_VSTATE_NOFRAME 1).csSetF R.CS_VSTATE F.CS_VSTATE_USED 0
    | some (pa, mt) =>
      let prev ← retireM k (c.ccGet R.CS_VFRAME)
      modC k fun c =>
        let rest := natBytes 8 (c.csGet R.CS_VNEST).toNat ++ List.replicate 40 0
        let c := { c with sb := c.sb ++ [SbEntry.of (.coin prev.tag) pa (coinBytes prev) mt false, SbEntry.of .data (pa + 16) rest mt false] }
        let c14' := c14.withCursor b
        let c := (c.setC 14 c14').ccSet R.CS_VFRAME c14'
        let c := c.csSet R.CS_VNEST 0
        (c.csSetF R.CS_VSTATE F.CS_VSTATE_PEND 1).csSetF R.CS_VSTATE F.CS_VSTATE_USED 0

/-! STOPPED (R210) -/

/-- The core drops its purse cache, and its cluster leaves the directory records of every entry that none of its cores caches (R69). -/
def State.dropPurseCache (s : State) (k : CoreId) : State :=
  let s := s.modCore k fun c => { c with pcache := [] }
  let cached (i : Nat) : Bool := (List.range 8).any fun j => (s.core (coreOf (k.val / 8 * 8 + j))).pcache.any (·.1 == i)
  (s.purseDir.filter fun e => !cached e.1).foldl (fun s e => s.setDir e.1 (e.2 &&& ~~~(BitVec.ofNat 16 (2 ^ (k.val / 8))))) s

/-- Cluster n, which stops or goes, holds no purse-cache entry and delays no purse write: it has met every invalidation (R69). -/
def State.leaveDirs (s : State) (n : Nat) : State :=
  let s := (List.range 8).foldl (fun s j => s.dropPurseCache (coreOf (8 * n + j))) s
  (s.purseWrs.map (·.id)).foldl (fun s id => (s.purseInval id n).purseAck id n) s

/-- Core k enters STOPPED for a cause of R210: a FATAL record for detector 4 carries the cause, and the core is fenced. -/
def State.stopCore (s : State) (k : CoreId) (cause : Nat) : State :=
  let s := s.modCore k fun c => { c with run := .stopped }
  let s := s.errRecord ⟨k.val, 4, .fatal, false, none, 0, true, natBytes 1 cause⟩
  let s := (s.setRf (R.MGMT_USTAT k.val) F.MGMT_USTAT_STATE 5).setRf (R.MGMT_USTAT k.val) F.MGMT_USTAT_CAUSE 2
  let s := ((s.dropPurseCache k).dropReserve k).degrade
  s.relines

/-! Trap descriptors (R191–R193) -/

structure Desc where
  handler : Coin
  ctl : Word
  valid : Bool
  deriving DecidableEq, Repr

def Desc.ring (d : Desc) : Nat := getF d.ctl ⟨1, 0⟩
def Desc.stk (d : Desc) : Nat := getF d.ctl ⟨3, 2⟩
def Desc.keep (d : Desc) : Bool := bitB d.ctl 4
def Desc.hold (d : Desc) : Bool := bitB d.ctl 5

/-- Descriptor n as read from the table; none when its line is poisoned or has no target (R191, R193). The read waits as every read of its
line does (R263, R305). -/
def State.readDesc (s : State) (k : CoreId) (n : Nat) : Option Desc × State :=
  let pa := (s.core k).csF R.CS_TDT F.CS_TDT_BASE * 2048 + 32 * n
  match s.target pa with
  | .local a _ _ =>
    let s := s.blockIf (s.readHeld a 32)
    if s.poisoned a then (none, s)
    else
      let (h, s) := s.retire k ⟨BitVec.ofNat 128 (s.readNat a 16), s.tagAt a⟩
      let ctl := s.word64 (a + 16)
      let ok := bitB ctl 7 && !bitB ctl 6 && getF ctl ⟨63, 8⟩ == 0 && s.word64 (a + 24) == 0 &&
        h.tag && bitB h.rights 2 && !bitB h.rights 6 && !bitB h.rights 11
      (some ⟨h, ctl, ok⟩, s)
  | _ => (none, s)

/-- The descriptor entered for n under R193: the descriptor, its number, and whether n was displaced; or the cause of
STOPPED. DEDUCED, log entry 38. DEDUCED, log entry 98. -/
def State.pickDesc (s : State) (k : CoreId) (n : Nat) : Except Nat (Desc × Nat × Bool) × State :=
  match s.readDesc k n with
  | (none, s) => (.error 3, s)
  | (some d, s) =>
    if d.valid then (.ok (d, n, false), s)
    else match s.readDesc k 0x0F with
      | (none, s) => (.error 3, s)
      | (some d', s) => if d'.valid then (.ok (d', 0x0F, true), s) else (.error 4, s)

/-! Entry (R195) -/

/-- stack_select(d, r) of R199, on c14 of the bank in use. -/
def CoreState.stackSelect (c : CoreState) (d : Desc) (r : Nat) : CoreState :=
  if !d.keep ∧ d.stk ≠ r then
    let old := (c.read (c.cDst 14)).coinOf
    (c.ccSet (R.CS_DSTK r) old).setC 14 (c.ccGet (R.CS_DSTK d.stk))
  else c

/-- The last part of an entry: bank or stack, CS_ENTC14, vector_entry, then CS_PCC, CS_STATUS, CS_TINFO and the report.
DEDUCED, log entry 98. -/
def enterFinish (k : CoreId) (d : Desc) (n r nr : Nat) (tinfo : Word) (cs : List (Nat × Word)) (eat : CoreState → CoreState) : CM Unit := do
  modC k fun c =>
    let c := if n = 0x31 then c.csSetF R.CS_STATUS F.CS_STATUS_GECKO 1 else c.stackSelect d r
    c.ccSet R.CS_ENTC14 (c.read (c.cDst 14)).coinOf
  vectorEntry k
  modS fun s => s.trace k.val 1 (s.core k).pcc.cursor d.handler.cursor
  modC k fun c =>
    let c := cs.foldl (fun c w => c.csSet w.1 w.2) c
    let c := (c.csSetF R.CS_STATUS F.CS_STATUS_RING nr).csSetF R.CS_STATUS F.CS_STATUS_HER 0
    let c := if d.hold then c.csSetF R.CS_STATUS F.CS_STATUS_IH 1 else c
    let c := c.csSet R.CS_TINFO (setF tinfo F.CS_TINFO_NUM n)
    eat { c with pcc := d.handler, shadow := none, pfx := none, flight := none }
  modS fun s => s.count k.val 0x16 1
  -- R209: a save-area fault exchanges the save lists, or stops the core
  if n = 0x0E then
    let c ← getC k
    if c.csF R.CS_EMINFO F.CS_EMINFO_EMS = 1 ∨ !(c.ccGet R.CS_EMSAVE).tag then modS fun s => s.stopCore k 2
    else modC k fun c =>
      let a := c.ccGet R.CS_SAVEHEAD
      let b := c.ccGet R.CS_EMSAVE
      ((c.ccSet R.CS_SAVEHEAD b).ccSet R.CS_EMSAVE a).csSetF R.CS_EMINFO F.CS_EMINFO_EMS 1

/-- empush(x, y) of R208; false when CS_EMRSTK is full and the core has stopped. -/
def emPush (k : CoreId) (x y : Coin) : CM Bool := do
  let c ← getC k
  let d := c.csF R.CS_EMINFO F.CS_EMINFO_EMDEPTH
  if d > 14 then
    modS fun s => s.stopCore k 1
    pure false
  else
    modC k fun c =>
      (((c.ccSet (R.CS_EMRSTK d) x).ccSet (R.CS_EMRSTK (d + 1)) y)).csSetF R.CS_EMINFO F.CS_EMINFO_EMDEPTH (d + 2)
    pure true

def displace (tinfo : Word) (n : Nat) : Word := setF (setF tinfo F.CS_TINFO_DNUM n) F.CS_TINFO_DVALID 1

/-- GFINFO of a displaced descriptor (R193). DEDUCED, log entry 98. -/
def gfDesc (disp : Bool) : List (Nat × Word) := if disp then [(R.CS_GFINFO, 8)] else []

/-- An entry with its frame pushed onto CS_EMRSTK (R207, R208); `was` is the descriptor of a failed entry it displaces. -/
def enterEmergency (k : CoreId) (rep : TrapRep) (ret : Word) (was : Option Nat) (eat : CoreState → CoreState) : CM Unit := do
  match ← liftS fun s => s.pickDesc k rep.num with
  | .error e => modS fun s => s.stopCore k e
  | .ok (d, n, disp) =>
    let c ← getC k
    let r := c.ring
    let ok ← emPush k (c.pcc.withCursor ret) (statusGranule (c.csGet R.CS_STATUS) n false (n == 0x30 || n == 0x31))
    if ok then
      let ti := rep.tinfo ||| tiFlag F.CS_TINFO_EM true
      let ti := match was with | some w => displace ti w | none => ti
      let ti := if disp then displace ti rep.num else ti
      enterFinish k d n r (min d.ring r) ti (rep.cs ++ gfDesc disp) eat

/-- enter(n, ret) of R195 for the report `rep`, after the long operations have completed. `eat` is what the entry consumes.
DEDUCED, log entry 117. -/
def enterCore (k : CoreId) (rep : TrapRep) (ret : Word) (eat : CoreState → CoreState) : CM Unit := do
  -- an access that awaited a peer is over; what the entry itself checks is checked
  landed k
  let c ← getC k
  if c.csF R.CS_EMINFO F.CS_EMINFO_EMDEPTH > 0 ∨ rep.num = 0x0D then enterEmergency k rep ret none eat
  else
    match ← liftS fun s => s.pickDesc k rep.num with
    | .error e => modS fun s => s.stopCore k e
    | .ok (d, n, disp) =>
      let c ← getC k
      let r := c.ring
      let nr := min d.ring r
      let y := statusGranule (c.csGet R.CS_STATUS) n false (n == 0x30 || n == 0x31)
      match ← (fun s => match push2 k nr (c.pcc.withCursor ret) y s with
          | .ok _ s' => .ok none s'
          | .error (.trap t) s' => .ok (some t) s'
          | .error e s' => .error e s' : CM (Option TrapRep)) with
      -- a displaced entry 0x0C has consumed and reported its exceptions: the other handler never receives them (R154)
      | some t => enterEmergency k t ret (some n) (if rep.num = 0x0C then fun c => eat (rep.cs.foldl (fun c w => c.csSet w.1 w.2) c) else id)
      | none =>
        let ti := if disp then displace rep.tinfo rep.num else rep.tinfo
        enterFinish k d n r nr ti (rep.cs ++ gfDesc disp) eat

/-! Arithmetic exceptions (R153–R158) -/

/-- The report of trap 0x0C for the pending exceptions: causes ORed, address of the earliest (R158). -/
def axRep (rs : List AxReport) (prec atabar : Bool) : TrapRep :=
  let cause := rs.foldl (fun n r => n ||| r.cause) 0
  let first (a b : AxReport) : AxReport := if b.order < a.order then b else a
  let (opc, f7, pc) := match rs with
    | r :: l => let e := l.foldl first r; (e.opc, e.funct7, e.pc)
    | [] => (0, 0, 0)
  ⟨0x0C, 0,
    [(R.CS_AXINFO, setF (setF (setF (setF (setF (setF 0 F.CS_AXINFO_CAUSE cause) F.CS_AXINFO_MULT (b2n (rs.length > 1)))
        F.CS_AXINFO_PREC (b2n prec)) F.CS_AXINFO_ATABAR (b2n atabar)) F.CS_AXINFO_OPC opc) F.CS_AXINFO_FUNCT7 f7),
     (R.CS_AXPC, pc)]⟩

/-- Trap 0x0C taken with return address `ret`, consuming the pending exceptions. -/
def enterAx (k : CoreId) (ret : Word) (atabar : Bool) : CM Unit := do
  let c ← getC k
  let pa := c.csF R.CS_STATUS F.CS_STATUS_PA == 1
  enterCore k (axRep c.ax (pa || atabar) atabar) ret fun c => { c with ax := [] }

/-- The entry for `rep` with return address `ret`: long operations complete first, and an enabled exception then pending
is taken in its place with return address `insn` (R154). DEDUCED, log entry 38. -/
def enter (k : CoreId) (rep : TrapRep) (ret insn : Word) (eat : CoreState → CoreState) : CM Unit := do
  modC k CoreState.longsDone
  let c ← getC k
  if c.ax ≠ [] then enterAx k insn false else enterCore k rep ret eat

/-! Events due at a boundary (R201) -/

inductive Event where
  | arithmetic
  | notice (n : Notice)
  | gecko
  | normal
  | breakpoint (i : Nat)
  deriving DecidableEq, Repr

/-- Traps 0x14, 0x30 and 0x31 are held (R201). DEDUCED, log entry 68. -/
def CoreState.held (c : CoreState) : Bool := c.csF R.CS_STATUS F.CS_STATUS_IH == 1 || c.gecko

/-- The lowest-numbered breakpoint that matches the next instruction's address (R451). -/
def CoreState.brkHit (c : CoreState) : Option Nat :=
  if c.csF R.CS_DBGCTL F.CS_DBGCTL_SKIP = 1 then none
  else (List.range 8).find? fun i =>
    let b := c.csGet (R.CS_BRK i)
    getF b F.CS_BRK_EN == 1 && getF b F.CS_BRK_ADDR * 2 == c.pcc.cursor.toNat

/-- The first event due at this boundary (R201). Single-stepping holds interrupts (R450); a recall in progress holds them
too (R87). DEDUCED, log entry 68. -/
def CoreState.due (c : CoreState) : Option Event :=
  if c.ax ≠ [] then some .arithmetic
  else
    match c.notices, (c.held || c.step) with
    | n :: _, false => some (.notice n)
    | _, held =>
      if !held && c.lineG then some .gecko
      else if !held && c.lineN then some .normal
      else c.brkHit.map .breakpoint

/-- Trap 0x14 for a notice (R473). NOTARGET is set for an address with no target, which R194's row for 0x14 does not list:
DESIGN CHOICE, log entry 125. -/
def noticeRep (n : Notice) : TrapRep :=
  ⟨0x14, setF (tiFlag F.CS_TINFO_PHYS true ||| tiFlag F.CS_TINFO_ACCESS n.access ||| tiFlag F.CS_TINFO_NOTARGET n.notarget)
    F.CS_TINFO_INIT n.init, [(R.CS_FADDR, BitVec.ofNat 64 n.pa)]⟩

/-- The entry, or the debug halt, for a due event at the boundary before the instruction at CS_PCC. -/
def takeEvent (k : CoreId) (e : Event) : CM Unit := do
  let c ← getC k
  let pc := c.pcc.cursor
  match e with
  | .arithmetic => do
    modC k CoreState.longsDone
    enterAx k pc false
  | .notice n => enter k (noticeRep n) pc pc fun c => { c with notices := c.notices.tail }
  | .gecko => enter k (simpleTrap 0x31) pc pc id
  | .normal => enter k (simpleTrap 0x30) pc pc id
  | .breakpoint i =>
    let r := brkRep c 1 i
    let s ← getS
    if s.haltOnBrk k then modC k fun c => { r.cs.foldl (fun c w => c.csSet w.1 w.2) c with run := .halted }
    else enter k r pc pc id

/-- The state after a core computation: a wait or halt keeps what was done. -/
def runCM {α : Type} (s : State) (m : CM α) : State :=
  match m s with
  | .ok _ s' => s'
  | .error _ s' => s'

end Sys2Proof.Machine
end

