-- ==== Sys2Proof/Machine/Issue.lean ====
section
/-!
DEFINITION. How one native instruction executes (R100, R104–R107, R115, R121, R133, R201, R430): interlocks, due events, the
fetch check, patch entries, its body, and its completion or the trap it takes.
-/
namespace Sys2Proof.Machine

/-! Instruction words (R104), as the patch entries and CS_AXINFO see them -/

/-- DESIGN CHOICE, log entry 91. -/
def encRR (op d a b f3 f7 : Nat) : Nat := op + d * 2 ^ 7 + a * 2 ^ 12 + b * 2 ^ 17 + f3 * 2 ^ 22 + f7 * 2 ^ 25
def encRI (op d a f3 imm : Nat) : Nat := op + d * 2 ^ 7 + a * 2 ^ 12 + f3 * 2 ^ 17 + imm * 2 ^ 20
def encBR (a b f3 disp : Nat) : Nat := encRI 0x18 a b f3 disp
def encJ (l disp : Nat) : Nat := 0x19 + l * 2 ^ 7 + disp * 2 ^ 8
def encMS (op r cb size disp : Nat) : Nat := encRI op r cb size disp
def encMX (op r cb gx size mode file order : Nat) : Nat :=
  encRR op r cb gx size 0 + mode * 2 ^ 25 + file * 2 ^ 28 + order * 2 ^ 30
def encAT (d cb s op w order : Nat) : Nat := encRR 0x09 d cb s op 0 + w * 2 ^ 25 + order * 2 ^ 26
def encMT (a b f3 op : Nat) : Nat := encRI 0x0A a b f3 0 + op * 2 ^ 20
def encLP (a i x len count : Nat) : Nat := 0x1B + a * 2 ^ 7 + i * 2 ^ 12 + x * 2 ^ 13 + len * 2 ^ 14 + count * 2 ^ 24
def encBK (a b n f3 esize d neg : Nat) : Nat := encRR 0x0B a b n f3 0 + esize * 2 ^ 25 + d * 2 ^ 28 + neg * 2 ^ 29
def encCM (op c cb disp : Nat) : Nat := op + c * 2 ^ 7 + cb * 2 ^ 12 + disp * 2 ^ 17

/-! What the issue of an instruction needs to know -/

structure Insn where
  word : Nat
  /-- registers read and written, whose pending writes it waits for (R133) -/
  reads : CoreState → List Dst
  writes : CoreState → List Dst
  /-- may follow PFX (R107) -/
  pfx : Bool
  /-- one of the loads of R115 -/
  load : Bool
  /-- waits for every earlier arithmetic instruction, and takes what becomes pending meanwhile as ABAR does (R157) -/
  sync : CoreState → Bool := fun _ => false

/-- Where execution continues after an instruction. -/
inductive Next where
  /-- at the next instruction -/
  | seq
  /-- a taken transfer within CS_PCC's purse -/
  | jump (a : Word)
  /-- a transfer that replaces CS_PCC -/
  | coin (c : Coin)
  /-- again at this instruction: a block repeat between elements -/
  | again
  /-- the instruction has set CS_PCC itself -/
  | done
  /-- it has left its core and completes later (R87) -/
  | pend
  /-- it completes by entering a trap whose return address is the next instruction (BRK, R194) -/
  | enter (r : TrapRep)
  deriving DecidableEq, Repr

/-- The g and c registers of the bank in use, for operand lists. -/
def gN (n : BitVec 5) (c : CoreState) : Dst := c.gDst n.toNat
def cN (n : BitVec 5) (c : CoreState) : Dst := c.cDst n.toNat
def vN (n : BitVec 5) (_ : CoreState) : Dst := .v n.toNat
def mN (n : Nat) (_ : CoreState) : Dst := .m n
/-- The operand lists of an instruction that reads `rs` and writes `ws`. DESIGN CHOICE, log entry 91. -/
def mkInsn (word : Nat) (rs ws : List (CoreState → Dst)) : Insn :=
  ⟨word, fun c => rs.map (· c), fun c => ws.map (· c), false, false, fun _ => false⟩

/-! Interlocks (R133) -/

/-- The registers whose pending writes the instruction waits for: all it names, apart from a read in the load shadow. The reply
of a POST comes from its teller, so an instruction that names its gd does not issue before it (R133, R297). -/
def Insn.waits (i : Insn) (c : CoreState) : List Dst :=
  (i.reads c).filter (fun d => match c.shadow with | some sh => sh.dst != d.base | none => true) ++ i.writes c

def interlock (k : CoreId) (i : Insn) : CM Unit := fun s =>
  let ws := i.waits (s.core k)
  if (s.core k).posts.any fun p => ws.any fun d => d.base == p.dst && d != .none then .error .stall s
  else .ok () (ws.foldl (fun s d => s.settle k d) s)

/-- A register reached through the bank window waits for a POST's reply like a named one. -/
def waitPost (k : CoreId) (d : Dst) : CM Unit := fun s =>
  if (s.core k).posts.any fun p => p.dst == d then .error .stall s else .ok () s

/-! Fetch (R100) -/

/-- One part of a fetch translated and read. -/
def fetchPart (k : CoreId) (acc : XAcc) (va n : Nat) : CM Unit := do
  let c ← getC k
  let fl := tiFlag F.CS_TINFO_FETCH true
  let (pa, _) ← xlate k va acc c.ring fl
  let s ← getS
  let vaw : Word := BitVec.ofNat 64 va
  match s.physRead pa n with
  | .ok .. => pure ()
  | .poison => trapM (busTrap vaw (fl ||| tiFlag F.CS_TINFO_POISON true))
  | .notarget => trapM (busTrap vaw (fl ||| tiFlag F.CS_TINFO_NOTARGET true))
  | .wait =>
    match s.takeReply k.val 0x01 (pa / 64 * 64) with
    | (some _, s') => do
      set s'
      trapM (busTrap vaw (fl ||| tiFlag F.CS_TINFO_NOTARGET true))
    | (none, s') => do
      set (s'.fetchRemote pa k.val false)
      stallM

/-- The fetch check of the instruction at CS_PCC, `n` bytes: alignment of the cursor, the coin check, translation, bus. -/
def fetch (k : CoreId) (n : Nat) (align : Nat) : CM Unit := do
  let c ← getC k
  let fl := tiFlag F.CS_TINFO_FETCH true
  if c.pcc.cursor.toNat % align ≠ 0 then trapM ⟨0x01, fl, [(R.CS_FADDR, c.pcc.cursor)]⟩
  else
    let va ← coinCheck k 16 c.pcc 0 n 3 none fl
    match splitVa va n with
    | [(a, n)] => fetchPart k (xKind 3 false) a n
    | ps => ps.forM fun p => fetchPart k (xKind 3 false) p.1 p.2

/-- An enabled patch entry matches the word (R430). DESIGN CHOICE, log entry 91. -/
def CoreState.patched (c : CoreState) (w : Nat) : Bool :=
  (List.range 8).any fun i =>
    let p := c.csGet (R.CS_PATCH i)
    getF p F.CS_PATCH_MASK != 0 && (w &&& getF p F.CS_PATCH_MASK) == getF p F.CS_PATCH_MATCH

/-- The PFX word of imm25 (R104). -/
def pfxWord (x : BitVec 25) : Nat := 0x13 + x.toNat * 2 ^ 7

/-! Completion -/

/-- The instruction at `pc` of `len` bytes ends the body of the loop whose END is `e` (R121). -/
def endsBody (pc : Word) (len : Nat) (e : Word) : Bool := e == pc || (len == 8 && e == pc + 4)

/-- Level 0 popped (R121). -/
def CoreState.popLoop (c : CoreState) : CoreState :=
  let mv (d s : Nat) (c : CoreState) : CoreState :=
    (List.range 4).foldl (fun c j => c.csSet (d + j) (c.csGet (s + j))) c
  let c := mv R.CS_LSTART1 R.CS_LSTART2 (mv R.CS_LSTART R.CS_LSTART1 c)
  let c := (List.range 4).foldl (fun c j => c.csSet (R.CS_LSTART2 + j) 0) c
  c.csSetF R.CS_LDEPTH F.CS_LDEPTH_DEPTH (c.csF R.CS_LDEPTH F.CS_LDEPTH_DEPTH - 1)

/-- The end step applies to the instruction at `pc` (R121). -/
def CoreState.atLoopEnd (c : CoreState) (pc : Word) (len : Nat) : Bool :=
  c.csF R.CS_LDEPTH F.CS_LDEPTH_DEPTH ≥ 1 && c.pcc.purse == c.csF R.CS_LPURSE F.CS_LPURSE_PURSE && endsBody pc len (c.csGet R.CS_LEND)

/-- end_step() of R121, at most once per level; the result is where fetch continues. -/
def CoreState.endStep (pc : Word) (len : Nat) : Nat → CoreState → CoreState × Word
  | 0, c => (c, pc + BitVec.ofNat 64 len)
  | n + 1, c =>
    let cnt := c.csGet R.CS_LCOUNT - 1
    let c := c.csSet R.CS_LCOUNT cnt
    if cnt ≠ 0 then (c, c.csGet R.CS_LSTART)
    else
      let c := c.popLoop
      if c.atLoopEnd pc len then c.endStep pc len n else (c, pc + BitVec.ofNat 64 len)

/-- The K16 program counter (R379). -/
def CoreState.hPc (c : CoreState) : Nat := (c.pcc.cursor - c.csGet R.CS_HORG).toNat / 2 % 2 ^ 24
/-- The virtual address of K16 word w (R382). -/
def CoreState.hAddr (c : CoreState) (w : Nat) : Word := c.csGet R.CS_HORG + BitVec.ofNat 64 (2 * w)
/-- PC with its low 16 bits moved by n: code wraps within its bank (R385). -/
def CoreState.hNear (c : CoreState) (n : Int) : Nat := c.hPc / 2 ^ 16 * 2 ^ 16 + (((c.hPc : Int) + n) % (2 ^ 16 : Nat)).toNat

/-- The address of the next instruction in sequence. -/
def CoreState.nextAddr (c : CoreState) (len : Nat) : Word :=
  if len = 2 then c.hAddr (c.hNear 1) else c.pcc.cursor + BitVec.ofNat 64 len

/-- CS_PCC moved past the instruction of `len` bytes, with the end step where it applies (R100, R121). -/
def CoreState.advance (c : CoreState) (len : Nat) : CoreState :=
  let pc := c.pcc.cursor
  if c.atLoopEnd pc len then
    let (c, a) := c.endStep pc len 3
    { c with pcc := c.pcc.withCursor a }
  else { c with pcc := c.pcc.withCursor (c.nextAddr len) }

/-- What every completed instruction does to its core: the load shadow is over unless it is a load, PFX is used up, no access is awaited
and CS_DBGCTL.SKIP is cleared, unless this instruction has written it (R115, R107, R89, R451). -/
def CoreState.completed (c : CoreState) (load : Bool) : CoreState :=
  let keep := c.skipSet
  let c := { c with shadow := if load then c.shadow else none, pfx := none, flight := none, skipSet := false }
  if !keep && c.csF R.CS_DBGCTL F.CS_DBGCTL_SKIP == 1 then c.csSetF R.CS_DBGCTL F.CS_DBGCTL_SKIP 0 else c

/-- A taken transfer to `x`. -/
def State.transfer (s : State) (k : CoreId) (x : Coin) : State :=
  (s.trace k.val 0 (s.core k).pcc.cursor x.cursor).modCore k fun c => { c with pcc := x }

/-- A single step that debug asked for is over (R450). -/
def CoreState.stepped (c : CoreState) : CoreState :=
  if c.step then { c with step := false, run := if c.run = .stopped then .stopped else .halted } else c

/-- The instruction of `len` bytes completes. -/
def State.complete (s : State) (k : CoreId) (load : Bool) (len : Nat) (n : Next) : State :=
  if n = .pend then s else
  let s := s.modCore k fun c => c.completed (load || n = .again)
  let s := match n with
    | .seq => s.modCore k fun c => c.advance len
    | .jump a => s.transfer k ((s.core k).pcc.withCursor a)
    | .coin x => s.transfer k x
    | _ => s
  let s := s.modCore k CoreState.stepped
  if n = .again then s else s.count k.val 0x10 1

/-! The whole instruction -/

/-- Native instructions, or K16 instructions with `her`, issue on core k (R28, R102, R210). One that awaits a peer goes on while its
core is being halted or fenced (R89). -/
def State.canIssue (s : State) (k : CoreId) (her : Bool) : Bool :=
  let c := s.core k
  let inFlight := c.flight.isSome
  !s.inReset && (s.mode == .run || s.mode == .degraded || s.mode == .diagnostic) && (c.run == .running || (inFlight && c.run == .halted)) &&
    c.recallW.isNone && c.her == her && (s.coreServes k.val || (inFlight && s.unitUp k.val && s.unitUp (0x80 + k.val / 8)))

/-- What an instruction that waits leaves behind: only the requests it has sent; it has not issued. DEDUCED, log entry 8. -/
def State.keepWait (s0 s1 : State) : State :=
  let news := s1.peerTx.filter fun t => !s0.peerTx.any (fun x => x.txid == t.txid) && !([0x04, 0x05, 0x09].contains t.op)
  { s0 with peerTx := s0.peerTx ++ news,
            peerOut := s0.peerOut ++ (s1.peerOut.drop s0.peerOut.length).filter (fun m => news.any fun t => t.txid == m.txid),
            nextId := s1.nextId, free := s1.free, rlines := s0.linesLeft s1 }

/-- A computation run to the end, a wait undone but for its requests. DEDUCED, log entry 8. -/
def State.runOr (s : State) (m : CM Unit) : State :=
  match m s with
  | .ok _ s' => if s'.blocked then s.keepWait s' else s'
  | .error .stall s' => s.keepWait s'
  | .error .await s' => s.keepWait s'
  | .error _ s' => if s'.blocked then s.keepWait s' else s'

/-- Instruction `w` of core k run to the end; where it awaits a peer after its check, it stays in flight (R89). -/
def State.runInsn (s : State) (k : CoreId) (w : Nat) (m : CM Unit) : State :=
  match m s with
  | .error .await s' => if s'.blocked then s.keepWait s' else (s.keepWait s').modCore k fun c => { c with flight := some w }
  | _ => s.runOr m

/-- What stands before an instruction's own effect: interlocks done, no event due, the fetch check passed, no patch entry
matched, a prefix only where one may stand. DESIGN CHOICE, log entry 1. -/
def front (k : CoreId) (i : Insn) : CM Unit := do
  let c ← getC k
  fetch k (if c.pfx.isSome then 8 else 4) 4
  if c.patched i.word || (match c.pfx with | some x => c.patched (pfxWord x) | none => false) then illegal
  else if c.pfx.isSome && !i.pfx then illegal
  else pure ()

/-- One native instruction of core k, its body `body`, or what happens in its place. An instruction that waits for a long operation whose
enabled exception that makes pending does not issue before the trap, where R153 says that it may: DESIGN CHOICE, log entry 124. BRK as the last instruction of a body returns to the
instruction after it, with no end step (R122, R194): DESIGN CHOICE, log entry 123. -/
def insnM (k : CoreId) (i : Insn) (body : CM Next) : CM Unit := do
  let calm := (← getC k).ax.isEmpty
  interlock k i
  let c ← getC k
  let pc := c.pcc.cursor
  match if c.pfx.isNone && c.flight.isNone then c.due else none with
  | some e => do
    if i.sync c && calm && e = .arithmetic then do
      modC k CoreState.longsDone
      enterAx k pc true
    else takeEvent k e
    modC k CoreState.stepped
  | none =>
    let len := if c.pfx.isSome then 8 else 4
    let r : Except Stop Next ← fun s => match (front k i >>= fun _ => body) s with
      | .ok n s' => .ok (.ok n) s'
      | .error e s' => .ok (.error e) s'
    match r with
    | .ok (.enter rep) => do
      modS fun s => s.complete k i.load len .done
      enter k rep (pc + 4) pc id
    | .ok n => modS fun s => s.complete k i.load len n
    | .error (.trap t) => do
      enter k t pc pc id
      modC k CoreState.stepped
    | .error .barrier => do
      enterAx k pc true
      modC k CoreState.stepped
    | .error .halt => modC k fun c => { c with run := .halted, step := false }
    | .error .stall => stallM
    | .error .await => awaitM

/-- A native instruction of core k; nothing happens where the core does not issue, or awaits a peer for another one. -/
def coreInstr (k : CoreId) (i : Insn) (body : CM Next) (s : State) : Res :=
  if s.canIssue k false && ((s.core k).flight.getD i.word == i.word) then .next (s.runInsn k i.word (insnM k i body)) else .next s

/-! Shared pieces of bodies -/

/-- A coin register field of 16 or more is illegal (R52). -/
def needC (n : BitVec 5) : CM Unit := if n.toNat < 16 then pure () else illegal

/-- An instruction that only changes its core. -/
def onCore (k : CoreId) (f : CoreState → CoreState) : CM Next := do
  modC k f
  pure .seq

/-- Waiting for every earlier long operation; an enabled exception then pending is taken at the barrier (R155). -/
def barrier (k : CoreId) : CM Unit := do
  modC k CoreState.longsDone
  let c ← getC k
  if c.ax ≠ [] then throw .barrier else pure ()

/-- Ring 0 only. -/
def ring0 (k : CoreId) : CM Unit := do
  let c ← getC k
  if c.ring ≠ 0 then privileged else pure ()

end Sys2Proof.Machine
end

