-- ==== Sys2Proof/Machine/VState.lean ====
section
/-!
DEFINITION. Lazy saving of vector state (R177–R183): the touch before an instruction that uses it, the return at TRET, and
the zeroing of a tail-chained entry.
-/
namespace Sys2Proof.Machine

/-- Trap 0x11 with its cause (R180, R181). -/
def vFault (cause : Nat) : TrapRep := ⟨0x11, 0, [(R.CS_VFINFO, BitVec.ofNat 64 cause)]⟩

/-- The number of lines of a vector frame (R178). -/
def frameLines : Nat := 265

/-- Bytes 24–47 of a filled frame: FILLED, CS_VL, CS_VCTL (R178). -/
def CoreState.frameHead (c : CoreState) : List Byte :=
  natBytes 8 1 ++ natBytes 8 (c.csGet R.CS_VL).toNat ++ natBytes 8 (c.csGet R.CS_VCTL).toNat

/-- Bytes 64–16,959 of a frame: m0–m7 and v0–v31 (R178). -/
def CoreState.frameBody (c : CoreState) : List Byte :=
  ((List.range 8).map fun i => natBytes 64 (c.read (.m i)).maskOf.toNat).flatten ++
    ((List.range 32).map fun i => natBytes 512 (c.read (.v i)).vecOf.toNat).flatten

/-- The coin check and the translation of the `n` lines from a coin's cursor on, with the right of `kind` (R180, R181). -/
def frameAccess (k : CoreId) (f : Coin) (n kind : Nat) (write : Bool) : CM (Option (Nat × List Half)) :=
  attempt do
    let va ← coinCheck k 16 f 0 (if n = 1 then 64 else 16960) kind none
    if !write then modS fun s => s.afterFences k
    let hs ← xlateLines k write va n
    pure (va, hs)

/-- Whole lines entered in the store buffer one after another. -/
def writeLines (k : CoreId) : List Half → List Byte → CM Unit
  | [], _ => pure ()
  | h :: r, bs => do
    bufferStore k [h] .data (bs.take 64) false
    writeLines k r (bs.drop 64)

/-- vector_touch() of R180. It waits for the vector instructions in flight where a fill is due; elsewhere they overlap, as R175 and the
worked example have it: DESIGN CHOICE, log entry 106. DEDUCED, log entry 30. -/
def vtouch (k : CoreId) : CM Unit := do
  let c ← getC k
  if c.vNoframe then trapM (vFault 1)
  else
    if c.vPend then do
      modC k CoreState.longsDone
      modS fun s => s.returnAll k
      match ← frameAccess k (c.ccGet R.CS_VFRAME) frameLines 7 true with
      | none => trapM (vFault 2)
      | some (_, hs) => do
        let c ← getC k
        match hs with
        | h :: r => do
          bufferStore k [⟨h.pa + 24, 24, h.mt⟩] .data c.frameHead false
          writeLines k r c.frameBody
        | [] => pure ()
        modC k fun c => c.csSetF R.CS_VSTATE F.CS_VSTATE_PEND 0
    modC k fun c => c.csSetF R.CS_VSTATE F.CS_VSTATE_USED 1

/-- The 64-byte and 512-byte registers of a frame body. DEDUCED, log entry 26. -/
def CoreState.loadFrame (c : CoreState) (bs : List Byte) : CoreState :=
  let c := (List.range 8).foldl (fun (c : CoreState) i => c.write (.m i) (.mask (BitVec.ofNat 512 (bytesNat ((bs.drop (64 * i)).take 64))))) c
  (List.range 32).foldl
    (fun (c : CoreState) i => c.write (.v i) (.vec (BitVec.ofNat 4096 (bytesNat ((bs.drop (512 + 512 * i)).take 512))))) c

/-- vector_return() of R181: its checks and reads now, its changes as the result, so that a TRET that still traps has changed
nothing. -/
def vectorReturn (k : CoreId) : CM (CoreState → CoreState) := do
  let c ← getC k
  let nest := c.csGet R.CS_VNEST
  if nest ≠ 0 then
    pure fun c =>
      let c := if c.vUsed then c.vZero else c
      (c.csSet R.CS_VNEST (nest - 1)).csSetF R.CS_VSTATE F.CS_VSTATE_USED 0
  else if c.vNoframe then
    pure fun c =>
      ((c.csSetF R.CS_VSTATE F.CS_VSTATE_NOFRAME 0).csSet R.CS_VNEST (c.csGet R.CS_VNSAVE)).csSetF R.CS_VSTATE F.CS_VSTATE_USED 1
  else
    let f := c.ccGet R.CS_VFRAME
    if !f.tag then pure id
    else
      match ← frameAccess k f (if c.vPend then 1 else frameLines) 4 false with
      | none => trapM (vFault 3)
      | some (va, hs) => do
        let (bs, ts) ← readLines k va hs
        let prev ← retireM k ⟨BitVec.ofNat 128 (bytesNat (bs.take 16)), ts.getD 0 false⟩
        let word (o : Nat) : Word := BitVec.ofNat 64 (bytesNat ((bs.drop o).take 8))
        let pend := c.vPend
        pure fun c =>
          let c := if pend then c else ((c.loadFrame (bs.drop 64)).setVL (word 32)).setVCTL (word 40)
          let c := (c.ccSet R.CS_VFRAME prev).csSet R.CS_VNEST (word 16)
          (c.csSetF R.CS_VSTATE F.CS_VSTATE_PEND 0).csSetF R.CS_VSTATE F.CS_VSTATE_USED 1

/-- The vector step of a tail-chained entry (R182). -/
def CoreState.vChain (c : CoreState) : CoreState :=
  if c.vUsed then c.vZero.csSetF R.CS_VSTATE F.CS_VSTATE_USED 0 else c

/-- VRELEASE (R183). DEDUCED, log entry 32. -/
def CoreState.vRelease (c : CoreState) : CoreState :=
  if !c.vPend && !c.vNoframe then c.vZero.csSetF R.CS_VSTATE F.CS_VSTATE_USED 0 else c

end Sys2Proof.Machine
end

