-- ==== Sys2Proof/Machine/Operands.lean ====
section
/-!
DEFINITION. Operand forms of memory instructions: offsets and cursor updates (R111), size codes and register files (R112),
and the loads and stores they make.
-/
namespace Sys2Proof.Machine

/-- The offset of a displacement or immediate, prefixed or not (R107, R111). -/
def immOf (c : CoreState) (imm : BitVec 12) : Int :=
  match c.pfx with
  | some x => x.toInt * 4096 + imm.toNat
  | none => imm.toInt

/-- Bytes of a size code (R112). -/
def sizeBytes (z : Nat) : Nat := [1, 2, 4, 8, 1, 2, 4, 16].getD z 1

/-- The register files a memory instruction names (R111). -/
inductive MFile where
  | g | f | c
  deriving DecidableEq, Repr

/-- A size code is legal for a file, loading or storing (R112). -/
def sizeOk (file : MFile) (store : Bool) (z : Nat) : Bool :=
  match file with
  | .g => if store then decide (z ≤ 3) else decide (z ≤ 6)
  | .f => z == 2 || z == 3 || z == 7
  | .c => z == 7

/-- The file's code in MX (R111). -/
def MFile.ofCode (n : Nat) : Option MFile :=
  match n with
  | 0 => some .g | 1 => some .f | 2 => some .c | _ => none

/-- The destination of a load of size code z to register r (R112, R142). -/
def loadDst (c : CoreState) (file : MFile) (z r : Nat) : Dst :=
  match file with
  | .g => c.gDst r
  | .f => if z = 7 then .q r else .f r
  | .c => c.cDst r

def loadKindOf (file : MFile) (z : Nat) : LoadKind :=
  match file with
  | .g => .gpr (z ≤ 2)
  | .f => if z = 7 then .qpr else .fpr
  | .c => .coin

/-- The access kind of R48. -/
def accKind (file : MFile) (store : Bool) : Nat :=
  match file, store with
  | .c, false => 4
  | .c, true => 5
  | _, false => 0
  | _, true => 1

/-- The bytes a store of size code z takes from register r (R112). -/
def storeBytes (c : CoreState) (file : MFile) (z r : Nat) : List Byte :=
  match file with
  | .g => natBytes (sizeBytes z) (c.gR r).toNat
  | .f => if z = 7 then natBytes 16 (c.qR r).toNat else natBytes (sizeBytes z) (c.fR r).toNat
  | .c => coinBytes (c.cR r)

/-- Trap 0x01 for a coin access not aligned to 16 (R113): CS_FADDR is the address. -/
def alignTrap (va : Word) : TrapRep := ⟨0x01, 0, [(R.CS_FADDR, va)]⟩

/-- The address of c + o must be aligned to `n` (R52 row 3, R113). DEDUCED, log entry 92. -/
def needAligned (cb : Coin) (o : Int) (n : Nat) : CM Unit :=
  let va : Word := ofInt 64 (checkAddr cb o)
  if va.toNat % n ≠ 0 then trapM (alignTrap va) else pure ()

/-- The load shadow opened: the instruction that executes next reads the old value of `d` (R115). -/
def openShadow (k : CoreId) (d : Dst) (old : DVal) : CM Unit :=
  modC k fun c => { c with shadow := if d = .none then none else some ⟨d.base, old⟩ }

/-- A load of register r (file, size z) at c[cb] + o, with the cursor moved by `upd` when it raises no trap (R111, R115). -/
def loadForm (k : CoreId) (file : MFile) (z r cb : Nat) (o : Int) (upd : Int) (acquire : Bool) : CM Next := do
  let c ← getC k
  watch k (c.cR cb) o (sizeBytes z) true false
  if file = .f then vtouch k
  let c ← getC k
  let base := c.cR cb
  if file = .c then needAligned base o 16
  let dst := loadDst c file z r
  let old := c.read dst.base
  issueLoad k cb base o (sizeBytes z) (accKind file false) (loadKindOf file z) dst acquire
  if upd ≠ 0 then modC k fun c => c.setC cb (base.withCursor (base.cursor + ofInt 64 upd))
  openShadow k dst old
  pure .seq

/-- A store of register r (file, size z) at c[cb] + o, with the cursor moved by `upd` when it raises no trap. A stored coin
passes the retirement test (R93). DEDUCED, log entry 34. -/
def storeForm (k : CoreId) (file : MFile) (z r cb : Nat) (o : Int) (upd : Int) (release : Bool) : CM Next := do
  let c ← getC k
  watch k (c.cR cb) o (sizeBytes z) false true
  if file = .f then vtouch k
  let c ← getC k
  let base := c.cR cb
  match file with
  | .c => do
    needAligned base o 16
    let hs ← storeHalves k cb base o 16 5 (some (c.cR r)) release
    let x ← retireM k (c.cR r)
    bufferStore k hs (.coin x.tag) (coinBytes x) release
  | _ => do
    let hs ← storeHalves k cb base o (sizeBytes z) 1 none release
    bufferStore k hs .data (storeBytes c file z r) release
  if upd ≠ 0 then modC k fun c => c.setC cb (base.withCursor (base.cursor + ofInt 64 upd))
  pure .seq

end Sys2Proof.Machine
end

