-- ==== Sys2Proof/Machine/Alu.lean ====
section
/-!
DEFINITION. Integer operations, compares, immediates, LUI and PFX (R107–R109).
-/
namespace Sys2Proof.Machine

/-- An ALU register instruction: gd := f ga gb (R108). -/
def aluRR (f7 : Nat) (f : Word → Word → Word) (k : CoreId) (d a b : BitVec 5) (s : State) : Res :=
  coreInstr k (mkInsn (encRR 0x10 d.toNat a.toNat b.toNat 0 f7) [gN a, gN b] [gN d])
    (onCore k fun c => c.setG d.toNat (f (c.gR a.toNat) (c.gR b.toNat))) s

/-- An ALU immediate instruction: gd := f ga imm (R109). -/
def aluRI (f3 : Nat) (pfx : Bool) (f : Word → Word → Word) (k : CoreId) (d a : BitVec 5) (imm : BitVec 12) (s : State) : Res :=
  coreInstr k { mkInsn (encRI 0x11 d.toNat a.toNat f3 imm.toNat) [gN a] [gN d] with pfx := pfx }
    (onCore k fun c => c.setG d.toNat (f (c.gR a.toNat) (ofInt 64 (immOf c imm)))) s

/-- A shift immediate: funct3 6, imm12[7:6] the operation (R109). -/
def aluShift (op : Nat) (f : Word → Nat → Word) (k : CoreId) (d a : BitVec 5) (sh : BitVec 6) (s : State) : Res :=
  coreInstr k (mkInsn (encRI 0x11 d.toNat a.toNat 6 (op * 64 + sh.toNat)) [gN a] [gN d])
    (onCore k fun c => c.setG d.toNat (f (c.gR a.toNat) sh.toNat)) s

/-- A conditional move: gd := ga where `p gb`, else gd unchanged (R108). -/
def aluMov (f7 : Nat) (p : Word → Bool) (k : CoreId) (d a b : BitVec 5) (s : State) : Res :=
  coreInstr k (mkInsn (encRR 0x10 d.toNat a.toNat b.toNat 0 f7) [gN a, gN b] [gN d])
    (onCore k fun c => if p (c.gR b.toNat) then c.setG d.toNat (c.gR a.toNat) else c) s

/-- An instruction of one operand, whose b field must be 0 (R108). -/
def aluUn (f7 : Nat) (f : Word → Word) (k : CoreId) (d a b : BitVec 5) (s : State) : Res :=
  coreInstr k (mkInsn (encRR 0x10 d.toNat a.toNat b.toNat 0 f7) [gN a] [gN d])
    (if b ≠ 0 then illegal else onCore k fun c => c.setG d.toNat (f (c.gR a.toNat))) s

/-- gb[5:0] (R108). -/
def sh6 (x : Word) : Nat := x.toNat % 64

/-- Leading zeros of `x` among its low `n` bits. -/
def clzFrom (x : Word) : Nat → Nat
  | 0 => 0
  | n + 1 => if bitB x n then 0 else 1 + clzFrom x n
/-- Trailing zeros of `x` from bit i on, `n` bits left. -/
def ctzFrom (x : Word) (i : Nat) : Nat → Nat
  | 0 => 0
  | n + 1 => if bitB x i then 0 else 1 + ctzFrom x (i + 1) n
/-- Set bits among the low `n` bits of `x`. -/
def popFrom (x : Word) : Nat → Nat
  | 0 => 0
  | n + 1 => b2n (bitB x n) + popFrom x n

def fShl (x y : Word) : Word := x <<< sh6 y
def fShr (x y : Word) : Word := x >>> sh6 y
def fSar (x y : Word) : Word := x.sshiftRight (sh6 y)
def fRol (x y : Word) : Word := x.rotateLeft (sh6 y)
def fRor (x y : Word) : Word := x.rotateRight (sh6 y)
def fSeq (x y : Word) : Word := b2w (x == y)
def fSne (x y : Word) : Word := b2w (x != y)
def fSlt (x y : Word) : Word := b2w (x.slt y)
def fSltu (x y : Word) : Word := b2w (x.ult y)
def fSge (x y : Word) : Word := b2w (!x.slt y)
def fSgeu (x y : Word) : Word := b2w (!x.ult y)
def fClz (x : Word) : Word := BitVec.ofNat 64 (clzFrom x 64)
def fCtz (x : Word) : Word := BitVec.ofNat 64 (ctzFrom x 0 64)
def fPopc (x : Word) : Word := BitVec.ofNat 64 (popFrom x 64)

def execAdd (k : CoreId) (d a b : BitVec 5) (s : State) : Res := aluRR 0x00 (· + ·) k d a b s
def execSub (k : CoreId) (d a b : BitVec 5) (s : State) : Res := aluRR 0x01 (· - ·) k d a b s
def execAndI (k : CoreId) (d a b : BitVec 5) (s : State) : Res := aluRR 0x02 (· &&& ·) k d a b s
def execOrI (k : CoreId) (d a b : BitVec 5) (s : State) : Res := aluRR 0x03 (· ||| ·) k d a b s
def execXorI (k : CoreId) (d a b : BitVec 5) (s : State) : Res := aluRR 0x04 (· ^^^ ·) k d a b s
def execAndn (k : CoreId) (d a b : BitVec 5) (s : State) : Res := aluRR 0x05 (fun x y => x &&& ~~~y) k d a b s
def execShl (k : CoreId) (d a b : BitVec 5) (s : State) : Res := aluRR 0x06 fShl k d a b s
def execShr (k : CoreId) (d a b : BitVec 5) (s : State) : Res := aluRR 0x07 fShr k d a b s
def execSar (k : CoreId) (d a b : BitVec 5) (s : State) : Res := aluRR 0x08 fSar k d a b s
def execRol (k : CoreId) (d a b : BitVec 5) (s : State) : Res := aluRR 0x09 fRol k d a b s
def execRor (k : CoreId) (d a b : BitVec 5) (s : State) : Res := aluRR 0x0A fRor k d a b s
def execSeq (k : CoreId) (d a b : BitVec 5) (s : State) : Res := aluRR 0x10 fSeq k d a b s
def execSne (k : CoreId) (d a b : BitVec 5) (s : State) : Res := aluRR 0x11 fSne k d a b s
def execSlt (k : CoreId) (d a b : BitVec 5) (s : State) : Res := aluRR 0x12 fSlt k d a b s
def execSltu (k : CoreId) (d a b : BitVec 5) (s : State) : Res := aluRR 0x13 fSltu k d a b s
def execSge (k : CoreId) (d a b : BitVec 5) (s : State) : Res := aluRR 0x14 fSge k d a b s
def execSgeu (k : CoreId) (d a b : BitVec 5) (s : State) : Res := aluRR 0x15 fSgeu k d a b s
def execMovz (k : CoreId) (d a b : BitVec 5) (s : State) : Res := aluMov 0x18 (· == 0) k d a b s
def execMovnz (k : CoreId) (d a b : BitVec 5) (s : State) : Res := aluMov 0x19 (· != 0) k d a b s
def execClz (k : CoreId) (d a b : BitVec 5) (s : State) : Res := aluUn 0x20 fClz k d a b s
def execCtz (k : CoreId) (d a b : BitVec 5) (s : State) : Res := aluUn 0x21 fCtz k d a b s
def execPopc (k : CoreId) (d a b : BitVec 5) (s : State) : Res := aluUn 0x22 fPopc k d a b s

def execAddi (k : CoreId) (d a : BitVec 5) (imm : BitVec 12) (s : State) : Res := aluRI 0 true (· + ·) k d a imm s
def execAndi (k : CoreId) (d a : BitVec 5) (imm : BitVec 12) (s : State) : Res := aluRI 1 true (· &&& ·) k d a imm s
def execOri (k : CoreId) (d a : BitVec 5) (imm : BitVec 12) (s : State) : Res := aluRI 2 true (· ||| ·) k d a imm s
def execXori (k : CoreId) (d a : BitVec 5) (imm : BitVec 12) (s : State) : Res := aluRI 3 true (· ^^^ ·) k d a imm s
def execSlti (k : CoreId) (d a : BitVec 5) (imm : BitVec 12) (s : State) : Res := aluRI 4 true fSlt k d a imm s
def execSltiu (k : CoreId) (d a : BitVec 5) (imm : BitVec 12) (s : State) : Res := aluRI 5 true fSltu k d a imm s
def execSeqi (k : CoreId) (d a : BitVec 5) (imm : BitVec 12) (s : State) : Res := aluRI 7 true fSeq k d a imm s
def execShli (k : CoreId) (d a : BitVec 5) (sh : BitVec 6) (s : State) : Res := aluShift 0 (fun x n => x <<< n) k d a sh s
def execShri (k : CoreId) (d a : BitVec 5) (sh : BitVec 6) (s : State) : Res := aluShift 1 (fun x n => x >>> n) k d a sh s
def execSari (k : CoreId) (d a : BitVec 5) (sh : BitVec 6) (s : State) : Res := aluShift 2 (fun x n => x.sshiftRight n) k d a sh s
def execRori (k : CoreId) (d a : BitVec 5) (sh : BitVec 6) (s : State) : Res := aluShift 3 (fun x n => x.rotateRight n) k d a sh s

/-- LUI: gd := imm20 × 2^12 sign-extended from bit 31 (R109). -/
def execLui (k : CoreId) (d : BitVec 5) (imm : BitVec 20) (s : State) : Res :=
  coreInstr k (mkInsn (0x12 + d.toNat * 2 ^ 7 + imm.toNat * 2 ^ 12) [] [gN d])
    (onCore k fun c => c.setG d.toNat (sext64 32 (imm.toNat * 2 ^ 12))) s

/-- PFX (R107): the word waits for the instruction it prefixes; the pair is one instruction, so an event due at its boundary
is taken here. PFX after PFX is an instruction that may not follow it. -/
def execPfx (k : CoreId) (imm : BitVec 25) (s : State) : Res :=
  if s.canIssue k false then
    match (s.core k).pfx with
    | some _ => coreInstr k (mkInsn (pfxWord imm) [] []) (onCore k id) s
    | none =>
      match (s.core k).due with
      | some e => .next (s.runOr do
          takeEvent k e
          modC k CoreState.stepped)
      | none => .next (s.modCore k fun c => { c with pfx := some imm })
  else .next s

end Sys2Proof.Machine
end

