-- ==== Sys2Proof/Machine/Flags.lean ====
section
/-!
DEFINITION. How an arithmetic instruction delivers its results, sets CS_FPFLAGS and makes enabled exceptions pending
(R133, R152–R156), for long operations and for those that finish in the pipeline.
-/
namespace Sys2Proof.Machine

/-- The conditions of `fl` whose enable bit in CS_FPCTL is 1 (R152). -/
def CoreState.enabled (c : CoreState) (fl : Flags8) : Flags8 := fl &&& (c.csGet R.CS_FPCTL).extractLsb' 8 8

/-- The operation of instruction word `word` at CS_PCC with the given results and conditions. DEDUCED, log entry 90. -/
def CoreState.mkOp (c : CoreState) (word : Nat) (writes : List (Dst × DVal)) (fl : Flags8) : LongOp :=
  let en := c.enabled fl
  ⟨writes, fl, if en = 0 then none else some ⟨c.opCount, en.toNat, word % 128, word / 2 ^ 25 % 128, c.pcc.cursor⟩⟩

/-- The operation put in flight, or completed at once: a short one, or any with PA = 1 (R156). After a short one with an exception no
instruction issues before the trap, where R153 lets some: DESIGN CHOICE, log entry 124. -/
def CoreState.deliver (c : CoreState) (long : Bool) (word : Nat) (writes : List (Dst × DVal)) (fl : Flags8) : CoreState :=
  let op := c.mkOp word writes fl
  let c := { c with opCount := c.opCount + 1 }
  if long && c.csF R.CS_STATUS F.CS_STATUS_PA == 0 then { c with longs := c.longs ++ [op] } else c.longDone op

/-- The body of an arithmetic instruction without traps of its own. DEDUCED, log entry 90. -/
def deliver (k : CoreId) (long : Bool) (word : Nat) (f : CoreState → List (Dst × DVal) × Flags8) : CM Next :=
  onCore k fun c => let r := f c; c.deliver long word r.1 r.2

/-- A destination pair field: even and nonzero (R135). -/
def needPairD (n : BitVec 5) : CM Unit := if n.toNat % 2 = 0 ∧ n.toNat ≠ 0 then pure () else illegal
/-- A source pair field: even (R135). -/
def needPairS (n : BitVec 5) : CM Unit := if n.toNat % 2 = 0 then pure () else illegal

/-- A 128-bit value into the pair gd (R135). -/
def pairWrites (c : CoreState) (d : BitVec 5) (v : Nat) : List (Dst × DVal) :=
  [(c.gDst d.toNat, .w (BitVec.ofNat 64 v)), (c.gDst (d.toNat + 1), .w (BitVec.ofNat 64 (v / 2 ^ 64)))]
/-- Both words of the pair gd. -/
def wordsTo (c : CoreState) (d : BitVec 5) (lo hi : Word) : List (Dst × DVal) :=
  [(c.gDst d.toNat, .w lo), (c.gDst (d.toNat + 1), .w hi)]
/-- The second register of a pair, for operand lists. -/
def gN1 (n : BitVec 5) (c : CoreState) : Dst := c.gDst (n.toNat + 1)

end Sys2Proof.Machine
end

