-- ==== Sys2Proof/Machine/Arith.lean ====
section
/-!
DEFINITION. Binary integer carry, multiply and divide (R135, R136) and packed decimal (R137–R141).
-/
namespace Sys2Proof.Machine

/-! Carry chains (R135) -/

/-- The number of the carry register gc. -/
def gcNum (f3 : BitVec 3) : Nat := 24 + f3.toNat

/-- An instruction with a carry register: sum and carry out from ga, gb and gc[0]. -/
def carryOp (op f7 : Nat) (f : CoreState → Nat → Nat → Nat → Nat × Nat × Flags8) (k : CoreId) (d a b : BitVec 5) (f3 : BitVec 3)
    (s : State) : Res :=
  let w := encRR op d.toNat a.toNat b.toNat f3.toNat f7
  let gc (c : CoreState) : Dst := c.gDst (gcNum f3)
  coreInstr k (mkInsn w [gN a, gN b, gc] [gN d, gc])
    (if d.toNat = gcNum f3 then illegal
     else deliver k false w fun c =>
      let r := f c (c.gR a.toNat).toNat (c.gR b.toNat).toNat ((c.gR (gcNum f3)).toNat % 2)
      ([(c.gDst d.toNat, .w (BitVec.ofNat 64 r.1)), (gc c, .w (BitVec.ofNat 64 r.2.1))], r.2.2)) s

def adcFn (_ : CoreState) (x y c : Nat) : Nat × Nat × Flags8 := ((x + y + c) % 2 ^ 64, (x + y + c) / 2 ^ 64, 0)
def sbcFn (_ : CoreState) (x y c : Nat) : Nat × Nat × Flags8 := ((x + 2 ^ 65 - y - c) % 2 ^ 64, if x < y + c then 1 else 0, 0)

def execAdc (k : CoreId) (d a b : BitVec 5) (f3 : BitVec 3) (s : State) : Res := carryOp 0x14 0x00 adcFn k d a b f3 s
def execSbc (k : CoreId) (d a b : BitVec 5) (f3 : BitVec 3) (s : State) : Res := carryOp 0x14 0x01 sbcFn k d a b f3 s

/-! Multiply and divide -/

/-- A long operation to gd. -/
def longG (f7 : Nat) (f : Word → Word → Word × Flags8) (k : CoreId) (d a b : BitVec 5) (s : State) : Res :=
  let w := encRR 0x14 d.toNat a.toNat b.toNat 0 f7
  coreInstr k (mkInsn w [gN a, gN b] [gN d])
    (deliver k true w fun c =>
      let r := f (c.gR a.toNat) (c.gR b.toNat)
      ([(c.gDst d.toNat, .w r.1)], r.2)) s

/-- A long operation to the pair gd. -/
def longPair (f7 : Nat) (f : Word → Word → BitVec 128) (k : CoreId) (d a b : BitVec 5) (s : State) : Res :=
  let w := encRR 0x14 d.toNat a.toNat b.toNat 0 f7
  coreInstr k (mkInsn w [gN a, gN b] [gN d, gN1 d]) (do
    needPairD d
    deliver k true w fun c => (pairWrites c d (f (c.gR a.toNat) (c.gR b.toNat)).toNat, 0)) s

/-- R136. -/
def divFn (x y : Word) : Word × Flags8 :=
  if y = 0 then (0, fIDIV)
  else if x = 0x8000000000000000 ∧ y = 0xFFFFFFFFFFFFFFFF then (0x8000000000000000, fIDIV)
  else (ofInt 64 (x.toInt.tdiv y.toInt), 0)
def divuFn (x y : Word) : Word × Flags8 := if y = 0 then (0, fIDIV) else (BitVec.ofNat 64 (x.toNat / y.toNat), 0)
def remFn (x y : Word) : Word × Flags8 :=
  if y = 0 then (x, fIDIV)
  else if x = 0x8000000000000000 ∧ y = 0xFFFFFFFFFFFFFFFF then (0, fIDIV)
  else (ofInt 64 (x.toInt.tmod y.toInt), 0)
def remuFn (x y : Word) : Word × Flags8 := if y = 0 then (x, fIDIV) else (BitVec.ofNat 64 (x.toNat % y.toNat), 0)
def mulwFn (x y : Word) : BitVec 128 := ofInt 128 (x.toInt * y.toInt)
def mulwuFn (x y : Word) : BitVec 128 := BitVec.ofNat 128 (x.toNat * y.toNat)

def execMul (k : CoreId) (d a b : BitVec 5) (s : State) : Res := longG 0x02 (fun x y => (x * y, 0)) k d a b s
def execMulw (k : CoreId) (d a b : BitVec 5) (s : State) : Res := longPair 0x03 mulwFn k d a b s
def execMulwu (k : CoreId) (d a b : BitVec 5) (s : State) : Res := longPair 0x04 mulwuFn k d a b s
def execDiv (k : CoreId) (d a b : BitVec 5) (s : State) : Res := longG 0x05 divFn k d a b s
def execDivu (k : CoreId) (d a b : BitVec 5) (s : State) : Res := longG 0x06 divuFn k d a b s
def execRem (k : CoreId) (d a b : BitVec 5) (s : State) : Res := longG 0x07 remFn k d a b s
def execRemu (k : CoreId) (d a b : BitVec 5) (s : State) : Res := longG 0x08 remuFn k d a b s

/-! Instructions of opcode 0x20 (R139–R141) -/

def encD (d a b f3 f7 : Nat) : Nat := encRR 0x20 d a b f3 f7

/-- A packed instruction to gd. -/
def packG (long : Bool) (f3 f7 : Nat) (f : Word → Word → Word × Flags8) (k : CoreId) (d a b : BitVec 5) : CM Next :=
  deliver k long (encD d.toNat a.toNat b.toNat f3 f7) fun c =>
    let r := f (c.gR a.toNat) (c.gR b.toNat)
    ([(c.gDst d.toNat, .w r.1)], r.2)

def packInsn (f3 f7 : Nat) (d a b : BitVec 5) : Insn := mkInsn (encD d.toNat a.toNat b.toNat f3 f7) [gN a, gN b] [gN d]

def dadduFn (_ : CoreState) (x y c : Nat) : Nat × Nat × Flags8 :=
  match uVal (BitVec.ofNat 64 x), uVal (BitVec.ofNat 64 y) with
  | some u, some v => ((uEnc ((u + v + c) % 10 ^ 16)).toNat, (u + v + c) / 10 ^ 16, 0)
  | _, _ => (allOnes.toNat, 0, fDIGIT)
def dsubuFn (_ : CoreState) (x y c : Nat) : Nat × Nat × Flags8 :=
  match uVal (BitVec.ofNat 64 x), uVal (BitVec.ofNat 64 y) with
  | some u, some v => ((uEnc ((u + 2 * 10 ^ 16 - v - c) % 10 ^ 16)).toNat, if u < v + c then 1 else 0, 0)
  | _, _ => (allOnes.toNat, 0, fDIGIT)

/-- The binary carry out of nibble i of the sum (R140). -/
def dadjK (r y c i : Nat) : Nat := if i < 15 then (r ^^^ y) / 2 ^ (4 * i + 4) % 2 else c
/-- Nibbles i, i + 1, … of dadj(), `n` left. -/
def dadjLoop (r0 y c : Nat) (i : Nat) : Nat → Nat × Nat → Nat × Nat
  | 0, x => x
  | n + 1, (r, cout) =>
    if dadjK r0 y c i = 1 ∨ nib r i > 9 then
      let t := r + 6 * 16 ^ i
      dadjLoop r0 y c (i + 1) n (t % 2 ^ 64, if t ≥ 2 ^ 64 then 1 else cout)
    else dadjLoop r0 y c (i + 1) n (r, cout)
def dadjFn (_ : CoreState) (r y c : Nat) : Nat × Nat × Flags8 :=
  let x := dadjLoop r y c 0 16 (r, c)
  (x.1, x.2, 0)

def execDaddu (k : CoreId) (d a b : BitVec 5) (f3 : BitVec 3) (s : State) : Res := carryOp 0x20 0x00 dadduFn k d a b f3 s
def execDsubu (k : CoreId) (d a b : BitVec 5) (f3 : BitVec 3) (s : State) : Res := carryOp 0x20 0x01 dsubuFn k d a b f3 s
def execDadj (k : CoreId) (d a b : BitVec 5) (f3 : BitVec 3) (s : State) : Res := carryOp 0x20 0x06 dadjFn k d a b f3 s

/-- S(s(ga) ± s(gb)). -/
def dsumFn (f : Int → Int → Int) (x y : Word) : Word × Flags8 :=
  match sVal x, sVal y with
  | some u, some v => sEnc (f u v)
  | _, _ => (allOnes, fDIGIT)

def execDadd (k : CoreId) (d a b : BitVec 5) (s : State) : Res :=
  coreInstr k (packInsn 0 0x02 d a b) (packG false 0 0x02 (dsumFn (· + ·)) k d a b) s
def execDsub (k : CoreId) (d a b : BitVec 5) (s : State) : Res :=
  coreInstr k (packInsn 0 0x03 d a b) (packG false 0 0x03 (dsumFn (· - ·)) k d a b) s

/-- The quad operand of a pair (R137). -/
def pairQ (c : CoreState) (a : BitVec 5) : Option Int := qVal (c.gR a.toNat) (c.gR (a.toNat + 1))

/-- Pair gd := Q(q(ga) ± q(gb)). -/
def quadSum (f7 : Nat) (f : Int → Int → Int) (k : CoreId) (d a b : BitVec 5) (s : State) : Res :=
  let w := encD d.toNat a.toNat b.toNat 0 f7
  coreInstr k (mkInsn w [gN a, gN1 a, gN b, gN1 b] [gN d, gN1 d]) (do
    needPairD d
    needPairS a
    needPairS b
    deliver k true w fun c =>
      match pairQ c a, pairQ c b with
      | some u, some v => let r := qEnc (f u v); (wordsTo c d r.1 r.2.1, r.2.2)
      | _, _ => (wordsTo c d allOnes allOnes, fDIGIT)) s

def execDaddq (k : CoreId) (d a b : BitVec 5) (s : State) : Res := quadSum 0x04 (· + ·) k d a b s
def execDsubq (k : CoreId) (d a b : BitVec 5) (s : State) : Res := quadSum 0x05 (· - ·) k d a b s

/-- The 32-digit product of unsigned operands, or the quad product of signed ones (R139). -/
def dmulwFn (f3 : Nat) (x y : Word) : Word × Word × Flags8 :=
  if f3 = 0 then
    match uVal x, uVal y with
    | some u, some v => (uEnc (u * v % 10 ^ 16), uEnc (u * v / 10 ^ 16), 0)
    | _, _ => (allOnes, allOnes, fDIGIT)
  else
    match sVal x, sVal y with
    | some u, some v => qEnc (u * v)
    | _, _ => (allOnes, allOnes, fDIGIT)

def execDmulw (k : CoreId) (d a b : BitVec 5) (f3 : BitVec 3) (s : State) : Res :=
  let w := encD d.toNat a.toNat b.toNat f3.toNat 0x07
  coreInstr k (mkInsn w [gN a, gN b] [gN d, gN1 d]) (do
    if f3.toNat > 1 then illegal
    needPairD d
    deliver k true w fun c =>
      let r := dmulwFn f3.toNat (c.gR a.toNat) (c.gR b.toNat)
      (wordsTo c d r.1 r.2.1, r.2.2)) s

/-- DSHL: a shift by gb digits, any count (R139). -/
def dshlFn (f3 : Nat) (x y : Word) : Word × Flags8 :=
  let k := min y.toNat 31
  if f3 = 0 then
    match uVal x with
    | some u => (uEnc (u * 10 ^ k % 10 ^ 16), 0)
    | none => (allOnes, fDIGIT)
  else
    match sVal x with
    | some v => sEnc (v * (10 ^ k : Nat))
    | none => (allOnes, fDIGIT)

def execDshl (k : CoreId) (d a b : BitVec 5) (f3 : BitVec 3) (s : State) : Res :=
  coreInstr k (packInsn f3.toNat 0x08 d a b)
    (if f3.toNat > 1 then illegal else packG false f3.toNat 0x08 (dshlFn f3.toNat) k d a b) s

/-- v ÷ 10^k in magnitude: truncated, or rounded half away from zero by the highest discarded digit. -/
def dshrMag (round : Bool) (v k : Nat) : Nat :=
  if round ∧ k ≠ 0 ∧ v / 10 ^ (k - 1) % 10 ≥ 5 then v / 10 ^ k + 1 else v / 10 ^ k
def dshrFn (f3 : Nat) (x y : Word) : Word × Flags8 :=
  let k := min y.toNat 31
  if f3 % 2 = 0 then
    match uVal x with
    | some u => (uEnc (dshrMag (f3 ≥ 2) u k), 0)
    | none => (allOnes, fDIGIT)
  else
    match sVal x with
    | some v => sEnc (let m := dshrMag (f3 ≥ 2) v.natAbs k; if v < 0 then -(m : Int) else m)
    | none => (allOnes, fDIGIT)

def execDshr (k : CoreId) (d a b : BitVec 5) (f3 : BitVec 3) (s : State) : Res :=
  coreInstr k (packInsn f3.toNat 0x09 d a b)
    (if f3.toNat > 3 then illegal else packG false f3.toNat 0x09 (dshrFn f3.toNat) k d a b) s

/-- The relation of DCMP and DCMPQ: 0 EQ, 1 NE, 2 LT, 3 LE. -/
def decRel (n : Nat) (u v : Int) : Bool :=
  match n with
  | 0 => u == v | 1 => u != v | 2 => decide (u < v) | _ => decide (u ≤ v)
def relRes (n : Nat) (u v : Option Int) : Word × Flags8 :=
  match u, v with
  | some u, some v => (b2w (decRel n u v), 0)
  | _, _ => (0, fDIGIT)
def dcmpFn (f3 : Nat) (x y : Word) : Word × Flags8 :=
  if f3 ≤ 3 then relRes f3 (sVal x) (sVal y)
  else relRes (f3 - 2) ((uVal x).map (Nat.cast)) ((uVal y).map (Nat.cast))

def execDcmp (k : CoreId) (d a b : BitVec 5) (f3 : BitVec 3) (s : State) : Res :=
  coreInstr k (packInsn f3.toNat 0x0A d a b)
    (if f3.toNat > 5 then illegal else packG false f3.toNat 0x0A (dcmpFn f3.toNat) k d a b) s

def execDcmpq (k : CoreId) (d a b : BitVec 5) (f3 : BitVec 3) (s : State) : Res :=
  let w := encD d.toNat a.toNat b.toNat f3.toNat 0x0B
  coreInstr k (mkInsn w [gN a, gN1 a, gN b, gN1 b] [gN d]) (do
    if f3.toNat > 3 then illegal
    needPairS a
    needPairS b
    deliver k true w fun c =>
      let r := relRes f3.toNat (pairQ c a) (pairQ c b)
      ([(c.gDst d.toNat, .w r.1)], r.2)) s

/-- The ASCII digits of a word, byte 0 most significant; none where a byte is no digit (R139). -/
def asciiVal (x : Nat) : Nat → Nat → Option Nat
  | 0, acc => some acc
  | n + 1, acc => let b := x % 256; if 0x30 ≤ b ∧ b ≤ 0x39 then asciiVal (x / 256) n (acc * 10 + (b - 0x30)) else none
def dpackFn (x y : Word) : Word × Flags8 :=
  match uVal x, asciiVal y.toNat 8 0 with
  | some u, some n => (uEnc ((u * 10 ^ 8 + n) % 10 ^ 16), 0)
  | _, _ => (allOnes, fDIGIT)
/-- Eight packed digits as ASCII, the highest digit in byte 0. -/
def asciiOf (digits : Nat) : Nat → Nat
  | 0 => 0
  | n + 1 => 0x30 + nib digits n + 256 * asciiOf digits n
def dunpkFn (x y : Word) : Word × Flags8 :=
  let ds := x.toNat / 16 ^ (8 * (y.toNat % 2)) % 16 ^ 8
  if bcdOk ds 8 then (BitVec.ofNat 64 (asciiOf ds 8), 0) else (allOnes, fDIGIT)

def execDpack (k : CoreId) (d a b : BitVec 5) (s : State) : Res :=
  coreInstr k (packInsn 0 0x0C d a b) (packG true 0 0x0C dpackFn k d a b) s
def execDunpk (k : CoreId) (d a b : BitVec 5) (s : State) : Res :=
  coreInstr k (packInsn 0 0x0D d a b) (packG true 0 0x0D dunpkFn k d a b) s

def dcvtbFn (f3 : Nat) (x : Word) : Word × Flags8 :=
  match if f3 = 0 then sVal x else (uVal x).map (Nat.cast) with
  | some v => (ofInt 64 v, 0)
  | none => (0x8000000000000000, fDIGIT)
def dcvtdFn (f3 : Nat) (x : Word) : Word × Flags8 :=
  if f3 = 0 then sEnc x.toInt else (uEnc (x.toNat % 10 ^ 16), flagIf (x.toNat ≥ 10 ^ 16) fDOVF)

def execDcvtb (k : CoreId) (d a : BitVec 5) (f3 : BitVec 3) (s : State) : Res :=
  coreInstr k (mkInsn (encD d.toNat a.toNat 0 f3.toNat 0x0E) [gN a] [gN d])
    (if f3.toNat > 1 then illegal else packG true f3.toNat 0x0E (fun x _ => dcvtbFn f3.toNat x) k d a 0) s
def execDcvtd (k : CoreId) (d a : BitVec 5) (f3 : BitVec 3) (s : State) : Res :=
  coreInstr k (mkInsn (encD d.toNat a.toNat 0 f3.toNat 0x0F) [gN a] [gN d])
    (if f3.toNat > 1 then illegal else packG true f3.toNat 0x0F (fun x _ => dcvtdFn f3.toNat x) k d a 0) s

def execDchk (k : CoreId) (d a : BitVec 5) (f3 : BitVec 3) (s : State) : Res :=
  let w := encD d.toNat a.toNat 0 f3.toNat 0x10
  coreInstr k (mkInsn w [gN a, if f3 = 2 then gN1 a else gN a] [gN d]) (do
    if f3.toNat > 2 then illegal
    if f3 = 2 then needPairS a
    deliver k false w fun c =>
      let ok := match f3.toNat with
        | 0 => (uVal (c.gR a.toNat)).isSome
        | 1 => (sVal (c.gR a.toNat)).isSome
        | _ => (pairQ c a).isSome
      ([(c.gDst d.toNat, .w (b2w ok))], 0)) s

end Sys2Proof.Machine
end

