-- ==== Sys2Proof/Machine/Coins.lean ====
section
/-!
DEFINITION. The coin register instructions (R60–R64).
-/
namespace Sys2Proof.Machine

/-- A tagged sealed coin given to CLIP, CSETC, CADD, CADDI or CLIPI: trap 0x07, cause SEALED, KIND 15 (R56, R61). -/
def notSealed (a : BitVec 5) (x : Coin) : CM Unit :=
  if x.tag && bitB x.rights 6 then
    trapM ⟨0x07, 0, [(R.CS_CFINFO, cfinfo CoinCause.sealed.code 15 a.toNat 0 x.purse), (R.CS_FADDR, x.cursor)]⟩
  else pure ()

/-- cd := f ca, sealed coins refused when `guarded` (R61). -/
def coinUn (guarded : Bool) (i : Insn) (k : CoreId) (d a : BitVec 5) (f : CoreState → Coin → Coin) (s : State) : Res :=
  coreInstr k i (do
    needC d
    needC a
    let c ← getC k
    let x := c.cR a.toNat
    if guarded then notSealed a x
    onCore k fun c => c.setC d.toNat (f c x)) s

/-- A CR word. -/
def encCR (d a b : BitVec 5) (f7 : Nat) : Nat := encRR 0x28 d.toNat a.toNat b.toNat 0 f7
/-- A CI word. -/
def encCI (d a : BitVec 5) (f3 : Nat) (imm : BitVec 12) : Nat := encRI 0x29 d.toNat a.toNat f3 imm.toNat

/-- gb[11:0] as rights. -/
def rights12 (x : Word) : BitVec 12 := x.extractLsb' 0 12

def execCmov (k : CoreId) (d a : BitVec 5) (s : State) : Res :=
  coinUn false (mkInsn (encCR d a 0 0x00) [cN a] [cN d]) k d a (fun _ x => x) s
def execClip (k : CoreId) (d a b : BitVec 5) (s : State) : Res :=
  coinUn true (mkInsn (encCR d a b 0x01) [cN a, gN b] [cN d]) k d a (fun c x => x.withRights (x.rights &&& rights12 (c.gR b.toNat))) s
def execCsetc (k : CoreId) (d a b : BitVec 5) (s : State) : Res :=
  coinUn true (mkInsn (encCR d a b 0x02) [cN a, gN b] [cN d]) k d a (fun c x => x.withCursor (c.gR b.toNat)) s
def execCadd (k : CoreId) (d a b : BitVec 5) (s : State) : Res :=
  coinUn true (mkInsn (encCR d a b 0x03) [cN a, gN b] [cN d]) k d a (fun c x => x.withCursor (x.cursor + c.gR b.toNat)) s
def execCclrt (k : CoreId) (d a : BitVec 5) (s : State) : Res :=
  coinUn false (mkInsn (encCR d a 0 0x07) [cN a] [cN d]) k d a (fun _ x => { x with tag := false }) s
def execCaddi (k : CoreId) (d a : BitVec 5) (imm : BitVec 12) (s : State) : Res :=
  coinUn true { mkInsn (encCI d a 0 imm) [cN a] [cN d] with pfx := true } k d a
    (fun c x => x.withCursor (x.cursor + ofInt 64 (immOf c imm))) s
def execClipi (k : CoreId) (d a : BitVec 5) (imm : BitVec 12) (s : State) : Res :=
  coinUn true (mkInsn (encCI d a 1 imm) [cN a] [cN d]) k d a (fun _ x => x.withRights (x.rights &&& imm)) s

/-- The field of a coin that CGET selects; none for an illegal sel (R61). -/
def coinField (x : Coin) (sel : Nat) : Option Word :=
  match sel with
  | 0 => some x.cursor
  | 1 => some (BitVec.ofNat 64 x.purse)
  | 2 => some (BitVec.ofNat 64 x.issue)
  | 3 => some (x.rights.zeroExtend 64)
  | 4 => some (b2w x.tag)
  | 5 => some (x.bits.extractLsb' 64 64)
  | _ => none

def execCget (k : CoreId) (d a : BitVec 5) (sel : BitVec 5) (s : State) : Res :=
  coreInstr k (mkInsn (encCR d a sel 0x04) [cN a] [gN d]) (do
    needC a
    let c ← getC k
    match coinField (c.cR a.toNat) sel.toNat with
    | none => illegal
    | some w => onCore k fun c => c.setG d.toNat w) s

def execCeq (k : CoreId) (d a b : BitVec 5) (s : State) : Res :=
  coreInstr k (mkInsn (encCR d a b 0x05) [cN a, cN b] [gN d]) (do
    needC a
    needC b
    onCore k fun c => c.setG d.toNat (b2w (c.cR a.toNat == c.cR b.toNat))) s

/-- The cause code CPROBE reports for a coin (R64): 0 for a pass, 14 for a failed purse read. -/
def probeCode (k : CoreId) (x : Coin) (kind : Nat) (s : State) : Nat × State :=
  match checkBefore s.ptbCount x with
  | some e => (e.code, s)
  | none =>
    match s.purseCached k x.purse with
    | (.ok p, s') =>
      ((match checkEntry p x (checkAddr x 0) 1 kind none (s.core k).ring (s.core k).asid with | some e => e.code | none => 0), s')
    | (_, s') => (14, s')

def execCprobe (k : CoreId) (d a b : BitVec 5) (s : State) : Res :=
  coreInstr k (mkInsn (encCR d a b 0x06) [cN a, gN b] [gN d]) (do
    needC a
    let c ← getC k
    let kind := (c.gR b.toNat).toNat % 16
    if kind > 14 then illegal
    else
      let code ← liftS (probeCode k (c.cR a.toNat) kind)
      onCore k fun c => c.setG d.toNat (BitVec.ofNat 64 code)) s

def execCpack (k : CoreId) (d a b : BitVec 5) (s : State) : Res :=
  coreInstr k (mkInsn (encCR d a b 0x08) [gN a, gN b] [cN d]) (do
    needC d
    onCore k fun c => c.setC d.toNat ⟨c.gR b.toNat ++ c.gR a.toNat, false⟩) s

end Sys2Proof.Machine
end

