-- ==== Sys2Proof/Machine/UnitOps.lean ====
section
/-!
DEFINITION. What steward operations do (R420–R425, R431, R432): fencing and resuming units, power off and on, retirement,
handover; fences that FATAL records make (R29, R423); the commands that ask for operations and end them.
-/
namespace Sys2Proof.Machine

/-! Fencing (R422) -/

/-- What a core leaves behind when it stops for good or for a while: its accesses performed, its long operations done, the mint
reserve pushed back, its purse cache dropped (R69, R79). It waits for a recall in progress and for
an access that awaits a peer. -/
def State.quietCore (s : State) (k : CoreId) : State :=
  let s := (s.performAll k).modCore k CoreState.longsDone
  let s := s.blockIf ((s.core k).recallW.isSome || (s.core k).flight.isSome)
  (s.dropReserve k).dropPurseCache k

def clusterCores (n : Nat) : List Nat := (List.range 8).map (8 * n + ·)

/-- Cluster c's L2s written back and invalidated, its snoop filter empty (R422). What they held of local memory stands at the home slices;
a line of a peer's memory that no other cluster holds leaves the socket, modified data with WBK. -/
def State.emptyL2s (s : State) (c : Nat) : State :=
  let own := coresOf (BitVec.ofNat 16 (2 ^ c))
  let s := (s.rlines.filter fun l => s.l2sOf l.pa != 0 && s.l2sOf l.pa &&& ~~~own == 0).foldl (fun s l => s.dropRLine l.pa false) s
  { s with l2dir := s.l2dir.foldl (fun m e => SMap.set noHolders m e.1 (e.2.drop c)) s.l2dir,
           l2s := s.l2s.foldl (fun m e => SMap.set noCores m e.1 (e.2 &&& ~~~own)) s.l2s }

/-- The effect of fencing unit u, its state apart. DEDUCED, log entry 59. DEDUCED, log entry 76. -/
def State.fenceEffect (s : State) (u : Nat) : State :=
  let n := u % 16
  match unitKind u with
  | .core => s.quietCore (coreOf u)
  | .cluster =>
    let c := u - 0x80
    let s := (clusterCores c).foldl (fun (s : State) k =>
      if s.unitState k = 0 then { (s.quietCore (coreOf k)).setUnit k 2 1 with byCluster := s.byCluster ++ [k] } else s) s
    (s.emptyL2s c).leaveDirs c
  | .memory => (s.dropChannel n 4).engineGone u
  | .group => s.groupDown n
  | .port => s.portDown (u - 0x130)
  | _ => s

/-- Unit u stands fenced: a FATAL cause met on the way stays (R423). -/
def State.nowFenced (s : State) (u : Nat) : State :=
  ((s.setUnit u 2 (if s.ustat u F.MGMT_USTAT_CAUSE = 2 then 2 else 1)).relines).degrade

/-- A FATAL record fences its unit at once (R29, R423); a fence that must wait for the core's accesses or its recall ends with its
steward's next operation. -/
def State.fatalFence (s : State) (u : Nat) : State :=
  let st := s.unitState u
  if unitKind u = .fixed ∨ st = 3 ∨ st = 4 ∨ st = 5 then s
  else
    let s := s.setUstat u F.MGMT_USTAT_CAUSE 2
    if st = 2 then s
    else if st = 1 then s.degrade
    else
      let t := s.fenceEffect u
      if t.blocked then
        (({ s with unitOps := s.unitOps ++ [UnitOp.mk u 1 0] } : State).setUstat u F.MGMT_USTAT_BUSY 1).setUstat u F.MGMT_USTAT_STATE 1
      else t.nowFenced u

/-! Coming back -/

/-- A fenced unit serves again (R420); a fenced group trains under LGP_CFG, a fenced port starts training.
DEDUCED, log entry 59. DEDUCED, log entry 76. -/
def State.unfenceEffect (s : State) (u : Nat) : State :=
  let n := u % 16
  let s := s.setUnit u 0 0
  let s := match unitKind u with
    | .cluster =>
      let c := u - 0x80
      let s := (s.byCluster.filter fun k => k / 8 == c && s.unitState k == 2).foldl (fun (s : State) k => s.setUnit k 0 0) s
      { s with byCluster := s.byCluster.filter fun k => k / 8 != c }
    | .group =>
      if layoutOk (s.reg (R.LGP_CFG u)) n then (s.setRf (R.LGP_CTL u) F.LGP_CTL_BADCFG 0).groupTrain n
      else s.setRf (R.LGP_CTL u) F.LGP_CTL_BADCFG 1
    | .port =>
      let p := u - 0x130
      if s.rf (R.PEER_CFG u) F.PEER_CFG_EN = 1 then
        (s.setPeerState p 1).setLink p s.identLink
      else s
    | _ => s
  (s.relines).restored

/-! Power (R420, R424, R425, R432) -/

/-- The hub forgets an offline core: A and L of sources it holds, its private P and A bits, its timers (R424). -/
def State.hubForget (s : State) (k : Nat) : State :=
  let held := s.csr.filter fun e => R.DBH_SRC 0 ≤ e.1 && e.1 < R.DBH_SRC 65536 && getF e.2 F.DBH_SRC_LCORE == k &&
    (getF e.2 F.DBH_SRC_A == 1 || getF e.2 F.DBH_SRC_L == 1)
  let s := held.foldl (fun s e => s.setReg e.1 (setF (setF e.2 F.DBH_SRC_A 0) F.DBH_SRC_L 0)) s
  let s := (List.range 64).foldl (fun s j => s.setPriv k j (mkPriv false false (privL (s.privOf k j)))) s
  (s.setReg (R.DBH_TCTL k) 0).relines

/-- The registers of unit u outside its control block back at their reset values. DESIGN CHOICE, log entry 70. -/
def State.resetUnitRegs (s : State) (u : Nat) : State :=
  { s with csr := s.csr.filter fun e => !(e.1 / 0x1000000 == u && decide (e.1 % 0x1000000 < 0xF00000)) }

/-- A lane group without power has no layout, no cached translation, no page request and nothing of its devices under way (R420). -/
def State.groupOff (s : State) (n : Nat) : State :=
  { s.setXcache (lg n) ⟨[], []⟩ with
    layouts := SMap.set (fun _ => 0) s.layouts (lg n) 0, prq := s.prq.filter (·.group != n),
    laneWrites := s.laneWrites.filter (·.req.group != n), dmaOut := s.dmaOut.filter (·.req.group != n),
    atsInvs := s.atsInvs.filter (·.group != n), invHeld := s.invHeld.filter (·.1 != n) }

/-- A core loses power. -/
def State.coreOff (s : State) (k : Nat) : State :=
  let s := (s.setCore (coreOf k) CoreState.reset).setUnit k 3 1
  ({ s with byCluster := s.byCluster.filter (· != k) } : State).hubForget k

/-- OFFLINE of unit u, fenced first if need be. DEDUCED, log entry 59. DESIGN CHOICE, log entry 70. -/
def State.offlineEffect (s : State) (u : Nat) : State :=
  let n := u % 16
  let st := s.unitState u
  let s := if st = 1 then s.fenceEffect u else s
  let s := match unitKind u with
    | .core => s.coreOff u
    | .cluster => ((clusterCores (u - 0x80)).foldl (fun (s : State) k => s.coreOff k) s).setUnit u 3 1
    | .group => ((s.groupOff n).resetUnitRegs u).setUnit u 3 1
    | .memory =>
      let s : State := { s with pins := { s.pins with ddrPwren := Sys2Proof.setF s.pins.ddrPwren ⟨n / 2, n / 2⟩ 0 } }
      (s.setUnit u 3 1).setUnit (u + 1) 3 1
    | _ => s
  (s.relines).degrade

/-- A core starts as RELEASE starts it (R412). DESIGN CHOICE, log entry 2. -/
def State.startCore (s : State) (k : CoreId) (r : EntryRec) : State :=
  s.modCore k fun _ =>
    let c := (CoreState.reset.write (.c 14) (.coin (if r.stkValid then ⟨r.stk, true⟩ else Coin.zero)))
    { (c.csSet R.CS_TDT (r.tdt &&& F.CS_TDT_BASE.mask 64)) with pcc := ⟨r.pcc, true⟩, run := .running }

/-- The purse entry at index i as a check reads it. -/
def State.lookPurse (s : State) (i : Nat) : Option Purse :=
  match s.purseRead i with
  | .ok p => some p
  | _ => none

/-- Channel n trains under R288, `f` being what training finds. It comes back if its DIMMs match the other channels' and make the capacity
that the memory map has, and training succeeds; else it stays fenced (R266). DESIGN CHOICE, log entry 70. -/
def State.channelOn (s : State) (n : Nat) (f : ChanFind) : State :=
  if s.unitState (mc n) = 2 ∨ s.unitState (mc n) = 3 ∨ s.unitState (mc n) = 4 then
    let s := s.setKind n f
    let same := (List.range 16).all fun m => m == n || !s.chanReady m || sameKind f (s.chanKind m)
    if chanOk f ∧ f.trained ∧ same ∧ 16 * s.chanCap n = s.ddrTop ∧ s.ddrTop ≠ 0 then
      ((s.reviveChannel n).setRf (R.MEM_CFG (mc n)) F.MEM_CFG_RATE (s.chanRate n f)).setUnit (mc n) 0 0
    else (s.setRf (R.MEM_CFG (mc n)) F.MEM_CFG_STATE 4).setUnit (mc n) 2 3
  else s

/-- ONLINE of unit u, `found` being what training finds on the channels of a controller's pair: its result and the state.
DEDUCED, log entry 59. -/
def State.onlineEffect (s : State) (u : Nat) (found : List ChanFind) : Nat × State :=
  let n := u % 16
  match unitKind u with
  | .core =>
    let k := coreOf u
    let s := s.setCore k CoreState.reset
    match s.entryRec (s.rf R.IMG_STATUS F.IMG_STATUS_SLOT) k.val with
    | some r =>
      if r.ok s.lookPurse s.boot.top then (0, (((s.setUnit u 0 0).startCore k r).relines).restored) else (4, s)
    | none => (4, s)
  | .cluster =>
    let k := R.MGMT_CLK u
    let s : State := { s with clkStopped := Sys2Proof.setF s.clkStopped ⟨n, n⟩ 0 }
    (0, ((s.setRf k F.MGMT_CLK_CUR (s.rf k F.MGMT_CLK_FREQ)).setUnit u 0 0).restored)
  | .group => (0, (((s.resetUnitRegs u).setUnit u 0 0).groupTrain n).restored)
  | .memory =>
    let m := n / 2
    let s : State := { s with pins := { s.pins with ddrPwren := Sys2Proof.setF s.pins.ddrPwren ⟨m, m⟩ 1 } }
    (0, ((s.channelOn (2 * m) (foundAt found 0)).channelOn (2 * m + 1) (foundAt found 1)).restored)
  | _ => (0, s)

/-! The end of an operation (R421) -/

/-- Operation o ends with a result. -/
def State.opEnd (s : State) (o : UnitOp) (res : Nat) : State :=
  let s : State := { s with unitOps := s.unitOps.erase o }
  (s.setUstat o.unit F.MGMT_USTAT_BUSY 0).setUstat o.unit F.MGMT_USTAT_RESULT res

/-- The operation of unit u that its steward performs next, the oldest of the steward's (R421). -/
def State.opFirst (s : State) (u : Nat) : Option UnitOp :=
  match s.unitOps.find? fun o => s.steward o.unit == s.steward u with
  | some o => if o.unit = u then some o else none
  | none => none

/-- The operation carried out and ended; the state as it was where it has to wait. DESIGN CHOICE, log entry 70. -/
def State.opRun (s : State) (o : UnitOp) (found : List ChanFind) : State :=
  let u := o.unit
  match o.op with
  | 1 => s.orWait ((s.fenceEffect u).nowFenced u |>.opEnd o 0)
  | 2 => if unitKind u = .slice ∧ s.unitState u ≠ 2 then (if s.unitState u = 7 then s else s.opEnd o 0) else (s.unfenceEffect u).opEnd o 0
  | 3 => s.orWait ((s.offlineEffect u).opEnd o 0)
  | 4 => let (r, s) := s.onlineEffect u found; s.opEnd o r
  | 5 =>
    if s.scanning then s
    else if s.retireRefused (u % 16) then s.opEnd o 3
    else ((((s.dropChannel (u % 16) 5).engineGone u).setUnit u 4 1).degrade).opEnd o 0
  | 6 => if s.unitState u = 7 then s.opEnd o 0 else s
  | _ => s.opEnd o 0

/-- UNIT_OP_COMPLETE: nothing completes in DRAIN, where the units are stopped and the DIMM supplies hold their level (R33, R472); `found` is what training finds on the two channels that an ONLINE of a memory controller brings up (R288). -/
def State.opComplete (s : State) (u : Nat) (found : List ChanFind) : State :=
  match s.opFirst u with
  | some o => if s.mode = .drain then s else s.opRun o found
  | none => s

/-! Handover (R431) -/

/-- Every teller and port has acknowledged the map that slice n's handover sends: the sibling takes the range once teller n's places,
its staging and its flushes are done; or the map sent back when the sibling holds no lock of the range. -/
def State.mapAck (s : State) (n : Nat) : State :=
  match s.unitOps.find? (·.unit == tu n) with
  | none => s
  | some o =>
    let st := s.unitState (tu n)
    if o.op = 6 ∧ st = 0 then
      if s.postings.any (fun p => p.lead == n && p.placed) || s.staged n != 0 || s.flushes.any (fun f => f.covers.any (·.1 == n)) then s
      else
        let s := (s.setUstat (tu n) F.MGMT_USTAT_STATE 7).setUstat (tu n) F.MGMT_USTAT_SIB (o.arg % 16)
        s.grantWaiting s.lockWaits.length
    else if o.op = 2 ∧ st = 7 then
      if s.cellLocks.any fun l => s.home l.line == n then s
      else
        let s := (s.setUstat (tu n) F.MGMT_USTAT_STATE 0).setUstat (tu n) F.MGMT_USTAT_SIB 0
        s.grantWaiting s.lockWaits.length
    else s

/-! Commands -/

/-- A write of OP to MGMT_UCTL of unit u (R420); a unit number outside R36 has no control block. -/
def State.ask (s : State) (u op arg : Nat) : State := if unitExists u then s.unitAsk false u op arg else s

def execUnitFence (u : Nat) (s : State) : Res := s.alive fun s => s.ask u 1 0
def execUnitUnfence (u : Nat) (s : State) : Res := s.alive fun s => s.ask u 2 0
def execUnitOffline (u : Nat) (s : State) : Res := s.alive fun s => s.ask u 3 0
def execUnitOnline (u : Nat) (s : State) : Res := s.alive fun s => s.ask u 4 0
def execUnitRetire (u : Nat) (s : State) : Res := s.alive fun s => s.ask u 5 0
def execUnitHandover (u arg : Nat) (s : State) : Res := s.alive fun s => s.ask u 6 arg
def execUnitRecal (u : Nat) (s : State) : Res := s.alive fun s => s.ask u 7 0
def execUnitOpComplete (u : Nat) (s : State) (found : List ChanFind := []) : Res := s.alive fun s => s.opComplete u found
def execHandoverMapAck (n : Idx16) (s : State) : Res := s.alive fun s => s.mapAck n.val

/-! Cluster clocks (R429, R230) -/

def execMgmtClkWrite (n : Idx16) (v : Word) (s : State) : Res := s.alive fun s => s.clkWrite n.val v

/-- All eight cores of cluster n are in WAIT. -/
def State.allWait (s : State) (n : Nat) : Bool := (clusterCores n).all fun k => (s.core (coreOf k)).run == .waiting

/-- What the cores of cluster n leave behind when its clock stops: their accesses performed, no purse-cache entry (R69, R229). -/
def State.quietCluster (s : State) (n : Nat) : State :=
  ((clusterCores n).foldl (fun s k => s.performAll (coreOf k)) s).leaveDirs n

/-- With STOPIDLE set, the clock stops when all eight cores are in WAIT. -/
def execClusterClockStop (n : Idx16) (s : State) : Res :=
  s.alive fun s =>
    if s.rf (R.MGMT_CLK (0x80 + n.val)) F.MGMT_CLK_STOPIDLE = 1 ∧ s.allWait n.val ∧ s.unitUp (0x80 + n.val) then
      let s' := s.quietCluster n.val
      s.orWait { s' with clkStopped := Sys2Proof.setF s.clkStopped ⟨n.val, n.val⟩ 1 }
    else s

/-- The clock runs again: a delivery to one of the cores asks for it, or the reason for stopping it is gone. -/
def execClusterClockRestart (n : Idx16) (s : State) : Res :=
  s.alive fun s =>
    if (s.dbMsgs.any fun m => m.core / 8 == n.val) || s.rf (R.MGMT_CLK (0x80 + n.val)) F.MGMT_CLK_STOPIDLE == 0 || !s.allWait n.val then
      { s with clkStopped := Sys2Proof.setF s.clkStopped ⟨n.val, n.val⟩ 0 }
    else s

end Sys2Proof.Machine
end

