-- ==== Sys2Proof/Machine/Detect.lean ====
section
/-!
DEFINITION. Detectors and what their events do (R283, R442–R446), error injection, telemetry wraps and snapshots (R437–R441).
-/
namespace Sys2Proof.Machine

def sevClass : ErrSev → ErrClass
  | .corrected => .corrected
  | .deferred => .deferred
  | .fatal => .fatal

/-! Injection (R445) -/

/-- The class that an injection into detector d of unit u makes: its correctable fault, or its most severe one.
DEDUCED, log entry 75. -/
def State.injClass (s : State) (u d : Nat) : Option ErrClass :=
  if s.rf (R.ERRINJ_CTL u d) F.ERRINJ_CTL_KIND = 0 ∧ detLive u d then some .corrected else (detClasses u d).getLast?

/-- An injection is due at detector d of unit u. -/
def State.injReady (s : State) (u d : Nat) : Bool :=
  let m := s.rf (R.ERRINJ_CTL u d) F.ERRINJ_CTL_MODE
  m == 1 || (m == 2 && s.injDue.contains (u, d))

/-- The injection made: a one-shot is off again, a periodic one waits for its next expiry, FIRED counts. -/
def State.injFire (s : State) (u d : Nat) : State :=
  let k := R.ERRINJ_CTL u d
  let s : State := { s with injDue := s.injDue.erase (u, d) }
  (if s.rf k F.ERRINJ_CTL_MODE = 1 then s.setRf k F.ERRINJ_CTL_MODE 0 else s).incRf k F.ERRINJ_CTL_FIRED

/-! What an error does to the data it strikes (R283) -/

/-- The line is lost: poisoned, its tags 0. DEDUCED, log entry 78. -/
def State.spoilLine (s : State) (l : Nat) : State := (s.poisonLine l).setTags l 64 false

/-- The action of R283 for detector d of unit u at the line of local address l. DEDUCED, log entry 78. -/
def State.strike (s : State) (u d : Nat) (cls : ErrClass) (l : Nat) : State :=
  if cls ≠ .deferred then s
  else match unitKind u, d with
    | .memory, 1 => s.poisonLine l
    | .memory, 2 => s.clearTagLine l
    | .core, 1 => s.spoilLine l
    | .cluster, 0 => s.spoilLine l
    | .cluster, 1 => s.spoilLine l
    | .slice, 0 => s.spoilLine l
    | .slice, 1 => s.spoilLine l
    | .slice, 2 =>
      let h := s.clustersOf l
      let s := s.setClusters l ⟨0, false⟩
      if h.excl then s.poisonLine l else s
    | .slice, 3 =>
      let h := s.peersOf l
      let s := h.list.foldl (fun (s : State) p => s.send ⟨p, 0x10, [], false, 0, 0, 0x100 + s.home l, 0, BitVec.ofNat 64 l⟩) s
      let s := s.setPeers l ⟨0, false⟩
      if h.excl then s.poisonLine l else s
    | _, _ => s

/-- A unit that a FATAL record fences now (R423). -/
def State.fenceable (s : State) (u : Nat) : Bool :=
  let st := s.unitState u
  unitKind u != .fixed && st != 2 && st != 3 && st != 4 && st != 5

/-- An event examined by detector d of unit u, in the given class: the action, the record, and for FATAL the fence. Entry to STOPPED
has its own event. -/
def State.detect (s : State) (u d : Nat) (cls : ErrClass) (injected : Bool) (addr : Option Nat) (syndrome : Word) (detail : List Byte) : State :=
  if !unitExists u || s.unitState u == 3 || (u < 0x80 && d == 4) || !(detClasses u d).contains cls then s
  else if injected && !(s.injReady u d && s.injClass u d == some cls) then s
  else
    let s := if injected then s.injFire u d else s
    let s := if unitKind u = .memory ∧ d = 0 then s.count u 0x13 1 else s
    let s := match addr.bind s.localOf with
      | some a => s.strike u d cls (a / 64 * 64)
      | none => s
    let s := s.errRecord ⟨u, d, cls, injected, addr, syndrome, cls == .fatal && s.fenceable u, detail⟩
    (if cls = .fatal then s.fatalFence u else s).unblock

/-- A write of ERRINJ_CTL that arms detector d of unit u. -/
def State.injArm (s : State) (u d mode : Nat) (severe : Bool) : State :=
  if unitExists u && !(detClasses u d).isEmpty then s.injWrite u d (BitVec.ofNat 64 (mode + 4 * b2n severe)) else s

/-- The period of detector d of unit u, counted from the write, has passed: the next event it examines is struck, and the next period
runs (R445). -/
def State.injExpire (s : State) (u d : Nat) : State :=
  let k := R.ERRINJ_CTL u d
  let due := SMap.get zeroNat s.injNext k
  if s.rf k F.ERRINJ_CTL_MODE = 2 ∧ due ≤ s.time.toNat then
    { s with injDue := if (u, d) ∈ s.injDue then s.injDue else s.injDue ++ [(u, d)],
             injNext := SMap.set zeroNat s.injNext k (due + s.injPeriod u d) }
  else s

/-! Telemetry -/

/-- Counter n of unit u counts its 2^48th event (R438). -/
def State.counterWrap (s : State) (u n : Nat) : State :=
  let k := R.TEL_EVSEL u n
  if !unitExists u || !evListed u n (s.rf k F.TEL_EVSEL_EVENT) || s.rf (k + 8) F.TEL_CTR_COUNT != 2 ^ 48 - 1 then s
  else
    let ring := u ≥ 0x80 && s.rf k F.TEL_EVSEL_OVFINT == 1
    let s := s.countOne u k 1
    if ring then s.wrapRings 64 1 else s

/-- A unit that latches an armed snapshot (R440). DEDUCED, log entry 79. -/
def State.latches (s : State) (u : Nat) : Bool := s.mode != .drain && s.unitState u != 3 && s.unitState u != 4

/-- Unit u copies its counters. -/
def State.latchUnit (s : State) (id u : Nat) : State :=
  let s := (List.range 16).foldl (fun (s : State) k => s.setReg (R.TEL_EVSEL u k + 16) (s.reg (R.TEL_EVSEL u k + 8))) s
  s.setRf (R.TEL_SHDID u) F.TEL_SHDID_ID id

/-- The time base reaches SNAP_AT (R440). DEDUCED, log entry 79. -/
def State.snapLatch (s : State) : State :=
  match s.snapAt with
  | none => s
  | some t =>
    if s.time.toNat < t.toNat then s
    else
      let k := R.SNAP_DONE
      let id := s.rf k F.SNAP_DONE_ID
      let us := allUnits.filter s.latches
      let s := us.foldl (fun (s : State) u => s.latchUnit id u) s
      let s := (s.setRf k F.SNAP_DONE_MISSED (allUnits.length - us.length)).setRf k F.SNAP_DONE_DONE 1
      ({ s with snapAt := none } : State).ringSrc (s.rf R.SNAP_CTL F.SNAP_CTL_DBSRC)

/-! Commands -/

def execErrorDetect (u d : Nat) (sev : ErrSev) (injected : Bool) (addr : Option Nat) (syndrome : Word) (detail : List Byte) (s : State) : Res :=
  s.alive fun s => s.detect u d (sevClass sev) injected addr syndrome detail
def execErrinjOneshot (u d : Nat) (severe : Bool) (s : State) : Res := s.alive fun s => s.injArm u d 1 severe
def execErrinjPeriodic (u d : Nat) (severe : Bool) (s : State) : Res := s.alive fun s => s.injArm u d 2 severe
def execErrinjPeriodExpiry (u d : Nat) (s : State) : Res := s.alive fun s => s.injExpire u d
def execTelCounterWrap (u : Nat) (n : Idx16) (s : State) : Res := s.alive fun s => s.counterWrap u n.val
/-- A write of SNAP_CTL with GO (R439). -/
def execSnapshotArm (v : Word) (s : State) : Res := s.alive fun s => s.snapWrite (setF v F.SNAP_CTL_GO 1)
def execSnapshotLatch (s : State) : Res := s.alive State.snapLatch

end Sys2Proof.Machine
end

