-- ==== Sys2Proof/Machine/Modes.lean ====
section
/-!
DEFINITION. Mode requests and brumations (R28–R31, R426–R428): quiescence, the three changes, their end and their undoing.
-/
namespace Sys2Proof.Machine

/-! Requests -/

/-- A write of MGMT_MODE that asks for mode request `req` and keeps CHG. -/
def State.modeAsk (s : State) (req chg : Nat) : State :=
  s.modeWrite (BitVec.ofNat 64 (req * 16 + chg * 256))

/-! Quiescence (R31, R91, R427) -/

/-- Nothing that a port admitted is in flight: no request or lock of a peer waits, no snoop, no forwarded POST short of its place, no
mirror record without room, no message in pieces. -/
def State.portsQuiet (s : State) : Bool :=
  s.homeReqs.isEmpty && s.lockWaits.isEmpty && s.snoops.isEmpty && s.laneWrites.isEmpty && s.dmaOut.isEmpty &&
    s.jWait.isEmpty && s.jParts.isEmpty && s.pfwParts.isEmpty &&
    s.postings.all fun p => match p.origin with | .peer .. => s.postApplied p.id | _ => true

/-- Nothing that holds off quiescence: no recall or its fence, no posting in a place, no purse write, no access under way at a core or
from a peer. -/
def State.quiet (s : State) : Bool :=
  s.fences.all (fun f => match f.kind with | .recallOf _ => false | _ => true) && !s.postings.any (·.placed) && s.purseWrs.isEmpty &&
    (s.cores.toList.all fun c => c.recallW.isNone && c.flight.isNone) && s.portsQuiet

/-- Every core's accesses performed and long operations done, or blocked where one has to wait. -/
def State.settleCores (s : State) : State :=
  (List.range 128).foldl (fun (s : State) k => (s.performAll (coreOf k)).modCore (coreOf k) CoreState.longsDone) s

/-! Change 1: the interleave (R269) -/

/-- The contents of every channel address at the local address that granule `new` gives it. Every line of local memory has been
written back and invalidated before. DEDUCED, log entry 63. -/
def State.regran (s : State) (new : Nat) : State :=
  let old := s.gran
  let top := s.ddrTop
  let move (a : Nat) : Nat := if a < top then localOfChan new (homeOf old a) (chanAddr old a) else a
  { s with mem := SMap.rekey zeroByte (fun a => some (move a)) s.mem,
           back := SMap.rekey zeroByte (fun a => some (move a)) s.back,
           tags := SMap.rekey noFlag (fun g => some (move (g * 16) / 16)) s.tags,
           poison := SMap.rekey noFlag (fun l => some (move (l * 64) / 64)) s.poison,
           dramBad := s.dramBad.map move }

/-- Every dirty line of local memory written back, the directories of the clusters emptied. -/
def State.flushLocal (s : State) : State :=
  let s := s.dirty.foldl (fun (s : State) e => s.writeBack (e.1 * 64)) s
  ({ s with l2dir := [], l2s := s.l2s.filter fun e => e.1 * 64 ≥ 0x100000000000 } : State).surfaceDram

/-- The granule of a GRAN code (R268). -/
def granOf (code : Nat) : Nat := match code with | 0 => 256 | 1 => 4096 | 2 => 65536 | _ => 2097152

/-- GRAN of all sixteen slices set to `code` and the contents moved with it. DEDUCED, log entry 63. -/
def State.setGran (s : State) (code : Nat) : State :=
  let s := s.flushLocal.regran (granOf code)
  (List.range 16).foldl (fun (s : State) n => s.setRf (R.VLT_ILV (hs n)) F.VLT_ILV_GRAN code) s

/-- A register reads the same in all sixteen home slices. -/
def State.slicesAgree (s : State) (k : Nat → Nat) : Bool := (List.range 16).all fun n => s.reg (k (hs n)) == s.reg (k 0x100)

/-! Change 2: the purse-table base (R74) -/

/-- VLT_PTBASE of every slice, and with it CS_PTBASE of every core; purse caches and purse directories invalidated. -/
def State.setPtbase (s : State) (v : Word) : State :=
  let s := (List.range 16).foldl (fun (s : State) n => s.setReg (R.VLT_PTBASE (hs n)) v) s
  { s.eachCore (fun _ c => { c with pcache := [] }) with purseDir := [] }

/-! Change 3: the sequencer's image (R428) -/

/-- The FIELD records of the slot in use whose run includes unit 0x142, if its PARAM segments read and match their CRCs.
DEDUCED, log entry 80. -/
def State.seqRecs (s : State) : Option (List ParRec) :=
  let slot := s.rf R.IMG_STATUS F.IMG_STATUS_SLOT
  if !(s.segsOf slot 1).all (s.segCrcOk slot) then none
  else match s.params slot with
    | .error _ => none
    | .ok rs => some (rs.filter fun r => match r.par with
      | .field _ _ _ unit count _ _ => decide (unit ≤ 0x142) && decide (0x142 < unit + count)
      | _ => false)

/-- The offset that a FIELD record writes. -/
def ParRec.offset (r : ParRec) : Nat := match r.par with | .field _ _ _ _ _ off _ => off | _ => 0

/-- The sequencer re-imaged: NEXT only ever rises. DEDUCED, log entry 80. -/
def State.reimage (s : State) (rs : List ParRec) : State :=
  let isNext (r : ParRec) : Bool := r.offset == 0x1000
  let s := (rs.filter fun r => !isNext r).foldl (fun (s : State) r => s.applyRec (· == 0x142) r) s
  let n : BitVec 60 := (imgValue rs 0x142 0x1000).extractLsb' 0 60
  if rs.any isNext ∧ s.seq.next < n then { s with seq := ({ s.seq with next := n } : Sequencer).settle } else s

/-! The change as a whole -/

/-- What stood before the change, kept for its undoing. -/
def State.noteBefore (s : State) (b : Brumation) (rs : List ParRec) : Brumation :=
  { b with gran := s.rf (R.VLT_ILV 0x100) F.VLT_ILV_GRAN, ptbase := s.reg (R.VLT_PTBASE 0x100),
           seq := (s.seq.next, s.seq.isOpen, s.seq.exhausted),
           regs := rs.map fun r => (R.SEQ_NEXT - 0x1000 + r.offset, s.reg (R.SEQ_NEXT - 0x1000 + r.offset)) }

/-- The change made at quiescence, or failed with nothing changed. DESIGN CHOICE, log entry 71. -/
def State.makeChange (s : State) (b : Brumation) : State :=
  let fail : State := { s with brum := some { s.noteBefore b [] with failed := true } }
  let keep (s' : State) (rs : List ParRec) : State := { s' with brum := some (s.noteBefore b rs) }
  match b.chg with
  | 1 =>
    if s.slicesAgree R.VLT_ILVNEXT && !(List.range 16).any s.partEn then
      keep (s.setGran (s.rf (R.VLT_ILVNEXT 0x100) F.VLT_ILVNEXT_GRAN)) []
    else fail
  | 2 => if s.slicesAgree R.VLT_PTNEXT then keep (s.setPtbase (s.reg (R.VLT_PTNEXT 0x100))) [] else fail
  | _ => match s.seqRecs with
    | some rs => keep (s.reimage rs) rs
    | none => fail

/-- The change undone (R31). DESIGN CHOICE, log entry 71. DEDUCED, log entry 80. -/
def State.undoChange (s : State) (b : Brumation) : State :=
  if b.failed then s
  else match b.chg with
    | 1 => s.setGran b.gran
    | 2 => s.setPtbase b.ptbase
    | _ =>
      let s := b.regs.foldl (fun (s : State) r => s.setReg r.1 r.2) s
      { s with seq := { s.seq with next := b.seq.1, isOpen := b.seq.2.1, exhausted := b.seq.2.2 } }

/-! Commands -/

/-- The brumation ends with a result. -/
def State.brumEnd (s : State) (res : Nat) : State :=
  let s := (s.setRf R.MGMT_MODE F.MGMT_MODE_BUSY 0).modeResult res
  { s with brum := none }

/-- Leaving BRUMATION: RUN or DEGRADED, and what the ports held goes on. -/
def State.leaveBrumation (s : State) (res : Nat) : State :=
  let s := ((s.brumEnd res).setMode s.runMode).releaseHeld
  -- mirror records that found room meanwhile are written now, and the flushes that are due start (R338)
  ((List.range 16).foldl (fun s n => s.writeMirror n) s).startFlushes

/-- Every unit is quiescent: BRUMATION is current and the change is made. DESIGN CHOICE, log entry 71. -/
def State.quiesced (s : State) : State :=
  match s.brum with
  | none => s
  | some b =>
    if (s.mode = .run ∨ s.mode = .degraded) ∧ s.quiet then
      s.orWait ((s.settleCores.setMode .brumation).makeChange b)
    else s

/-- 500 µs have passed without quiescence: nothing has changed. -/
def State.quiesceTimeout (s : State) : State := if s.brum.isSome ∧ s.mode ≠ .brumation then s.brumEnd 3 else s

/-- The change is complete, or was found to be impossible. -/
def State.changeComplete (s : State) : State :=
  match s.brum with
  | none => s
  | some b => if s.mode = .brumation then s.leaveBrumation (if b.failed then 4 else 0) else s

/-- 2 ms have passed in BRUMATION: what stood before is restored. -/
def State.brumTimeout (s : State) : State :=
  match s.brum with
  | none => s
  | some b => if s.mode = .brumation then (s.undoChange b).leaveBrumation 4 else s

def execModeReqBrumation (chg : BitVec 2) (s : State) : Res := s.alive fun s => s.modeAsk 3 chg.toNat
def execModeReqDiagnostic (s : State) : Res := s.alive fun s => s.modeAsk 4 (s.rf R.MGMT_MODE F.MGMT_MODE_CHG)
def execModeReqLeave (s : State) : Res := s.alive fun s => s.modeAsk 1 (s.rf R.MGMT_MODE F.MGMT_MODE_CHG)
def execBrumationQuiesced (s : State) : Res := s.alive State.quiesced
def execBrumationQuiesceTimeout (s : State) : Res := s.alive State.quiesceTimeout
def execBrumationChangeComplete (s : State) : Res := s.alive State.changeComplete
def execBrumationTimeout (s : State) : Res := s.alive State.brumTimeout

end Sys2Proof.Machine
end

