-- ==== Sys2Proof/Machine/Power.lean ====
section
/-!
DEFINITION. The board's signals (R394, R395, R453–R459): supplies, PWR_GOOD, PWR_FAIL_N and REFCLK; device reset and its end; power
and thermal control (R462–R464); the time pulse (R436).
-/
namespace Sys2Proof.Machine

/-! Power failure (R30, R339) -/

/-- DRAIN begins: injections of KIND 1 disarm where it ends DIAGNOSTIC (R446), a brumation ends ABANDONED, fences are abandoned, the
tellers keep what has a number. -/
def State.enterDrain (s : State) : State :=
  let s := if s.mode = .diagnostic then s.disarmSevere else s
  let s := if s.rf R.MGMT_MODE F.MGMT_MODE_BUSY = 1 then s.brumEnd 5 else s
  ({ (s.setMode .drain).tellersDrain with fences := [] } : State).releaseHeld

/-- A power failure: in LOAD the sequencer stops at the end of its stage; elsewhere DRAIN, once. -/
def State.powerFail (s : State) : State :=
  match s.mode with
  | .load => if s.boot.stop = .no then { s with boot := { s.boot with stop := .atEnd } } else s
  | .drain => s
  | _ => s.enterDrain

/-! Device reset (R394, R395, R455) -/

/-- A byte that a command or a loss of power has left in no particular state. DESIGN CHOICE, log entry 18. -/
def State.spoilFlash (s : State) (o n : Nat) : State :=
  ({ s with free := s.free + n } : State).putFlash o ((List.range n).map fun i => (Config.freeWord (s.free + i)).extractLsb' 0 8)

/-- The bytes of the flash that a command writes. -/
def FlashOp.size (f : FlashOp) : Nat := if f.op = 1 then 65536 else 256

/-- Caches lose what they had not written back. -/
def State.dropDirty (s : State) : State :=
  s.dirty.foldl (fun (s : State) e => (List.range 64).foldl (fun (s : State) i => s.setMemB (e.1 * 64 + i) (s.backB (e.1 * 64 + i))) s)
    ({ s with dirty := [] } : State)

/-- Persistent CXL devices keep their data, which is all of memory that outlasts a reset (R270). DESIGN CHOICE, log entry 64. -/
def State.keepDevices (s : State) : State :=
  (List.range 16).foldl (fun (s : State) n => (List.range 16).foldl (fun (s : State) r =>
    let v := s.cxlr n r
    if getF v F.VLT_CXLR_READY = 1 ∧ getF v F.VLT_CXLR_PERSIST = 1 then s.unmapRegion n v else s) s) s.dropDirty

/-- A fuse register. DESIGN CHOICE, log entry 3. -/
def isFuse (k : Nat) : Bool := R.IMG_FSVN ≤ k && k < R.IMG_FKEY 24

/-- Everything but the fuses, the flash, persistent devices, the board's signals and the time base goes back to its reset value. -/
def State.deviceReset (s : State) : State :=
  let d := s.keepDevices
  let f := match s.flashOp with | some o => s.spoilFlash o.addr o.size | none => s
  { State.reset with pending := s.pending, free := f.free, flash := f.flash, flashSize := s.flashSize, csr := s.csr.filter fun e => isFuse e.1,
                     pins := { s.pins with ddrPwren := 0, trip := false, tripAt := 0, thermN := false }, time := s.time, devMem := d.devMem, devPoison := d.devPoison }

/-- PWR_GOOD rises: the time base reads 0 (R25). -/
def State.pwrGoodUp (s : State) : State :=
  if s.pins.pwrGood then s else { s with pins := { s.pins with pwrGood := true }, time := 0 }

/-- PWR_GOOD low for 50 ns or more resets the device; THERMTRIP_N goes high. -/
def State.pwrGoodDown (s : State) (ns : Nat) : State :=
  if ns < 50 ∨ !s.pins.pwrGood then s
  else
    let s := s.deviceReset
    { s with pins := { s.pins with pwrGood := false, thermtrip := false } }

/-- Device reset ends 5 ms after the last of its conditions clears (R394) and FLASH runs; PWR_FAIL_N low at that instant counts as a
falling edge, so that the sequencer stops at the end of that stage (R30, R456). DEDUCED, log entry 61. -/
def State.resetExit (s : State) (failLow : Bool) : State :=
  let p := s.pins
  if !s.inReset || !p.pwrGood || p.rails != 0x3FF || !p.refclk then s
  else
    let s : State := { s with inReset := false, mode := .load, boot := { s.boot with stop := if failLow then .atEnd else .no } }
    (s.setRf R.IMG_STATUS F.IMG_STATUS_STAGE 1).newNonce

def State.railValid (s : State) (rail : Fin 10) (ok : Bool) : State :=
  let s : State := { s with pins := { s.pins with rails := Sys2Proof.setF s.pins.rails ⟨rail.val, rail.val⟩ (b2n ok) } }
  if ok then s else s.deviceReset

/-- PWR_FAIL_N low for `ns`: 30 or more always counts, less than 10 never, in between it may (R456). DESIGN CHOICE, log entry 18. -/
def State.pwrFailLow (s : State) (ns : Nat) : State :=
  if s.inReset ∨ ns < 10 then s
  else if ns ≥ 30 then s.powerFail
  else if Config.freeBool s.free then s.bumpFree.powerFail else s.bumpFree

/-- REFCLK is lost: outside reset as a power failure, with the time base no longer aligned (R459). -/
def State.refclkLost (s : State) : State :=
  let s' : State := { s with pins := { s.pins with refclk := false } }
  if s.inReset || !s.pins.refclk then s'
  else ((List.range 7).foldl (fun (s : State) p =>
    (s.setRf (R.PEER_TIME (pp p)) F.PEER_TIME_ALIGNED 0).modLink p fun l => { l with close := 0 }) s').powerFail

/-! Power control (R462) -/

/-- DEDUCED, log entry 72. -/
def State.clkCur (s : State) (c : Nat) : Nat := s.rf (R.MGMT_CLK (0x80 + c)) F.MGMT_CLK_CUR
def State.clkFreq (s : State) (c : Nat) : Nat := s.rf (R.MGMT_CLK (0x80 + c)) F.MGMT_CLK_FREQ
def State.setCur (s : State) (c n : Nat) : State := s.setRf (R.MGMT_CLK (0x80 + c)) F.MGMT_CLK_CUR n

/-- One 50 MHz step down, not below 0.8 GHz. -/
def State.stepDown (s : State) (c : Nat) : State := if s.clkCur c > 16 then s.setCur c (s.clkCur c - 1) else s

/-- The clusters whose clock runs: set, not stopped, and not OFFLINE. -/
def State.clocked (s : State) : List Nat :=
  (List.range 16).filter fun c => s.clkCur c != 0 && !s.clockStopped c && s.unitState (0x80 + c) != 3

/-- Whether power control holds cluster c below its ceiling. -/
def State.setHeld (s : State) (c : Nat) (b : Bool) : State := { s with pwrHeld := Sys2Proof.setF s.pwrHeld ⟨c, c⟩ (b2n b) }

/-- The clusters with the highest CUR one step down. DEDUCED, log entry 72. -/
def State.lowerHighest (s : State) : State :=
  let m := (s.clocked.map s.clkCur).foldl max 0
  (s.clocked.filter fun c => s.clkCur c == m).foldl (fun (s : State) c => (s.stepDown c).setHeld c (s.clkCur c > 16 || bitB s.pwrHeld c)) s

/-- The lowest CUR below its cluster's ceiling one step up, the lower cluster where two are equal. A cluster that the thermal limit lowers
now is not raised: the lower of the two limits governs (R463). DEDUCED, log entry 72. -/
def State.raiseLowest (s : State) : State :=
  let below := s.clocked.filter fun c => s.clkCur c < s.clkFreq c && !bitB s.hot c
  match below.map s.clkCur with
  | [] => s
  | x :: xs =>
    let m := xs.foldl min x
    match below.find? fun c => s.clkCur c == m with
    | some c => (s.setCur c (m + 1)).setHeld c (bitB s.pwrHeld c && m + 1 < s.clkFreq c)
    | none => s

/-- One evaluation, every 100 µs, of the average power of the last millisecond. DEDUCED, log entry 72. -/
def State.powerEval (s : State) (pwr : Nat) : State :=
  let k := R.MGMT_PWR
  let s := s.setRf k F.MGMT_PWR_PWR (satTo 1023 pwr)
  let tdp := s.rf k F.MGMT_PWR_TDP
  let s : State :=
    if pwr > tdp then { s.lowerHighest with pwrLow := 0 }
    else if 100 * pwr < 98 * tdp then
      let s : State := { s with pwrLow := s.pwrLow + 1 }
      if s.pwrLow ≥ 10 then s.raiseLowest else s
    else { s with pwrLow := 0 }
  let s := s.setRf k F.MGMT_PWR_LIMITED (b2n (s.clocked.any fun c => bitB s.pwrHeld c && s.clkCur c < s.clkFreq c))
  s.setRf k F.MGMT_PWR_FLOOR (b2n (pwr > tdp && !s.clocked.isEmpty && s.clocked.all fun c => s.clkCur c == 16))

/-! Thermal control (R463, R464) -/

/-- A unit with a diode. -/
def hasDiode (u : Nat) : Bool :=
  (0x80 ≤ u && u ≤ 0x8F) || (0x100 ≤ u && u ≤ 0x12F)

/-- The hottest of a list of readings, the first of equal ones. DEDUCED, log entry 72. -/
def hottest : List (Nat × Int) → Option (Nat × Int)
  | [] => none
  | x :: xs => match hottest xs with
    | some y => if x.2 < y.2 then some y else some x
    | none => some x

/-- One reading of the diodes, in quarters of a degree. -/
def State.thermalRead (s : State) (temps : List (Nat × Int)) : State :=
  let ts := temps.filter fun x => hasDiode x.1
  match hottest ts with
  | none => s
  | some (u, t) =>
    let k := R.MGMT_THERM
    let lim : Int := (4 * (s.rf k F.MGMT_THERM_TJMAX) : Nat) - 12
    let hot := ts.filter fun x => lim ≤ x.2
    let s := ((s.setRf k F.MGMT_THERM_TEMP (ofInt 12 t).toNat).setRf k F.MGMT_THERM_HOTUNIT u).setRf k F.MGMT_THERM_THROT (b2n (!hot.isEmpty))
    let down := s.clocked.filter fun c => hot.any fun x => x.1 == 0x80 + c || x.1 ≥ 0x100
    let s : State := { s with pins := { s.pins with thermN := !hot.isEmpty }, hot := down.foldl (fun h c => Sys2Proof.setF h ⟨c, c⟩ 1) 0 }
    let s := down.foldl (fun (s : State) c => s.stepDown c) s
    if t < 460 then s
    else
      let s : State := { s with pins := { s.pins with
        trip := true, tripAt := if s.pins.trip then s.pins.tripAt else s.time, thermtrip := s.pins.thermtrip || s.mode == .load } }
      if s.mode = .load then s else s.powerFail

/-! The time pulse (R436) -/

/-- `x` divided by 16, toward zero. DEDUCED, log entry 66. -/
def sixteenth (x : Int) : Int := x.tdiv 16

/-- A rising edge of TIME_PPS, captured within 2 ns. DESIGN CHOICE, log entry 18. DEDUCED, log entry 66. -/
def State.ppsEdge (s : State) : State :=
  let cap : Word := s.time + ofInt 64 ((Config.freeNat s.free % 5 : Nat) - 2)
  let s := (s.bumpFree.setReg R.TIME_PPSCAP cap).setRf R.TIME_PPSCTL F.TIME_PPSCTL_SEEN 1
  if s.rf R.TIME_PPSCTL F.TIME_PPSCTL_EN = 0 then s
  else
    let e : Int := ((cap.toNat + 500000000) % 1000000000 : Nat) - 500000000
    let r := rateClamp (toSigned 32 (s.rf R.TIME_ADJ F.TIME_ADJ_RATE) - sixteenth e)
    ((s.setRf R.TIME_PPSCTL F.TIME_PPSCTL_ERR (ofInt 32 e).toNat).setRf R.TIME_ADJ F.TIME_ADJ_PHASE (ofInt 32 (-e)).toNat).setRf
      R.TIME_ADJ F.TIME_ADJ_RATE (ofInt 32 r).toNat

/-! Commands -/

def execPwrGoodRise (s : State) : Res := .next s.pwrGoodUp
def execPwrGoodFall (ns : Nat) (s : State) : Res := .next (s.pwrGoodDown ns)
def execDeviceResetExit (failLow : Bool) (s : State) : Res := .next (s.resetExit failLow)
def execSupplyValid (rail : Fin 10) (s : State) : Res := .next (s.railValid rail true)
def execSupplyInvalid (rail : Fin 10) (s : State) : Res := .next (s.railValid rail false)
def execPwrFail (ns : Nat) (s : State) : Res := .next (s.pwrFailLow ns)
def execRefclkLoss (s : State) : Res := .next s.refclkLost
/-- A return of REFCLK does not end DRAIN (R459). -/
def execRefclkReturn (s : State) : Res := .next { s with pins := { s.pins with refclk := true } }
def execThermalRead (temps : List (Nat × Int)) (s : State) : Res := s.alive fun s => s.thermalRead temps
/-- THERMTRIP_N goes low 1 ms after a trip, or once its DRAIN is complete, whichever comes first (R464). -/
def execThermtripAssert (s : State) : Res :=
  s.alive fun s =>
    if s.pins.trip && (decide (s.pins.tripAt.toNat + 1000000 ≤ s.time.toNat) || (s.mode == .drain && s.drainDone)) then s.tripOut else s
def execPowerEvaluation (pwr : Nat) (s : State) : Res := s.alive fun s => s.powerEval pwr
def execTimePpsEdge (s : State) : Res := s.alive State.ppsEdge
/-- 1.5 s without an edge: SEEN stays as it is and the rate is held (R436). -/
def execPpsTimeout (s : State) : Res := s.alive fun s => s
def execTimeAdjWrite (v : Word) (s : State) : Res := s.alive fun s => s.adjWrite v

end Sys2Proof.Machine
end

