-- ==== Sys2Proof/Machine/Boot.lean ====
section
/-!
DEFINITION. Start-up (R396–R413): the stages of the image sequencer; flash commands (R414); the eft and what it answers over MCTP and
PLDM (R415–R418).
-/
namespace Sys2Proof.Machine

/-! The sequencer (R395, R398, R407) -/

/-- Stage k may run: it is the sequencer's current one, and nothing has stopped the sequencer. DESIGN CHOICE, log entry 5. -/
def State.stageReady (s : State) (k : Nat) : Bool :=
  s.rf R.IMG_STATUS F.IMG_STATUS_STAGE == k && s.boot.stop != .stopped && (if k ≤ 7 then s.mode == .load else s.mode != .drain)

/-- The sequencer stops here if a power failure in LOAD has asked for it. DEDUCED, log entry 61. -/
def State.stopHere (s : State) : State :=
  if s.boot.stop = .atEnd then { s with boot := { s.boot with stop := .stopped } } else s

/-- Stage k has ended: its time is kept, and the next one runs. -/
def State.stageEnd (s : State) (k : Nat) : State :=
  let s := s.setReg (R.IMG_STAGET (k - 1)) s.time
  if s.boot.stop = .no then s.setRf R.IMG_STATUS F.IMG_STATUS_STAGE (k + 1) else s.stopHere

/-- A failure as IMG_ERR0 or IMG_ERR1 holds it. -/
def BootErr.word (e : BootErr) (slot : Nat) : Word :=
  setF (setF (setF (setF 0 F.IMG_ERR0_CODE e.code) F.IMG_ERR0_SLOT slot) F.IMG_ERR0_SEG e.seg) F.IMG_ERR0_OFFSET e.off

/-- The failure of the slot being tried, recorded. -/
def State.noteErr (s : State) (e : BootErr) : State :=
  let w := e.word (s.rf R.IMG_STATUS F.IMG_STATUS_SLOT)
  if s.rf R.IMG_STATUS F.IMG_STATUS_FALLBACK = 0 then s.setReg R.IMG_ERR0 w else s.setReg R.IMG_ERR1 w

/-- The slot being tried fails: the other one from VERIFY on, or FAILED if it was the second. -/
def State.slotFail (s : State) (e : BootErr) : State :=
  let k := R.IMG_STATUS
  let s := s.noteErr e
  if s.rf k F.IMG_STATUS_FALLBACK = 0 then
    (((s.setRf k F.IMG_STATUS_FALLBACK 1).setRf k F.IMG_STATUS_SLOT (1 - s.rf k F.IMG_STATUS_SLOT)).setRf k F.IMG_STATUS_STAGE 2).stopHere
  else s.setRf k F.IMG_STATUS_STAGE 15

def State.curSlot (s : State) : Nat := s.rf R.IMG_STATUS F.IMG_STATUS_SLOT

/-! Stages 1 to 3 -/

def isPow2 (n : Nat) : Bool := n != 0 && 2 ^ n.log2 == n

/-- FLASH (R396, R398): DDR_PWREN rises (R472); the device answers, has 8D-8D-8D and a size it can be used at.
DEDUCED, log entry 61. -/
def State.stageFlash (s : State) (answers octal : Bool) (size : Nat) : State :=
  let s : State := { s with pins := { s.pins with ddrPwren := 0xFF } }
  if !answers || !octal || size < 0x4000000 || !isPow2 size then (s.noteErr ⟨1, 0xFF, 0⟩).setRf R.IMG_STATUS F.IMG_STATUS_STAGE 15
  else
    let s : State := { s with flashSize := min size 0x20000000 }
    (s.setRf R.IMG_STATUS F.IMG_STATUS_SLOT s.firstSlot).stageEnd 1

/-- VERIFY (R399); an open part shows OPEN whatever the verdict. -/
def State.stageVerify (s : State) : State :=
  let t := s.setRf R.IMG_STATUS F.IMG_STATUS_OPEN (b2n s.openPart)
  match s.slotErr s.curSlot with
  | some e => t.slotFail e
  | none => t.stageEnd 2

/-- The sequencer's own settings (R404). -/
def State.applySeq (s : State) (rs : List ParRec) : State :=
  let val (id : Nat) : Nat := ((seqParam rs id).map (·.1)).getD 0
  { s with socket := BitVec.ofNat 3 (val 2),
           boot := { s.boot with top := val 1, trainFull := val 3 == 1,
                                 speed := (List.range 16).foldl (fun m n => SMap.set zeroNat m n (val (0x100 + n))) s.boot.speed } }

/-- APPLY (R405, R410, R414): every segment checked before anything is written. -/
def State.stageApply (s : State) (trimsOk : Bool) : State :=
  match s.applyCheck s.curSlot with
  | .error e => s.slotFail e
  | .ok rs =>
    let s := if s.calOk trimsOk then s else (s.setRf R.IMG_STATUS F.IMG_STATUS_CALBAD 1).setRf R.MGMT_THERM F.MGMT_THERM_TJMAX 95
    (rs.foldl State.bootRec (s.applySeq rs)).stageEnd 3

/-! MEMTRAIN (R265–R267, R413) -/

/-- The kind that most channels carry, the lowest channel's among equals: the others do not match it. DEDUCED, log entry 81. -/
def commonKind (found : List ChanFind) : Option ChanFind :=
  let fs := (List.range 16).map (foundAt found)
  let votes (f : ChanFind) : Nat := (fs.filter fun g => chanOk g && sameKind f g).length
  (fs.filter chanOk).foldl (fun best f => match best with
    | none => some f
    | some b => if votes b < votes f then some f else some b) none

/-- The channel uses its cached training record (R413). -/
def State.usesCache (s : State) (n : Nat) (f : ChanFind) : Bool := !s.boot.trainFull && s.trainOk n && f.cached && f.patternOk

/-- Channel n after MEMTRAIN, `ref` being the kind all should carry. DEDUCED, log entry 81. -/
def State.trainChan (s : State) (ref : Option ChanFind) (found : List ChanFind) (n : Nat) : State :=
  let k := R.MEM_CFG (mc n)
  let f := foundAt found n
  let s := s.setKind n f
  if s.unitState (mc n) = 2 then s
  else
    let match_ := chanOk f && (match ref with | some r => sameKind f r | none => false)
    let full := match_ && !s.usesCache n f
    let s := if full then s.setRf R.IMG_STATUS ⟨8 + n, 8 + n⟩ 1 else s
    if match_ && (!full || f.trained) then (s.setRf k F.MEM_CFG_RATE (s.chanRate n f)).setRf k F.MEM_CFG_STATE 3
    else (s.setRf k F.MEM_CFG_STATE 4).setUnit (mc n) 2 3

/-- MEMTRAIN: every channel trained or fenced; DDRTOP = 16 × C × 127 ÷ 128. -/
def State.stageMemtrain (s : State) (found : List ChanFind) : State :=
  let ref := commonKind found
  let s := (List.range 16).foldl (fun (s : State) n => s.trainChan ref found n) s
  let top := match ref with | some r => r.cap * 127 / 2 | none => 0
  ((List.range 16).foldl (fun (s : State) n => s.setRf (R.VLT_ILV (hs n)) F.VLT_ILV_DDRTOP top) s).stageEnd 4

/-! Stages 5 to 9 -/

/-- TAGCLEAR (R272). -/
def State.stageTagclear (s : State) : State :=
  (((List.range 16).filter s.chanReady).foldl (fun (s : State) n => s.clearChanTags n) s).stageEnd 5

/-- LANES begins: LGP_CFG of every group in service applied; enabled peer ports start training (R367). -/
def State.lanesBegin (s : State) : State :=
  let s : State := { s with boot := { s.boot with lanesOn := true } }
  let s := ((List.range 16).filter fun n => s.unitUp (lg n)).foldl (fun (s : State) n => s.lgpApply n) s
  let ps := (List.range 7).filter fun p =>
    s.rf (R.PEER_CFG (pp p)) F.PEER_CFG_EN == 1 && s.unitUp (pp p) && s.unitUp (lg (s.rf (R.PEER_CFG (pp p)) F.PEER_CFG_LGRP))
  ps.foldl (fun (s : State) p => (s.setPeerState p 1).setLink p s.identLink) s

/-- LANES: once it has begun, ports train, identify themselves and align their time by commands of their own until the stage ends; a
port that never trains cannot hold it, so when it ends is the event's own. DESIGN CHOICE, log entry 149. -/
def State.stageLanes (s : State) (ends : Bool) : State :=
  let s := if s.boot.lanesOn then s else s.lanesBegin
  if ends then s.stageEnd 6 else s

/-- `bs` written at local address `a` by a memory controller: into the device, tags 0. -/
def State.bootWrite (s : State) (a : Nat) (bs : List Byte) : State := (s.putBytes a bs).copyBack a bs.length

/-- The boot span written: zeros, PRELOAD blocks, PURSE entries (R411). -/
def State.bootFill (s : State) : State :=
  let slot := s.curSlot
  let top := s.boot.top
  let s1 := s.forget fun a => decide (a < top)
  let s2 := (s.preBlocks slot).foldl (fun (t : State) b => t.bootWrite b.addr (s.flBytes (s.slotOff slot + b.off + 16) b.len)) s1
  let s3 := (s.purseItems slot).foldl (fun (t : State) p => t.bootWrite (s.entryAddr p.idx) p.entry.bytes) s2
  ((List.range 16).filter s.chanReady).foldl (fun (t : State) n => t.setRf (R.MEM_INIT (mc n)) F.MEM_INIT_FRONTIER (top / 16 / 4096)) s3

/-- BOOTSPAN: at its end LOAD ends (R29), unless a power failure has stopped the sequencer. A boot span on a fenced channel is the
one failure without fallback (R409). -/
def State.stageBootspan (s : State) : State :=
  if s.boot.top ≠ 0 ∧ (List.range 16).any fun n => !s.chanReady n then
    ((s.noteErr ⟨13, 0xFF, 0⟩).setRf R.IMG_STATUS F.IMG_STATUS_STAGE 15).stopHere
  else
    let stays := s.boot.stop ≠ .no
    let s := (if s.boot.top = 0 then s else s.bootFill).stageEnd 7
    if stays then s else s.setMode s.runMode

/-- A BOOTCHAN failure has been recorded. -/
def State.bootchan (s : State) : Bool := s.rf R.IMG_ERR0 F.IMG_ERR0_CODE == 13 || s.rf R.IMG_ERR1 F.IMG_ERR1_CODE == 13

/-- The eft released at its segment. -/
def State.eftStart (s : State) : State := { s with boot := { s.boot with eftRunning := true, kicked := s.time } }

/-- EFT; after a BOOTCHAN failure it still runs, and the device stays FAILED. -/
def State.stageEft (s : State) : State :=
  if s.stageReady 8 then s.eftStart.stageEnd 8
  else if s.rf R.IMG_STATUS F.IMG_STATUS_STAGE = 15 ∧ s.bootchan ∧ s.boot.stop ≠ .stopped ∧ !s.boot.eftRunning then
    (s.eftStart.setReg (R.IMG_STAGET 7) s.time).stopHere
  else s

/-- RELEASE of core k (R412). -/
def State.releaseCore (s : State) (k : Nat) : State :=
  let off : State := { s.setUnit k 3 0 with byCluster := s.byCluster.filter (· != k) }
  match s.entryRec s.curSlot k with
  | some r => if r.release && s.unitUp (0x80 + k / 8) then s.startCore (coreOf k) r else off
  | none => off

/-- DEDUCED, log entry 81. DESIGN CHOICE, log entry 84. -/
def State.stageRelease (s : State) : State :=
  let s := (List.range 128).foldl (fun (s : State) k => s.releaseCore k) s
  let s := (List.range 16).foldl (fun (s : State) c => if s.clkCur c = 0 ∧ s.unitUp (0x80 + c) then s.setCur c (s.clkFreq c) else s) s
  s.relines.stageEnd 9

/-- Stage k, if it may run. -/
def State.atStage (s : State) (k : Nat) (f : State → State) : State := if s.stageReady k then f s else s

/-! Flash commands (R414) -/

/-- A flash command ends: done, or failed with the bytes it was writing left in no particular state. DESIGN CHOICE, log entry 64. -/
def State.flashDone (s : State) (ok : Bool) : State :=
  match s.flashOp with
  | none => s
  | some o =>
    let s := ({ s with flashOp := none } : State).setRf R.IMG_FSTAT F.IMG_FSTAT_BUSY 0
    if !ok then (s.spoilFlash o.addr o.size).setRf R.IMG_FSTAT F.IMG_FSTAT_ERR 1
    else if o.op = 1 then { s with flash := s.flash.filter fun e => !(decide (o.addr ≤ e.1) && decide (e.1 < o.addr + 65536)) }
    else s.putFlash o.addr o.data

/-! The eft (R417, R418) -/

/-- The watchdog period has passed without a KICK: the eft is restarted, and a FATAL record written. -/
def State.eftExpiry (s : State) : State :=
  let w := s.rf R.MGMT_EFT F.MGMT_EFT_WDT
  if !s.boot.eftRunning || w == 0 || s.time.toNat < s.boot.kicked.toNat + w * 1000000 then s
  else
    let s : State := { s with boot := { s.boot with kicked := s.time } }
    (s.setRf R.MGMT_EFT F.MGMT_EFT_RESTARTED 1).errRecord ⟨0x160, 0, .fatal, false, none, 0, false, []⟩

def State.eftKick (s : State) : State := { s with boot := { s.boot with kicked := s.time } }

/-- The eft answers, if it runs. DESIGN CHOICE, log entry 48. DESIGN CHOICE, log entry 82. -/
def State.eftAnswers (s : State) (bs : List Byte) : State := if s.boot.eftRunning then s.answers 0 bs else s

/-- A reading of the sensor: quarters of a degree, millivolts, watts, the mode's code, a unit's state. A supply's voltage is the board's:
it is free. DESIGN CHOICE, log entry 82. -/
def State.sensor (s : State) : PldmSensor → List Byte
  | .temperature => natBytes 2 (ofInt 16 (toSigned 12 (s.rf R.MGMT_THERM F.MGMT_THERM_TEMP))).toNat
  | .supply rail => natBytes 2 (Config.supplyMillivolts s.free rail.val)
  | .power => natBytes 2 (s.rf R.MGMT_PWR F.MGMT_PWR_PWR)
  | .mode => natBytes 1 s.mode.code
  | .unit u => natBytes 1 (if unitExists u then getF (s.ustatValue u) F.MGMT_USTAT_STATE else 0)

/-- FRU data: part, stepping, DIEID. DESIGN CHOICE, log entry 82. -/
def State.fru (s : State) : List Byte := natBytes 2 0x9128 ++ natBytes 1 1 ++ natBytes 8 (s.reg R.IMG_FDIEID).toNat

/-- A firmware update writes a whole slot, not the one in use. DESIGN CHOICE, log entry 82. -/
def State.fwUpdate (s : State) (slot : Nat) (image : List Byte) : State :=
  if !s.boot.eftRunning then s
  else if slot = s.curSlot then s.answers 1 []
  else
    let o := s.slotOff slot
    let n := s.slotSize
    let s : State := { s with flash := s.flash.filter fun e => !(decide (o ≤ e.1) && decide (e.1 < o + n)) }
    (s.putFlash o (image.take n)).answers 0 []

/-! Commands -/

def execStageFlash (answers octal : Bool) (size : Nat) (s : State) : Res := s.alive fun s => s.atStage 1 (·.stageFlash answers octal size)
def execStageVerify (s : State) : Res := s.alive fun s => s.atStage 2 State.stageVerify
def execStageApply (trimsOk : Bool) (s : State) : Res := s.alive fun s => s.atStage 3 (·.stageApply trimsOk)
def execStageMemtrain (found : List ChanFind) (s : State) : Res := s.alive fun s => s.atStage 4 (·.stageMemtrain found)
def execStageTagclear (s : State) : Res := s.alive fun s => s.atStage 5 State.stageTagclear
def execStageLanes (s : State) (ends : Bool := true) : Res := s.alive fun s => s.atStage 6 (·.stageLanes ends)
def execStageBootspan (s : State) : Res := s.alive fun s => s.atStage 7 State.stageBootspan
def execStageEft (s : State) : Res := s.alive State.stageEft
def execStageRelease (s : State) : Res := s.alive fun s => s.atStage 9 State.stageRelease
/-- A write of IMG_APPLY with GO (R434). -/
def execImgApplyGo (v : Word) (s : State) : Res := s.alive fun s => s.imgApply (setF v F.IMG_APPLY_GO 1)
def execFlashErase (v : Word) (s : State) : Res := s.alive fun s => s.fcmdWrite 0x160 (setF v F.IMG_FCMD_OP 1)
def execFlashProgram (v : Word) (s : State) : Res := s.alive fun s => s.fcmdWrite 0x160 (setF v F.IMG_FCMD_OP 2)
def execFlashCommandDone (ok : Bool) (s : State) : Res := s.alive fun s => s.flashDone ok
def execEftWatchdogExpiry (s : State) : Res := s.alive State.eftExpiry
def execEftKick (s : State) : Res := s.alive State.eftKick
def execEftSwap (s : State) : Res := s.alive State.eftSwap
/-- PLDM types 0, 2, 4 and 5 are supported. -/
def execPldmDiscovery (s : State) : Res := s.alive fun s => s.eftAnswers [0, 2, 4, 5]
def execPldmPlatform (sensor : PldmSensor) (s : State) : Res := s.alive fun s => s.eftAnswers (s.sensor sensor)
def execPldmFru (s : State) : Res := s.alive fun s => s.eftAnswers s.fru
def execPldmFirmwareUpdate (slot : Bool) (image : List Byte) (s : State) : Res := s.alive fun s => s.fwUpdate (b2n slot) image
/-- The bus owner assigns the eft's endpoint ID. -/
def execMctpControlMessage (eid : BitVec 8) (s : State) : Res :=
  s.alive fun s => if s.boot.eftRunning then { s with boot := { s.boot with eid := eid } } else s

end Sys2Proof.Machine
end

