-- ==== Sys2Proof/Machine/Debug.lean ====
section
/-!
DEFINITION. Register writes from outside (R6–R12), debug (R447–R452) and the TAP.
-/
namespace Sys2Proof.Machine

/-- The low `len` bytes of a word. -/
def lowBytes (len : Nat) (v : Word) : Word := BitVec.ofNat 64 (v.toNat % 2 ^ (8 * min len 8))

/-- What an access leaves, whether it has been acknowledged or not. DESIGN CHOICE, log entry 83. -/
def accessDone (r : CtlRes × State) : State := r.2.unblock

/-- The same with the bus error that a refused access is to its initiator (R7, R8). -/
def accessAnswer (r : CtlRes × State) : State :=
  match r.1 with
  | .access | .notarget => r.2.unblock.answers 1 []
  | _ => r.2.unblock

/-- An access of the eft (R359, R362, R366, R415): control space always, memory and windows under guard set 24 with the default map.
DESIGN CHOICE, log entry 115. -/
def State.eftAccess (s0 : State) (pa len : Nat) (write : Bool) (v : Word) : State :=
  if pa ≥ 0xFF0000000000 then
    if write then accessAnswer (s0.ctlWrite 0x160 (pa - 0xFF0000000000) len (lowBytes len v))
    else match s0.ctlRead 0x160 (pa - 0xFF0000000000) len with
      | (.ok x, s) => s.unblock.answers 0 (natBytes (min len 8) x.toNat)
      | r => accessAnswer r
  else
    let op : GOp := if write then .write else .read
    match s0.guardCheck 24 0 pa op true with
    | (some r, s) => let s := s.guardRefuse 24 r op pa 0; if write then s else s.answers 1 []
    | (none, s) =>
      match s.mgmtAccess 0x160 pa len (if write then some (natBytes (min len 8) v.toNat) else none) with
      | .read bs s => s.answers 0 bs
      | .wrote t => t.signalAfter s.nextId (.answer 0 [])
      | .failed s => s.answers 1 []
      | .wait s => s0.keepRequests s

/-- The eft's program, once it runs, reads or writes its data SRAM (R415). DESIGN CHOICE, log entry 115. -/
def State.eftSramAccess (s : State) (off len : Nat) (write : Bool) (v : Word) : State :=
  if !s.boot.eftRunning then s
  else if write then
    { s with boot := { s.boot with eftSram := (List.range (min len 8)).foldl (fun m i =>
        SMap.set zeroByte m ((off + i) % 0x40000) (v.extractLsb' (8 * i) 8)) s.boot.eftSram } }
  else s.answers 0 ((List.range (min len 8)).map fun i => SMap.get zeroByte s.boot.eftSram ((off + i) % 0x40000))

/-- A write to control space by unit `init`, or to a core state register that takes one. A write with no target or that breaks R7 changes
nothing, and its initiator has a bus error. DESIGN CHOICE, log entry 83. -/
def State.registerWrite (s : State) (place : RegPlace) (v : Word) : State :=
  match place with
  | .ctl init key len => accessAnswer (s.ctlWrite init key len (lowBytes len v))
  | .eft pa len write => s.eftAccess pa len write v
  | .eftSram off len write => s.eftSramAccess off len write v
  | .core k i =>
    match csRule ((s.core k).csF R.CS_BANKWIN F.CS_BANKWIN_BANK) i with
    | some r => if r.coin then s else (s.dbgCsWrite k i (v.zeroExtend 128)).unblock
    | none => s

/-- The TAP's data register reaches control space at the current level (R447); a refused access answers 1. -/
def State.tapAccess (s : State) (write : Bool) (key len : Nat) (v : Word) : State :=
  let v := lowBytes len v
  let r : Option (CtlRes × State) :=
    if write && key == R.DBG_MCTL && len == 8 then (if s.dbgLevel < dbgNeeds key true then none else some (s.mctlWrite v))
    else s.dbgControl key len write v
  match r with
  | none => s.answers 1 []
  | some (.ok x, s') => s'.unblock.answers 0 (natBytes (min len 8) x.toNat)
  | some (.held, s') => s'.unblock
  | some (_, s') => s'.unblock.answers 1 []

/-- The TAP's identification: part number 0x9128; version and manufacturer are not stated. DESIGN CHOICE, log entry 150. -/
def idcode : BitVec 32 := setF (setF Config.tapIdcode ⟨27, 12⟩ 0x9128) ⟨0, 0⟩ 1

/-- A TAP instruction (R447): EXTEST drives the lands with what is shifted in and answers what they carry, at level 3 alone;
SAMPLE/PRELOAD answers the lands and loads the boundary register, driving nothing; IDCODE answers the part; BYPASS answers one
bit of 0. Another instruction ends EXTEST. DEDUCED, log entry 65. DESIGN CHOICE, log entry 150. -/
def State.tapRun (s : State) (insn : TapInsn) (drive lands : Nat) : State :=
  match insn with
  | .extest => if s.dbgLevel < 3 then s.answers 1 [] else ({ s with tap := ⟨some drive, drive⟩ } : State).answers 0 (natBytes 752 lands)
  | .samplePreload => ({ s with tap := ⟨none, drive⟩ } : State).answers 0 (natBytes 752 lands)
  | .idcode => ({ s with tap := { s.tap with extest := none } } : State).answers 0 (natBytes 4 idcode.toNat)
  | .bypass => ({ s with tap := { s.tap with extest := none } } : State).answers 0 [0]

def State.atLevel (s : State) (n : Nat) (f : State → State) : State := if s.dbgLevel < n then s else f s

/-! Commands -/

def execRegisterWrite (place : RegPlace) (v : Word) (s : State) : Res := s.alive fun s => s.registerWrite place v
/-- A write of DBG_UNLOCK with GO (R448). -/
def execDbgUnlockGo (v : Word) (s : State) : Res := s.alive fun s => s.unlockWrite (setF v F.DBG_UNLOCK_GO 1)
def execDbgLock (s : State) : Res := s.alive State.dbgLock
/-- A write of DBG_MCTL with GO (R449). -/
def execDbgMemoryAccess (v : Word) (s : State) : Res := s.alive fun s => accessDone (s.mctlWrite (setF v F.DBG_MCTL_GO 1))
def execDbgHalt (k : CoreId) (s : State) : Res := s.alive fun s => s.atLevel 2 (·.cctlAsk k 1)
def execDbgResume (k : CoreId) (s : State) : Res := s.alive fun s => s.atLevel 2 (·.cctlAsk k 2)
def execDbgStep (k : CoreId) (s : State) : Res := s.alive fun s => s.atLevel 2 (·.cctlAsk k 4)
/-- A write of DBG_CSEL with GO (R450). -/
def execDbgRegisterAccess (v : Word) (s : State) : Res :=
  s.alive fun s => accessDone (s.ctlWrite 0x170 R.DBG_CSEL 8 (setF v F.DBG_CSEL_GO 1))
/-- A write of DBG_TRCTL with EN (R452). -/
def execTraceEnable (v : Word) (s : State) : Res := s.alive fun s => s.atLevel 2 (·.trctlWrite (setF v F.DBG_TRCTL_EN 1))
def execTapControlAccess (write : Bool) (key len : Nat) (v : Word) (s : State) : Res := s.alive fun s => s.tapAccess write key len v
def execTapExtest (drive lands : Nat) (s : State) (insn : TapInsn := .extest) : Res := s.alive fun s => s.tapRun insn drive lands
/-- TRST_N resets the TAP and nothing else (R455). -/
def execTapReset (s : State) : Res := .next { s with tap := ⟨none, 0⟩ }

end Sys2Proof.Machine
end

