-- ==== Sys2Proof/Machine/Flow.lean ====
section
/-!
DEFINITION. Control transfer (R110, R117–R119), gates (R185, R186), return from traps with tail-chaining (R190, R202, R205),
hardware loops (R120, R121) and BRK, NOP, WAIT and ABAR (R106, R155, R229).
-/
namespace Sys2Proof.Machine

/-! Branches and jumps -/

/-- A conditional branch (R110). -/
def branch (f3 : Nat) (p : Word → Word → Bool) (k : CoreId) (a b : BitVec 5) (disp : BitVec 12) (s : State) : Res :=
  coreInstr k (mkInsn (encBR a.toNat b.toNat f3 disp.toNat) [gN a, gN b] []) (do
    let c ← getC k
    pure (if p (c.gR a.toNat) (c.gR b.toNat) then .jump (c.pcc.cursor + ofInt 64 (disp.toInt * 4)) else .seq)) s

def execBeq (k : CoreId) (a b : BitVec 5) (disp : BitVec 12) (s : State) : Res := branch 0 (fun x y => x == y) k a b disp s
def execBne (k : CoreId) (a b : BitVec 5) (disp : BitVec 12) (s : State) : Res := branch 1 (fun x y => x != y) k a b disp s
def execBlt (k : CoreId) (a b : BitVec 5) (disp : BitVec 12) (s : State) : Res := branch 2 (fun x y => x.slt y) k a b disp s
def execBge (k : CoreId) (a b : BitVec 5) (disp : BitVec 12) (s : State) : Res := branch 3 (fun x y => !x.slt y) k a b disp s
def execBltu (k : CoreId) (a b : BitVec 5) (disp : BitVec 12) (s : State) : Res := branch 4 (fun x y => x.ult y) k a b disp s
def execBgeu (k : CoreId) (a b : BitVec 5) (disp : BitVec 12) (s : State) : Res := branch 5 (fun x y => !x.ult y) k a b disp s

/-- The return coin of a call: CS_PCC at the next instruction (R117). -/
def CoreState.retCoin (c : CoreState) : Coin := c.pcc.withCursor (c.pcc.cursor + 4)

def execJmp (k : CoreId) (disp : BitVec 24) (s : State) : Res :=
  coreInstr k (mkInsn (encJ 0 disp.toNat) [] []) (do
    let c ← getC k
    pure (.jump (c.pcc.cursor + ofInt 64 (disp.toInt * 4)))) s

def execCall (k : CoreId) (disp : BitVec 24) (s : State) : Res :=
  coreInstr k (mkInsn (encJ 1 disp.toNat) [] []) (do
    let c ← getC k
    push1 k c.retCoin
    pure (.jump (c.pcc.cursor + ofInt 64 (disp.toInt * 4)))) s

def execJmpc (k : CoreId) (cb : BitVec 5) (s : State) : Res :=
  coreInstr k (mkInsn (encRI 0x1A 0 cb.toNat 0 0) [cN cb] []) (do
    needC cb
    let c ← getC k
    pure (.coin (c.cR cb.toNat))) s

def execCallc (k : CoreId) (cb : BitVec 5) (s : State) : Res :=
  coreInstr k (mkInsn (encRI 0x1A 0 cb.toNat 1 0) [cN cb] []) (do
    needC cb
    let c ← getC k
    push1 k c.retCoin
    pure (.coin (c.cR cb.toNat))) s

def execJmpr (k : CoreId) (a : BitVec 5) (s : State) : Res :=
  coreInstr k (mkInsn (encRI 0x1A 0 a.toNat 2 0) [gN a] []) (do
    let c ← getC k
    pure (.jump (c.gR a.toNat))) s

def execCallr (k : CoreId) (a : BitVec 5) (s : State) : Res :=
  coreInstr k (mkInsn (encRI 0x1A 0 a.toNat 3 0) [gN a] []) (do
    let c ← getC k
    push1 k c.retCoin
    pure (.jump (c.gR a.toNat))) s

/-- Trap 0x0F (R185, R190, R202). -/
def gateFault (cause purse : Nat) : TrapRep :=
  ⟨0x0F, 0, [(R.CS_GFINFO, setF (setF 0 F.CS_GFINFO_CAUSE cause) F.CS_GFINFO_PURSE purse)]⟩

/-- RET (R117, R190): a popped frame granule is refused with cause FRAME. -/
def execRet (k : CoreId) (s : State) : Res :=
  coreInstr k (mkInsn (encRI 0x1A 0 0 4 0) [] []) (do
    let (x, r) ← pop1 k
    if !x.tag && bitB x.bits 127 then trapM (gateFault 6 0)
    else
      modC k fun c => c.ccSet (R.CS_RSTK c.ring) r
      pure (.coin x)) s

/-! CALLG -/

/-- A purse entry read by core k outside a check (R185): a failed read is a bus error of the check, whose address is a free
value because the entry is reached through no coin. DEDUCED, log entry 15. -/
def readPurse (k : CoreId) (i : Nat) : CM Purse := fun s =>
  match s.purseCached k i with
  | (.ok p, s) => .ok p s
  | (.poison, s) => .error (.trap (busTrap (Config.freeWord s.free) (tiFlag F.CS_TINFO_PURSE true ||| tiFlag F.CS_TINFO_POISON true))) s.bumpFree
  | (.notarget, s) =>
    .error (.trap (busTrap (Config.freeWord s.free) (tiFlag F.CS_TINFO_PURSE true ||| tiFlag F.CS_TINFO_NOTARGET true))) s.bumpFree

/-- The gate faults of callg() in order, before the CODE entry is read; purse count n, ring r (R185). -/
def gateBefore (n r : Nat) (g : Purse) : Option Nat :=
  if g.tring > r then some 1 else if g.tring = 3 then some 2 else if g.link ≥ n then some 3 else none

/-- The gate faults that need the CODE entry t. -/
def gateAfter (asid : Nat) (g t : Purse) : Option Nat :=
  if t.malformed ∨ t.state ≠ 1 ∨ t.type ≠ 1 ∨ (t.owner ≠ 0 ∧ t.owner ≠ asid) ∨ g.tring > t.floor then some 4
  else if g.base % 4 ≠ 0 ∨ g.base < t.base ∨ g.base + 4 > t.base + t.length then some 5
  else none

/-- callg(cb) of R185. A system-call gate enters its descriptor with the next instruction as return address; long operations
complete first, and an exception then pending displaces it with the CALLG as return address (R154). -/
def execCallg (k : CoreId) (cb : BitVec 5) (s : State) : Res :=
  coreInstr k (mkInsn (encRI 0x1A 0 cb.toNat 5 0) [cN cb] []) (do
    needC cb
    let c ← getC k
    let x := c.cR cb.toNat
    let (_, g) ← coinCheckP k cb.toNat x 0 0 12 none
    if 0xFFFFFF20 ≤ g.link && g.link ≤ 0xFFFFFF2F then
      pure (.enter (simpleTrap (0x20 + g.link % 16)))
    else
      let n := (← getS).ptbCount
      match gateBefore n c.ring g with
      | some e => trapM (gateFault e x.purse)
      | none => do
        let t ← readPurse k g.link
        match gateAfter c.asid g t with
        | some e => trapM (gateFault e x.purse)
        | none => do
          push2 k g.tring c.retCoin (statusGranule (c.csGet R.CS_STATUS) 0 true false)
          let pc := Coin.make (BitVec.ofNat 64 g.base) g.link t.issue 0x005 true
          modS fun s => s.transfer k pc
          modC k fun c => c.csSetF R.CS_STATUS F.CS_STATUS_RING g.tring
          pure .done) s

/-! TRET (R202) -/

/-- The frame TRET reads: status granule, return coin, and what popping it does to the core. -/
def tretFrame (k : CoreId) : CM (Coin × Coin × (CoreState → CoreState)) := do
  let c ← getC k
  let d := c.csF R.CS_EMINFO F.CS_EMINFO_EMDEPTH
  if d > 0 then
    if d = 1 then trapM (gateFault 6 0)
    else
      pure (c.ccGet (R.CS_EMRSTK (d - 1)), c.ccGet (R.CS_EMRSTK (d - 2)),
        fun c => c.csSetF R.CS_EMINFO F.CS_EMINFO_EMDEPTH (d - 2))
  else
    let n := c.ring
    let r := c.ccGet (R.CS_RSTK n)
    let a ← rscheck k n r (checkAddr r 0)
    let a' ← rscheck k n r (checkAddr r 16)
    -- no wait for the acceptance of control-space stores (R228)
    modS fun s => s.afterFences k
    let hy ← stackHalf k n a false
    let hx ← stackHalf k n a' false
    let (ys, ty) ← readNow k a hy true 0
    let (xs, tx) ← readNow k a' hx true 0
    let y ← retireM k ⟨BitVec.ofNat 128 (bytesNat ys), ty⟩
    let x ← retireM k ⟨BitVec.ofNat 128 (bytesNat xs), tx⟩
    pure (y, x, fun c => c.ccSet (R.CS_RSTK n) (r.withCursor (BitVec.ofNat 64 (a + 32))))

/-- The interrupt that could be tail-chained under the status of granule y (R205): its number. -/
def CoreState.chainable (c : CoreState) (y : Coin) : Option Nat :=
  let ih := bitB y.bits 2
  let yGecko := bitB y.bits 4
  if !bitB y.bits 71 || ih || yGecko || c.ax != [] || c.notices != [] || c.step then none
  else if c.lineG then some 0x31
  else if c.lineN && !c.gecko then some 0x30
  else none

/-- tail_chain(y) of R205; false when TRET returns normally. An entry that is displaced to 0x0F takes the stack of the ring that was
saved, in the gecko bank's c14 where GECKO is 1, and switches no bank: DESIGN CHOICE, log entry 134. -/
def tailChain (k : CoreId) (y : Coin) : CM Bool := do
  let c ← getC k
  match c.chainable y with
  | none => pure false
  | some n =>
    match ← liftS fun s => s.pickDesc k n with
    | .error e => do
      modS fun s => s.stopCore k e
      pure true
    | .ok (d, m, disp) =>
      let sr := getF y.bits ⟨1, 0⟩
      if min d.ring sr ≠ c.ring then pure false
      else do
        -- what the handler's loads still bring to the vector state it used arrives before that state is cleared
        if c.vUsed then modS fun s => s.returnAll k
        modC k CoreState.vChain
        modC k fun c =>
          let c := if m = 0x31 then c.csSetF R.CS_STATUS F.CS_STATUS_GECKO 1 else c.stackSelect d sr
          let c := c.ccSet R.CS_ENTC14 (c.read (c.cDst 14)).coinOf
          let c := if disp then c.csSet R.CS_GFINFO 8 else c
          let ti := setF (setF 0 F.CS_TINFO_NUM m) F.CS_TINFO_TAIL 1
          let c := c.csSet R.CS_TINFO (if disp then displace ti n else ti)
          c.csSetF R.CS_STATUS F.CS_STATUS_IH (b2n (bitB y.bits 2 || d.hold))
        modS fun s => s.transfer k d.handler
        pure true

/-- TRET (R202): nothing changes where a step traps. -/
def execTret (k : CoreId) (s : State) : Res :=
  coreInstr k (mkInsn (encRI 0x1C 0 0 4 2) [] []) (do
    let c ← getC k
    if c.ring = 3 then privileged
    else
      modC k CoreState.longsDone
      let (y, x, pop) ← tretFrame k
      let c ← getC k
      if y.tag || !bitB y.bits 127 then trapM (gateFault 6 0)
      else if getF y.bits ⟨1, 0⟩ < c.ring then trapM (gateFault 7 0)
      else if ← tailChain k y then pure .done
      else
        -- what the handler's loads still bring to the vector state it used arrives before that state is replaced
        if c.vUsed then modS fun s => s.returnAll k
        let vret ← vectorReturn k
        let ypa := bitB y.bits 3
        if ypa != (c.csF R.CS_STATUS F.CS_STATUS_PA == 1) then barrier k
        modC k fun c =>
          let c := pop (vret c)
          let st := c.csGet R.CS_STATUS
          let st := setF (setF (setF (setF (setF st F.CS_STATUS_RING (getF y.bits ⟨1, 0⟩)) F.CS_STATUS_IH (getF y.bits ⟨2, 2⟩))
            F.CS_STATUS_PA (getF y.bits ⟨3, 3⟩)) F.CS_STATUS_GECKO (getF y.bits ⟨4, 4⟩)) F.CS_STATUS_HER (getF y.bits ⟨5, 5⟩)
          c.csSet R.CS_STATUS st
        pure (.coin x)) s

/-! Loops (R120) -/

/-- loop(start, end, count) of R120 on the core. -/
def CoreState.pushLoop (c : CoreState) (start fin count : Word) : CoreState :=
  let mv (d s : Nat) (c : CoreState) : CoreState :=
    (List.range 4).foldl (fun c j => c.csSet (d + j) (c.csGet (s + j))) c
  let c := mv R.CS_LSTART1 R.CS_LSTART (mv R.CS_LSTART2 R.CS_LSTART1 c)
  let c := ((c.csSet R.CS_LSTART start).csSet R.CS_LEND fin).csSet R.CS_LCOUNT count
  let c := c.csSet R.CS_LPURSE (BitVec.ofNat 64 c.pcc.purse)
  c.csSetF R.CS_LDEPTH F.CS_LDEPTH_DEPTH (c.csF R.CS_LDEPTH F.CS_LDEPTH_DEPTH + 1)

/-- A loop instruction with its count (R120): a count of 0 skips the body. Where it ends an outer body, the skip is taken for a transfer,
with no end step (R121), and LEXIT likewise: DESIGN CHOICE, log entry 122. -/
def loopBody (k : CoreId) (len : BitVec 10) (count : CoreState → Word) : CM Next := do
  if len = 0 then illegal
  else
    let c ← getC k
    let n := count c
    let start := c.pcc.cursor + 4
    let fin := start + BitVec.ofNat 64 (4 * (len.toNat - 1))
    if n = 0 then pure (.jump (fin + 4))
    else if c.csF R.CS_LDEPTH F.CS_LDEPTH_DEPTH = 3 then illegal
    else onCore k fun c => c.pushLoop start fin n

def execLoopG (k : CoreId) (a : BitVec 5) (len : BitVec 10) (s : State) : Res :=
  coreInstr k (mkInsn (encLP a.toNat 0 0 len.toNat 0) [gN a] []) (loopBody k len fun c => c.gR a.toNat) s

def execLoopi (k : CoreId) (count : BitVec 8) (len : BitVec 10) (s : State) : Res :=
  coreInstr k (mkInsn (encLP 0 1 0 len.toNat count.toNat) [] []) (loopBody k len fun _ => count.zeroExtend 64) s

/-- LEXIT (R121). -/
def execLexit (k : CoreId) (s : State) : Res :=
  coreInstr k (mkInsn (encLP 0 0 1 0 0) [] []) (do
    let c ← getC k
    if c.csF R.CS_LDEPTH F.CS_LDEPTH_DEPTH = 0 then illegal
    else
      let fin := c.csGet R.CS_LEND
      modC k CoreState.popLoop
      pure (.jump (fin + 4))) s

/-! NOP, WAIT, BRK, ABAR (R106) -/

def execNop (k : CoreId) (s : State) : Res := coreInstr k (mkInsn (encRI 0x1C 0 0 4 0) [] []) (pure .seq) s

/-- WAIT (R229): it completes when a line of the core is asserted; until then the core stops issuing. -/
def execWait (k : CoreId) (s : State) : Res :=
  coreInstr k (mkInsn (encRI 0x1C 0 0 4 1) [] []) (onCore k fun c =>
    if c.lineN || c.lineG then c else { c with run := .waiting }) s

/-- BRK: trap 0x13 with the next instruction as return address (R106, R194); CS_DBGCTL.HIT reads 0 for it. DEDUCED, log entry 22. -/
def execBrk (k : CoreId) (s : State) : Res :=
  coreInstr k (mkInsn (encRI 0x1C 0 0 4 3) [] []) (do
    let c ← getC k
    let v := setF (setF (c.csGet R.CS_DBGCTL) F.CS_DBGCTL_HIT 0) F.CS_DBGCTL_SKIP 0
    pure (.enter ⟨0x13, 0, [(R.CS_DBGCTL, v)]⟩)) s

/-- ABAR (R155). -/
def execAbar (k : CoreId) (s : State) : Res :=
  coreInstr k (mkInsn (encRI 0x1C 0 0 4 4) [] []) (do
    barrier k
    pure .seq) s

end Sys2Proof.Machine
end

