-- ==== Sys2Proof/Machine/FpInsn.lean ====
section
/-!
DEFINITION. The floating-point instructions of opcodes 0x21, 0x22 and 0x23 (R142, R144, R146, R147): legality, operands,
rounding mode, and delivery of results and flags.
-/
namespace Sys2Proof.Machine

/-- The format of an instruction of opcode 0x21 (dec = false) or 0x22; none for codes 2 and 3 (R146). -/
def fpFmt (dec : Bool) (fmt : BitVec 2) : Option Fmt :=
  match dec, fmt.toNat with
  | false, 0 => some binary32 | false, 1 => some binary64
  | true, 0 => some decimal64 | true, 1 => some decimal128
  | _, _ => none

/-- The format of an FMA (R147). -/
def fmaFmt (fmt : BitVec 2) : Fmt :=
  match fmt.toNat with
  | 0 => binary32 | 1 => binary64 | 2 => decimal64 | _ => decimal128

/-- The rounding mode of a code for a destination of the given family; none for 5 and 6 (R144). -/
def CoreState.rmode (c : CoreState) (code : Nat) (dec : Bool) : Option RMode :=
  if code ≤ 4 then some (RMode.ofCode code)
  else if code = 7 then
    some (RMode.ofCode (if dec then c.csF R.CS_FPCTL F.CS_FPCTL_DRM else c.csF R.CS_FPCTL F.CS_FPCTL_BRM))
  else none

/-- The bits of F register n in a format (R142). -/
def CoreState.fpBits (c : CoreState) (f : Fmt) (n : Nat) : Nat :=
  if f.width = 128 then (c.qR n).toNat else (c.fR n).toNat % 2 ^ f.width
def CoreState.fpR (c : CoreState) (f : Fmt) (n : Nat) : FpVal := f.decode (c.fpBits f n)

/-- A write of bits to F register n: f[63:32] is 0 for binary32 (R142). -/
def fpDst (f : Fmt) (n : Nat) (bits : Nat) : Dst × DVal :=
  if f.width = 128 then (.q n, .quad (BitVec.ofNat 128 bits)) else (.f n, .w (BitVec.ofNat 64 bits))

/-- An instruction word of opcode 0x21 or 0x22. -/
def encFp (dec : Bool) (fmt : BitVec 2) (op d a b f3 : Nat) : Nat :=
  encRR (if dec then 0x22 else 0x21) d a b f3 (fmt.toNat * 32 + op)

/-- The destinations of the forms: an F register, a g register. -/
def fpOut (f : Fmt) (d : BitVec 5) (r : FpRes) : List (Dst × DVal) × Flags8 := ([fpDst f d.toNat (f.encode r.v)], r.fl)

/-- A floating-point instruction: legal format, rounding code legal where it has one, vector state touched (R180), delivered as
a long operation. `rm` is the rounding code, with the family of the mode field it may name. -/
def fpInstr (k : CoreId) (i : Insn) (fo : Option Fmt) (rm : Option (Nat × Bool)) (bad : Bool)
    (g : Fmt → RMode → CoreState → List (Dst × DVal) × Flags8) (s : State) : Res :=
  coreInstr k i (do
    let c ← getC k
    match fo, (match rm with | some (code, dec) => c.rmode code dec | none => some .rne) with
    | some f, some m =>
      if bad then illegal
      else
        vtouch k
        deliver k true i.word (g f m)
    | _, _ => illegal) s

/-- F, F, F with rounding. -/
def fpTri (op : Nat) (g : Fmt → RMode → FpVal → FpVal → FpRes) (k : CoreId) (dec : Bool) (fmt : BitVec 2) (d a b : BitVec 5)
    (f3 : BitVec 3) (s : State) : Res :=
  fpInstr k (mkInsn (encFp dec fmt op d.toNat a.toNat b.toNat f3.toNat) [vN a, vN b] [vN d]) (fpFmt dec fmt)
    (some (f3.toNat, dec)) false (fun f m c => fpOut f d (g f m (c.fpR f a.toNat) (c.fpR f b.toNat))) s

/-- F, F, F without rounding. -/
def fpTri0 (op : Nat) (g : Fmt → FpVal → FpVal → FpRes) (k : CoreId) (dec : Bool) (fmt : BitVec 2) (d a b : BitVec 5)
    (s : State) : Res :=
  fpInstr k (mkInsn (encFp dec fmt op d.toNat a.toNat b.toNat 0) [vN a, vN b] [vN d]) (fpFmt dec fmt) none false
    (fun f _ c => fpOut f d (g f (c.fpR f a.toNat) (c.fpR f b.toNat))) s

/-- F, F with rounding. -/
def fpDuo (op : Nat) (g : Fmt → RMode → FpVal → FpRes) (k : CoreId) (dec : Bool) (fmt : BitVec 2) (d a : BitVec 5)
    (f3 : BitVec 3) (s : State) : Res :=
  fpInstr k (mkInsn (encFp dec fmt op d.toNat a.toNat 0 f3.toNat) [vN a] [vN d]) (fpFmt dec fmt) (some (f3.toNat, dec)) false
    (fun f m c => fpOut f d (g f m (c.fpR f a.toNat))) s

/-- g, F, F: a relation. -/
def fpRelI (op : Nat) (g : Fmt → FpVal → FpVal → Bool × Flags8) (k : CoreId) (dec : Bool) (fmt : BitVec 2) (d a b : BitVec 5)
    (s : State) : Res :=
  fpInstr k (mkInsn (encFp dec fmt op d.toNat a.toNat b.toNat 0) [vN a, vN b] [gN d]) (fpFmt dec fmt) none false
    (fun f _ c => let r := g f (c.fpR f a.toNat) (c.fpR f b.toNat); ([(c.gDst d.toNat, .w (b2w r.1))], r.2)) s

def execFpAdd (k : CoreId) (dec : Bool) (fmt : BitVec 2) (d a b : BitVec 5) (f3 : BitVec 3) (s : State) : Res :=
  fpTri 0 fpAdd k dec fmt d a b f3 s
def execFpSub (k : CoreId) (dec : Bool) (fmt : BitVec 2) (d a b : BitVec 5) (f3 : BitVec 3) (s : State) : Res :=
  fpTri 1 fpSub k dec fmt d a b f3 s
def execFpMul (k : CoreId) (dec : Bool) (fmt : BitVec 2) (d a b : BitVec 5) (f3 : BitVec 3) (s : State) : Res :=
  fpTri 2 fpMul k dec fmt d a b f3 s
def execFpDiv (k : CoreId) (dec : Bool) (fmt : BitVec 2) (d a b : BitVec 5) (f3 : BitVec 3) (s : State) : Res :=
  fpTri 3 fpDiv k dec fmt d a b f3 s
def execFpSqrt (k : CoreId) (dec : Bool) (fmt : BitVec 2) (d a : BitVec 5) (f3 : BitVec 3) (s : State) : Res :=
  fpDuo 4 fpSqrt k dec fmt d a f3 s
def execFpMin (k : CoreId) (dec : Bool) (fmt : BitVec 2) (d a b : BitVec 5) (s : State) : Res :=
  fpTri0 5 (fun f x y => fpMinMax f false x y) k dec fmt d a b s
def execFpMax (k : CoreId) (dec : Bool) (fmt : BitVec 2) (d a b : BitVec 5) (s : State) : Res :=
  fpTri0 6 (fun f x y => fpMinMax f true x y) k dec fmt d a b s
def execFpCeq (k : CoreId) (dec : Bool) (fmt : BitVec 2) (d a b : BitVec 5) (s : State) : Res :=
  fpRelI 7 (fun f => fpRel f false (· == 0)) k dec fmt d a b s
def execFpClt (k : CoreId) (dec : Bool) (fmt : BitVec 2) (d a b : BitVec 5) (s : State) : Res :=
  fpRelI 8 (fun f => fpRel f true (decide <| · < 0)) k dec fmt d a b s
def execFpCle (k : CoreId) (dec : Bool) (fmt : BitVec 2) (d a b : BitVec 5) (s : State) : Res :=
  fpRelI 9 (fun f => fpRel f true (decide <| · ≤ 0)) k dec fmt d a b s
def execFpCun (k : CoreId) (dec : Bool) (fmt : BitVec 2) (d a b : BitVec 5) (s : State) : Res :=
  fpRelI 10 (fun _ x y => (x.isNaN || y.isNaN, flagIf (x.isSNaN || y.isSNaN) fNV)) k dec fmt d a b s

def execFpClass (k : CoreId) (dec : Bool) (fmt : BitVec 2) (d a : BitVec 5) (s : State) : Res :=
  fpInstr k (mkInsn (encFp dec fmt 11 d.toNat a.toNat 0 0) [vN a] [gN d]) (fpFmt dec fmt) none false
    (fun f _ c => ([(c.gDst d.toNat, .w (BitVec.ofNat 64 (2 ^ fpClass f (c.fpR f a.toNat))))], 0)) s

/-- The other width of a family. -/
def otherWidth (f : Fmt) : Fmt :=
  if f = binary32 then binary64 else if f = binary64 then binary32 else if f = decimal64 then decimal128 else decimal64

def execFpCvtw (k : CoreId) (dec : Bool) (fmt : BitVec 2) (d a : BitVec 5) (f3 : BitVec 3) (s : State) : Res :=
  fpInstr k (mkInsn (encFp dec fmt 12 d.toNat a.toNat 0 f3.toNat) [vN a] [vN d]) (fpFmt dec fmt) (some (f3.toNat, dec)) false
    (fun f m c => fpOut (otherWidth f) d (fpCvtw f (otherWidth f) m (c.fpR f a.toNat))) s

def execFpCvtx (k : CoreId) (dec : Bool) (fmt : BitVec 2) (d a sel : BitVec 5) (f3 : BitVec 3) (s : State) : Res :=
  let dst := (fpFmt (!dec) (sel.extractLsb' 0 2)).getD binary64
  fpInstr k (mkInsn (encFp dec fmt 13 d.toNat a.toNat sel.toNat f3.toNat) [vN a] [vN d]) (fpFmt dec fmt) (some (f3.toNat, !dec))
    (sel.toNat > 1) (fun f m c => fpOut dst d (fpCvtx f dst m (c.fpR f a.toNat))) s

def execFpCvti (k : CoreId) (dec : Bool) (fmt : BitVec 2) (d a : BitVec 5) (f3 : BitVec 3) (s : State) : Res :=
  fpInstr k (mkInsn (encFp dec fmt 14 d.toNat a.toNat 0 f3.toNat) [vN a] [gN d]) (fpFmt dec fmt) (some (f3.toNat, dec)) false
    (fun f m c => let r := fpCvti f m (c.fpR f a.toNat); ([(c.gDst d.toNat, .w r.1)], r.2)) s

def execFpCvtfi (k : CoreId) (dec : Bool) (fmt : BitVec 2) (d a : BitVec 5) (f3 : BitVec 3) (s : State) : Res :=
  fpInstr k (mkInsn (encFp dec fmt 15 d.toNat a.toNat 0 f3.toNat) [gN a] [vN d]) (fpFmt dec fmt) (some (f3.toNat, dec)) false
    (fun f m c => fpOut f d (fpCvtfi f m (c.gR a.toNat))) s

def execFpRint (k : CoreId) (dec : Bool) (fmt : BitVec 2) (d a : BitVec 5) (f3 : BitVec 3) (s : State) : Res :=
  fpDuo 16 fpRint k dec fmt d a f3 s

def execFpQuantize (k : CoreId) (fmt : BitVec 2) (d a b : BitVec 5) (f3 : BitVec 3) (s : State) : Res :=
  fpTri 17 fpQuantize k true fmt d a b f3 s
def execFpSameq (k : CoreId) (fmt : BitVec 2) (d a b : BitVec 5) (s : State) : Res :=
  fpRelI 18 (fun _ x y => (fpSameq x y, 0)) k true fmt d a b s

/-- The bits SGN writes: sub-operations 0–3 on the sign bit (R146). -/
def sgnBits (w sub x y : Nat) : Nat :=
  let top := 2 ^ (w - 1)
  match sub with
  | 0 => x
  | 1 => if x / top % 2 = 1 then x - top else x + top
  | 2 => x % top
  | _ => x % top + y / top % 2 * top

def execFpSgn (k : CoreId) (dec : Bool) (fmt : BitVec 2) (d a b : BitVec 5) (f3 : BitVec 3) (s : State) : Res :=
  fpInstr k (mkInsn (encFp dec fmt 19 d.toNat a.toNat b.toNat f3.toNat) [vN a, vN b] [vN d]) (fpFmt dec fmt) none (f3.toNat > 3)
    (fun f _ c => ([fpDst f d.toNat (sgnBits f.width f3.toNat (c.fpBits f a.toNat) (c.fpBits f b.toNat))], 0)) s

/-- The pair legality of a decimal128 form. -/
def pairBad (dec : Bool) (fmt : BitVec 2) (n : BitVec 5) (dest : Bool) : Bool :=
  dec && fmt.toNat == 1 && (n.toNat % 2 == 1 || (dest && n.toNat == 0))

def execFpMvg (k : CoreId) (dec : Bool) (fmt : BitVec 2) (d a : BitVec 5) (s : State) : Res :=
  fpInstr k (mkInsn (encFp dec fmt 20 d.toNat a.toNat 0 0) [vN a] [gN d, if dec && fmt.toNat == 1 then gN1 d else gN d])
    (fpFmt dec fmt) none (pairBad dec fmt d true) (fun f _ c =>
      if f.width = 128 then (pairWrites c d (c.fpBits f a.toNat), 0)
      else ([(c.gDst d.toNat, .w (BitVec.ofNat 64 (c.fpBits f a.toNat)))], 0)) s

def execFpMvf (k : CoreId) (dec : Bool) (fmt : BitVec 2) (d a : BitVec 5) (s : State) : Res :=
  fpInstr k (mkInsn (encFp dec fmt 21 d.toNat a.toNat 0 0) [gN a, if dec && fmt.toNat == 1 then gN1 a else gN a] [vN d])
    (fpFmt dec fmt) none (pairBad dec fmt a false) (fun f _ c =>
      ([fpDst f d.toNat (if f.width = 128 then (c.gR a.toNat).toNat + 2 ^ 64 * (c.gR (a.toNat + 1)).toNat
        else (c.gR a.toNat).toNat % 2 ^ f.width)], 0)) s

/-- TOPACK: Q(round(x × 10^n)) as two words (R146). -/
def topackFn (f : Fmt) (m : RMode) (x : FpVal) (n : Int) : Word × Word × Flags8 :=
  let bad : Word × Word × Flags8 := (allOnes, allOnes, fNV)
  match x with
  | .fin neg c e =>
    if c = 0 then qEnc 0
    else if e + n + digits10 c > 32 then bad
    else
      -- below 10^−40 the discarded part is the same for every mode
      let t := e + n
      let (c, t) := if t < -80 then (1, -40) else (c, t)
      let (q, nx) := toIntMag f m neg c t
      if q ≥ 10 ^ 31 then bad
      else
        let r := qEnc (if neg then -(q : Int) else q)
        (r.1, r.2.1, flagIf nx fNX)
  | _ => bad

def execFpTopack (k : CoreId) (fmt : BitVec 2) (d a b : BitVec 5) (f3 : BitVec 3) (s : State) : Res :=
  fpInstr k (mkInsn (encFp true fmt 22 d.toNat a.toNat b.toNat f3.toNat) [vN a, gN b] [gN d, gN1 d]) (fpFmt true fmt)
    (some (f3.toNat, true)) (d.toNat % 2 = 1 || d.toNat = 0) (fun f m c =>
      let r := topackFn f m (c.fpR f a.toNat) (c.gR b.toNat).toInt
      (wordsTo c d r.1 r.2.1, r.2.2)) s

/-- FROMPACK: q × 10^(−n) (R146). -/
def frompackFn (f : Fmt) (m : RMode) (q : Option Int) (n : Int) : FpRes :=
  match q with
  | none => ⟨defNaN, fDIGIT⟩
  | some v => roundTo f m (decide (v < 0)) v.natAbs (-n) false (-n)

def execFpFrompack (k : CoreId) (fmt : BitVec 2) (d a b : BitVec 5) (f3 : BitVec 3) (s : State) : Res :=
  fpInstr k (mkInsn (encFp true fmt 23 d.toNat a.toNat b.toNat f3.toNat) [gN a, gN1 a, gN b] [vN d]) (fpFmt true fmt)
    (some (f3.toNat, true)) (a.toNat % 2 = 1) (fun f m c => fpOut f d (frompackFn f m (pairQ c a) (c.gR b.toNat).toInt)) s

/-- The four fused multiply-adds: negated product, negated addend (R147). -/
def fmaI (op : Nat) (np nd : Bool) (k : CoreId) (fmt : BitVec 2) (d a b : BitVec 5) (f3 : BitVec 3) (s : State) : Res :=
  let f := fmaFmt fmt
  fpInstr k (mkInsn (encRR 0x23 d.toNat a.toNat b.toNat f3.toNat (fmt.toNat * 32 + op)) [vN a, vN b, vN d] [vN d]) (some f)
    (some (f3.toNat, f.dec)) false (fun f m c =>
      let x := c.fpR f a.toNat
      let z := c.fpR f d.toNat
      -- signs are changed on numbers only: a NaN operand propagates as it is (R150)
      let x := if np && !x.isNaN then x.flip else x
      let z := if nd && !z.isNaN then z.flip else z
      fpOut f d (fpFma f m x (c.fpR f b.toNat) z)) s

def execFmadd (k : CoreId) (fmt : BitVec 2) (d a b : BitVec 5) (f3 : BitVec 3) (s : State) : Res := fmaI 0 false false k fmt d a b f3 s
def execFmsub (k : CoreId) (fmt : BitVec 2) (d a b : BitVec 5) (f3 : BitVec 3) (s : State) : Res := fmaI 1 false true k fmt d a b f3 s
def execFnmsub (k : CoreId) (fmt : BitVec 2) (d a b : BitVec 5) (f3 : BitVec 3) (s : State) : Res := fmaI 2 true false k fmt d a b f3 s
def execFnmadd (k : CoreId) (fmt : BitVec 2) (d a b : BitVec 5) (f3 : BitVec 3) (s : State) : Res := fmaI 3 true true k fmt d a b f3 s

end Sys2Proof.Machine
end

