-- ==== Sys2Proof/Machine/Heritage.lean ====
section
/-!
DEFINITION. Heritage mode (R379–R393): HENTER and HEXIT, the K16 instructions, their addresses, the MPU, and their traps.
-/
namespace Sys2Proof.Machine

/-! HENTER (R379) -/

/-- The tests of henter() beyond the coin check; each takes the row of its trap (R52). -/
def henterTest (c : Coin) (p : Purse) : Option CoinCause :=
  if (c.cursor - p.w0).toNat ≥ 2 ^ 25 then some .bounds
  else if p.type ≠ 6 ∨ p.base % 2 = 1 then some .type
  else if !bitB c.rights 2 then some .rights
  else none

def execHenter (k : CoreId) (cb : BitVec 5) (s : State) : Res :=
  coreInstr k (mkInsn (encRI 0x1A 0 cb.toNat 6 0) [cN cb] []) (do
    needC cb
    let c ← getC k
    let x := c.cR cb.toNat
    if c.gecko then privileged
    else
      needAligned x 0 2
      let (_, p) ← coinCheckP k cb.toNat x 0 2 0 none 0 (henterTest x)
      push1 k c.retCoin
      modC k fun c =>
        let c := (c.csSet R.CS_HORG p.w0).csSetF R.CS_STATUS F.CS_STATUS_HER 1
        if c.ring ≠ 0 then c.csSetF R.CS_HSTAT F.CS_HSTAT_SUP 0 else c
      pure (.coin x)) s

/-! The MPU (R389) -/

/-- What an access does to the MPU: fetch, read, write. -/
inductive HOp where
  | fetch | read | write
  deriving DecidableEq, Repr

def HOp.code : HOp → Nat
  | .fetch => 0 | .read => 1 | .write => 2

/-- Regions that match word address w, lowest first. -/
def CoreState.mpuHits (c : CoreState) (w : Nat) : List Nat :=
  (List.range 16).filter fun i =>
    let r := c.csGet (R.CS_HMPU i)
    getF r F.CS_HMPU_EN == 1 && getF r F.CS_HMPU_BASE ≤ w / 256 % 2 ^ 16 && w / 256 % 2 ^ 16 ≤ getF r F.CS_HMPU_LIMIT

def CoreState.hSup (c : CoreState) : Bool := c.csF R.CS_HSTAT F.CS_HSTAT_SUP == 1

/-- The region grants the access in the current state. -/
def mpuGrants (r : Word) (sup : Bool) (op : HOp) : Bool :=
  match sup, op with
  | true, .fetch => getF r F.CS_HMPU_SX == 1
  | true, .read => getF r F.CS_HMPU_SR == 1
  | true, .write => getF r F.CS_HMPU_SW == 1
  | false, .fetch => getF r F.CS_HMPU_UX == 1
  | false, .read => getF r F.CS_HMPU_UR == 1
  | false, .write => getF r F.CS_HMPU_UW == 1

/-- The outcome of the MPU check: none where permitted, else the cause. -/
def CoreState.mpu (c : CoreState) (w : Nat) (op : HOp) : Option Nat :=
  match c.mpuHits w with
  | [] => if c.hSup then none else some 1
  | [i] => if mpuGrants (c.csGet (R.CS_HMPU i)) c.hSup op then none else some 3
  | _ => some 2

/-- CS_HFINFO (R391). DEDUCED, log entry 15. DEDUCED, log entry 33. -/
def hfinfo (cause op region : Nat) (rvalid : Bool) (insn w : Nat) : Word :=
  setF (setF (setF (setF (setF (setF 0 F.CS_HFINFO_CAUSE cause) F.CS_HFINFO_OP op) F.CS_HFINFO_REGION region)
    F.CS_HFINFO_RVALID (b2n rvalid)) F.CS_HFINFO_INSN insn) F.CS_HFINFO_WADDR w

/-- The MPU check of an access by instruction `insn`; REGION is a free value where it is not meaningful.
DEDUCED, log entry 15. DEDUCED, log entry 33. -/
def mpuCheck (k : CoreId) (insn w : Nat) (op : HOp) : CM Unit := fun s =>
  let c := s.core k
  match c.mpu w op with
  | none => .ok () s
  | some cause =>
    let (reg, valid) := match c.mpuHits w with | i :: _ => (i, true) | [] => (Config.freeNat s.free % 16, false)
    .error (.trap ⟨0x12, tiFlag F.CS_TINFO_FETCH (op == .fetch), [(R.CS_HFINFO, hfinfo cause op.code reg valid insn w)]⟩) s.bumpFree

/-! Accesses (R382, R383) -/

def xHer (kind : Nat) (misaligned : Bool) : XAcc := { xKind kind misaligned with use := .heritage }

/-- The fetch of the K16 instruction `insn` at PC. DEDUCED, log entry 33. -/
def hFetch (k : CoreId) (insn : Nat) : CM Unit := do
  let c ← getC k
  let fl := tiFlag F.CS_TINFO_FETCH true
  mpuCheck k insn c.hPc .fetch
  let o := ((c.hAddr c.hPc).toNat : Int) - c.pcc.cursor.toNat
  -- LD and EX
  let (va, _) ← coinCheckN 0x005 k 16 c.pcc o 2 0 none fl
  (splitVa va 2).forM fun p => fetchPart k (xHer 3 false) p.1 p.2

/-- The data word address of a16. -/
def CoreState.hWord (c : CoreState) (a16 : Nat) : Nat := c.csF R.CS_HSTAT F.CS_HSTAT_DB * 2 ^ 16 + a16 % 2 ^ 16

/-- A data access checked and translated: its parts and halves. -/
def hAccess (k : CoreId) (insn a16 : Nat) (write : Bool) : CM (List (Nat × Nat) × List Half) := do
  let c ← getC k
  let w := c.hWord a16
  let o := ((c.hAddr w).toNat : Int) - c.pcc.cursor.toNat
  watch k c.pcc o 2 (!write) write
  mpuCheck k insn w (if write then .write else .read)
  let kind := if write then 1 else 0
  let va ← coinCheck k 16 c.pcc o 2 kind none
  let hs ← xlateAll k (xHer kind (va % 2 != 0)) c.ring (splitVa va 2) false
  pure (splitVa va 2, hs)

/-! How a K16 instruction executes (R385, R390) -/

/-- A K16 instruction word. DESIGN CHOICE, log entry 91. -/
def encK (op x y z : Nat) : Nat := op * 2 ^ 12 + x * 2 ^ 8 + y * 2 ^ 4 + z

def hN (n : BitVec 4) (_ : CoreState) : Dst := .h n.toNat

/-- A K16 instruction of core k: interlock, due event, fetch check, body; patch entries do not match it (R430).
DESIGN CHOICE, log entry 123. -/
def k16M (k : CoreId) (i : Insn) (body : CM Next) : CM Unit := do
  interlock k i
  let c ← getC k
  let pc := c.hAddr c.hPc
  match if c.flight.isNone then c.due else none with
  | some e => do
    takeEvent k e
    modC k CoreState.stepped
  | none =>
    let r : Except Stop Next ← fun s => match (hFetch k i.word >>= fun _ => body) s with
      | .ok n s' => .ok (.ok n) s'
      | .error e s' => .ok (.error e) s'
    match r with
    | .ok (.enter rep) => do
      let nxt := c.nextAddr 2
      modS fun s => s.complete k i.load 2 .done
      enter k rep nxt pc id
    | .ok n => modS fun s => s.complete k i.load 2 n
    | .error (.trap t) => do
      enter k t pc pc id
      modC k CoreState.stepped
    | .error .barrier => do
      enterAx k pc true
      modC k CoreState.stepped
    | .error .halt => modC k fun c => { c with run := .halted, step := false }
    | .error .stall => stallM
    | .error .await => awaitM

def k16 (k : CoreId) (i : Insn) (body : CM Next) (s : State) : Res :=
  if s.canIssue k true && ((s.core k).flight.getD i.word == i.word) then .next (s.runInsn k i.word (k16M k i body)) else .next s

/-! Flags (R386) -/

def CoreState.hC (c : CoreState) : Bool := c.csF R.CS_HSTAT F.CS_HSTAT_C == 1
def CoreState.hZ (c : CoreState) : Bool := c.csF R.CS_HSTAT F.CS_HSTAT_Z == 1
def CoreState.hNeg (c : CoreState) : Bool := c.csF R.CS_HSTAT F.CS_HSTAT_N == 1
def CoreState.hV (c : CoreState) : Bool := c.csF R.CS_HSTAT F.CS_HSTAT_V == 1

/-- The flags an instruction writes; none leaves a flag as it is. -/
structure HFlags where
  c : Option Bool
  z : Option Bool
  n : Option Bool
  v : Option Bool
  h : Option Bool
  deriving DecidableEq, Repr

def CoreState.setHFlag (c : CoreState) (f : Fld) (b : Option Bool) : CoreState :=
  match b with
  | some b => c.csSetF R.CS_HSTAT f (b2n b)
  | none => c
def CoreState.setHFlags (c : CoreState) (x : HFlags) : CoreState :=
  ((((c.setHFlag F.CS_HSTAT_C x.c).setHFlag F.CS_HSTAT_Z x.z).setHFlag F.CS_HSTAT_N x.n).setHFlag F.CS_HSTAT_V x.v).setHFlag
    F.CS_HSTAT_H x.h

def isZ16 (r : Nat) : Bool := r % 2 ^ 16 == 0
def isN16 (r : Nat) : Bool := r / 2 ^ 15 % 2 == 1

/-- x + y + carry. -/
def hAddOp (x y : Nat) (cin : Bool) : Nat × HFlags :=
  let t := x + y + b2n cin
  let r := t % 2 ^ 16
  (r, ⟨some (t ≥ 2 ^ 16), some (isZ16 r), some (isN16 r), some (isN16 x == isN16 y && isN16 r != isN16 x),
    some (x % 16 + y % 16 + b2n cin ≥ 16)⟩)

/-- x − y − borrow. -/
def hSubOp (x y : Nat) (cin : Bool) : Nat × HFlags :=
  let b := y + b2n cin
  let r := (x + 2 ^ 17 - b) % 2 ^ 16
  (r, ⟨some (x < b), some (isZ16 r), some (isN16 r), some (isN16 x != isN16 y && isN16 r != isN16 x),
    some (x % 16 < y % 16 + b2n cin)⟩)

def hLogic (r : Nat) : Nat × HFlags := (r, ⟨none, some (isZ16 r), some (isN16 r), some false, none⟩)

/-- A shift with the last bit shifted out; C is kept for a count of 0. -/
def hShiftFlags (r : Nat) (out : Option Bool) : HFlags := ⟨out, some (isZ16 r), some (isN16 r), none, none⟩
def hShl (x n : Nat) : Nat × HFlags :=
  let r := x * 2 ^ n % 2 ^ 16
  (r, hShiftFlags r (if n = 0 then none else some (x * 2 ^ n / 2 ^ 16 % 2 == 1)))
def hShr (x n : Nat) : Nat × HFlags :=
  let r := x / 2 ^ n
  (r, hShiftFlags r (if n = 0 then none else some (x / 2 ^ (n - 1) % 2 == 1)))
def hSar (x n : Nat) : Nat × HFlags :=
  let r := ((toSigned 16 x / (2 ^ n : Nat)) % (2 ^ 16 : Nat)).toNat
  (r, hShiftFlags r (if n = 0 then none else some (x / 2 ^ (n - 1) % 2 == 1)))

/-- DADC and DSBC on 4-digit words (R385). DEDUCED, log entry 33. -/
def hDec (sub : Bool) (x y : Nat) (cin : Bool) : Nat × HFlags :=
  if !bcdOk x 4 || !bcdOk y 4 then (0xFFFF, ⟨some false, some false, some false, some true, none⟩)
  else
    let a := bcdVal x 4
    let b := bcdVal y 4 + b2n cin
    let t := if sub then (a + 20000 - b) % 10000 else (a + b) % 10000
    (bcdEnc t 4, ⟨some (if sub then a < b else a + b ≥ 10000), some (t == 0), some false, some false, none⟩)

/-! Register instructions -/

/-- hd := hd op hs with flags; `wr` false for compares. DEDUCED, log entry 33. -/
def k16Alu (op : Nat) (wr : Bool) (f : (cin : Bool) → Nat → Nat → Nat × HFlags) (k : CoreId) (d a : BitVec 4) (s : State) : Res :=
  k16 k (mkInsn (encK 1 d.toNat a.toNat op) [hN d, hN a] (if wr then [hN d] else [])) (onCore k fun c =>
    let r := f c.hC (c.hR d.toNat) (c.hR a.toNat)
    let c := if wr then c.setH d.toNat r.1 else c
    c.setHFlags r.2) s

def noFlags : HFlags := ⟨none, none, none, none, none⟩

def execK16Mov (k : CoreId) (d a : BitVec 4) (s : State) : Res := k16Alu 0x0 true (fun _ _ y => (y, noFlags)) k d a s
def execK16Add (k : CoreId) (d a : BitVec 4) (s : State) : Res := k16Alu 0x1 true (fun _ x y => hAddOp x y false) k d a s
def execK16Adc (k : CoreId) (d a : BitVec 4) (s : State) : Res := k16Alu 0x2 true (fun c x y => hAddOp x y c) k d a s
def execK16Sub (k : CoreId) (d a : BitVec 4) (s : State) : Res := k16Alu 0x3 true (fun _ x y => hSubOp x y false) k d a s
def execK16Sbc (k : CoreId) (d a : BitVec 4) (s : State) : Res := k16Alu 0x4 true (fun c x y => hSubOp x y c) k d a s
def execK16And (k : CoreId) (d a : BitVec 4) (s : State) : Res := k16Alu 0x5 true (fun _ x y => hLogic (x &&& y)) k d a s
def execK16Or (k : CoreId) (d a : BitVec 4) (s : State) : Res := k16Alu 0x6 true (fun _ x y => hLogic (x ||| y)) k d a s
def execK16Xor (k : CoreId) (d a : BitVec 4) (s : State) : Res := k16Alu 0x7 true (fun _ x y => hLogic (x ^^^ y)) k d a s
def execK16Cmp (k : CoreId) (d a : BitVec 4) (s : State) : Res := k16Alu 0x8 false (fun _ x y => hSubOp x y false) k d a s
def execK16Tst (k : CoreId) (d a : BitVec 4) (s : State) : Res := k16Alu 0x9 false (fun _ x y => hLogic (x &&& y)) k d a s
def execK16Shl (k : CoreId) (d a : BitVec 4) (s : State) : Res := k16Alu 0xA true (fun _ x y => hShl x (y % 16)) k d a s
def execK16Shr (k : CoreId) (d a : BitVec 4) (s : State) : Res := k16Alu 0xB true (fun _ x y => hShr x (y % 16)) k d a s
def execK16Sar (k : CoreId) (d a : BitVec 4) (s : State) : Res := k16Alu 0xC true (fun _ x y => hSar x (y % 16)) k d a s
def execK16Dadc (k : CoreId) (d a : BitVec 4) (s : State) : Res := k16Alu 0xD true (fun c x y => hDec false x y c) k d a s
def execK16Dsbc (k : CoreId) (d a : BitVec 4) (s : State) : Res := k16Alu 0xE true (fun c x y => hDec true x y c) k d a s

/-- MULU: the pair hd, d even. -/
def execK16Mulu (k : CoreId) (d a : BitVec 4) (s : State) : Res :=
  k16 k (mkInsn (encK 1 d.toNat a.toNat 0xF) [hN d, hN a] [hN d, hN (d + 1)]) (do
    if d.toNat % 2 = 1 then illegal
    else
      onCore k fun c =>
        let p := c.hR d.toNat * c.hR a.toNat
        ((c.setH d.toNat p).setH (d.toNat + 1) (p / 2 ^ 16)).setHFlags ⟨none, some (p == 0), none, none, none⟩) s

/-- hd and an immediate. -/
def k16Imm (op : Nat) (wr : Bool) (f : Nat → BitVec 8 → Nat × HFlags) (k : CoreId) (d : BitVec 4) (imm : BitVec 8) (s : State) : Res :=
  k16 k (mkInsn (encK op d.toNat (imm.toNat / 16) (imm.toNat % 16)) [hN d] (if wr then [hN d] else [])) (onCore k fun c =>
    let r := f (c.hR d.toNat) imm
    let c := if wr then c.setH d.toNat r.1 else c
    c.setHFlags r.2) s

/-- imm8 sign-extended to 16 bits. -/
def simm8 (imm : BitVec 8) : Nat := (imm.signExtend 16).toNat

def execK16Addi (k : CoreId) (d : BitVec 4) (imm : BitVec 8) (s : State) : Res := k16Imm 2 true (fun x i => hAddOp x (simm8 i) false) k d imm s
def execK16Movi (k : CoreId) (d : BitVec 4) (imm : BitVec 8) (s : State) : Res := k16Imm 3 true (fun _ i => (simm8 i, noFlags)) k d imm s
def execK16Movhi (k : CoreId) (d : BitVec 4) (imm : BitVec 8) (s : State) : Res :=
  k16Imm 4 true (fun x i => (x % 256 + i.toNat * 256, noFlags)) k d imm s
def execK16Cmpi (k : CoreId) (d : BitVec 4) (imm : BitVec 8) (s : State) : Res := k16Imm 5 false (fun x i => hSubOp x (simm8 i) false) k d imm s

/-! Loads and stores (R385, R387) -/

/-- A load of hd at a16, with the shadow of R115; `dst` is none where the stepped register's write comes last. -/
def hLoad (k : CoreId) (insn a16 d : Nat) (keep : Bool) : CM Unit := do
  let c ← getC k
  let old := c.read (.h d)
  modS fun s => s.orderBefore k false
  let (parts, hs) ← hAccess k insn a16 false
  startLoad k parts hs false .word16 (if keep then .h d else .none) false
  openShadow k (if keep then .h d else .none) old

def hStore (k : CoreId) (insn a16 v : Nat) : CM Unit := do
  let (_, hs) ← hAccess k insn a16 true
  bufferStore k hs .data (natBytes 2 v) false

def execK16Ld (k : CoreId) (d a disp : BitVec 4) (s : State) : Res :=
  let w := encK 6 d.toNat a.toNat disp.toNat
  k16 k { mkInsn w [hN a] [hN d] with load := true } (do
    let c ← getC k
    hLoad k w (c.hR a.toNat + disp.toNat) d.toNat true
    pure .seq) s

def execK16St (k : CoreId) (d a disp : BitVec 4) (s : State) : Res :=
  let w := encK 7 d.toNat a.toNat disp.toNat
  k16 k (mkInsn w [hN a, hN d] []) (do
    let c ← getC k
    hStore k w (c.hR a.toNat + disp.toNat) (c.hR d.toNat)
    pure .seq) s

/-- A stepping load: hs moves by 1 after or before the access. With hd = hs the manual does not say which write comes last.
DEDUCED, log entry 16. -/
def k16LdStep (op : Nat) (pre : Bool) (k : CoreId) (d a : BitVec 4) (s : State) : Res :=
  let w := encK 0xD d.toNat a.toNat op
  k16 k { mkInsn w [hN a] [hN d, hN a] with load := true } (do
    let c ← getC k
    let x := c.hR a.toNat
    let x' := (if pre then x + 2 ^ 16 - 1 else x + 1) % 2 ^ 16
    let s ← getS
    let keep := d != a || Config.freeBool s.free
    modS State.bumpFree
    hLoad k w (if pre then x' else x) d.toNat keep
    onCore k fun c => c.setH a.toNat x') s

/-- A stepping store. With hd = hs and a step before the access, the manual does not say which value is stored.
DEDUCED, log entry 16. -/
def k16StStep (op : Nat) (pre : Bool) (k : CoreId) (d a : BitVec 4) (s : State) : Res :=
  let w := encK 0xD d.toNat a.toNat op
  k16 k (mkInsn w [hN a, hN d] [hN a]) (do
    let c ← getC k
    let x := c.hR a.toNat
    let x' := (if pre then x + 2 ^ 16 - 1 else x + 1) % 2 ^ 16
    let s ← getS
    let v := if d = a && pre && Config.freeBool s.free then x' else c.hR d.toNat
    modS State.bumpFree
    hStore k w (if pre then x' else x) v
    onCore k fun c => c.setH a.toNat x') s

def execK16LdPostinc (k : CoreId) (d a : BitVec 4) (s : State) : Res := k16LdStep 0 false k d a s
def execK16StPostinc (k : CoreId) (d a : BitVec 4) (s : State) : Res := k16StStep 1 false k d a s
def execK16LdPredec (k : CoreId) (d a : BitVec 4) (s : State) : Res := k16LdStep 2 true k d a s
def execK16StPredec (k : CoreId) (d a : BitVec 4) (s : State) : Res := k16StStep 3 true k d a s

/-! Data bank -/

def execK16Setdb (k : CoreId) (imm : BitVec 8) (s : State) : Res :=
  k16 k (mkInsn (encK 8 0 (imm.toNat / 16) (imm.toNat % 16)) [] []) (onCore k fun c => c.csSetF R.CS_HSTAT F.CS_HSTAT_DB imm.toNat) s
def execK16Setdbr (k : CoreId) (b : BitVec 4) (s : State) : Res :=
  k16 k (mkInsn (encK 8 1 0 b.toNat) [hN b] []) (onCore k fun c => c.csSetF R.CS_HSTAT F.CS_HSTAT_DB (c.hR b.toNat % 256)) s
def execK16Getdb (k : CoreId) (b : BitVec 4) (s : State) : Res :=
  k16 k (mkInsn (encK 8 2 0 b.toNat) [] [hN b]) (onCore k fun c => c.setH b.toNat (c.csF R.CS_HSTAT F.CS_HSTAT_DB)) s

/-! Transfers (R384, R385) -/

/-- The link pair holds PC. -/
def CoreState.hLink (c : CoreState) : CoreState :=
  let r := c.hNear 1
  (c.setH 14 (r % 2 ^ 16)).setH 15 (r / 2 ^ 16 % 256)

/-- A far transfer through the pair hb, b even. -/
def k16Far (sub : Nat) (link : Bool) (k : CoreId) (b : BitVec 4) (s : State) : Res :=
  k16 k (mkInsn (encK 8 sub 0 b.toNat) [hN b, hN (b + 1)] (if link then [hN 14, hN 15] else [])) (do
    if b.toNat % 2 = 1 then illegal
    else
      let c ← getC k
      let t := c.hR (b.toNat + 1) % 256 * 2 ^ 16 + c.hR b.toNat
      if link then modC k CoreState.hLink
      pure (.jump (c.hAddr t))) s

def execK16Jmpf (k : CoreId) (b : BitVec 4) (s : State) : Res := k16Far 3 false k b s
def execK16Callf (k : CoreId) (b : BitVec 4) (s : State) : Res := k16Far 4 true k b s

/-- The conditions 0–E (R386). -/
def CoreState.hCond (c : CoreState) (n : Nat) : Bool :=
  match n with
  | 0x0 => true
  | 0x1 => c.hZ
  | 0x2 => !c.hZ
  | 0x3 => c.hC
  | 0x4 => !c.hC
  | 0x5 => c.hNeg
  | 0x6 => !c.hNeg
  | 0x7 => c.hV
  | 0x8 => !c.hV
  | 0x9 => c.hNeg != c.hV
  | 0xA => c.hNeg == c.hV
  | 0xB => c.hZ || c.hNeg != c.hV
  | 0xC => !c.hZ && c.hNeg == c.hV
  | 0xD => !c.hC && !c.hZ
  | _ => c.hC || c.hZ

def execK16Bcc (k : CoreId) (cond : BitVec 4) (disp : BitVec 8) (s : State) : Res :=
  k16 k (mkInsn (encK 9 cond.toNat (disp.toNat / 16) (disp.toNat % 16)) [] []) (do
    let c ← getC k
    if cond.toNat = 15 then illegal
    else pure (if c.hCond cond.toNat then .jump (c.hAddr (c.hNear (1 + disp.toInt))) else .seq)) s

/-- A near transfer by disp12. -/
def k16Near (op : Nat) (link : Bool) (k : CoreId) (disp : BitVec 12) (s : State) : Res :=
  k16 k (mkInsn (op * 2 ^ 12 + disp.toNat) [] (if link then [hN 14, hN 15] else [])) (do
    let c ← getC k
    if link then modC k CoreState.hLink
    pure (.jump (c.hAddr (c.hNear (1 + disp.toInt))))) s

def execK16Call (k : CoreId) (disp : BitVec 12) (s : State) : Res := k16Near 0xA true k disp s
def execK16Jmp (k : CoreId) (disp : BitVec 12) (s : State) : Res := k16Near 0xB false k disp s

/-- LOOP hs, len (R388). -/
def execK16Loop (k : CoreId) (a : BitVec 4) (len : BitVec 8) (s : State) : Res :=
  k16 k (mkInsn (encK 0xC a.toNat (len.toNat / 16) (len.toNat % 16)) [hN a] []) (do
    let c ← getC k
    if len = 0 ∨ c.hPc % 2 ^ 16 + len.toNat > 0xFFFF then illegal
    else
      let n := c.hR a.toNat
      let start := c.hAddr c.hPc + 2
      let fin := start + BitVec.ofNat 64 (2 * (len.toNat - 1))
      if n = 0 then pure (.jump (fin + 2))
      else if c.csF R.CS_LDEPTH F.CS_LDEPTH_DEPTH = 3 then illegal
      else onCore k fun c => c.pushLoop start fin (BitVec.ofNat 64 n)) s

/-! NOP, HEXIT, SVC and the system instructions (R380, R391, R393) -/

def execK16Nop (k : CoreId) (s : State) : Res := k16 k (mkInsn (encK 0 0 0 0) [] []) (pure .seq) s

/-- HEXIT: the return coin popped as RET pops it, and HER cleared (R380). -/
def execHexit (k : CoreId) (s : State) : Res :=
  k16 k (mkInsn (encK 0 1 0 0) [] []) (do
    let (x, r) ← pop1 k
    if !x.tag && bitB x.bits 127 then trapM (gateFault 6 0)
    else
      modC k fun c => (c.ccSet (R.CS_RSTK c.ring) r).csSetF R.CS_STATUS F.CS_STATUS_HER 0
      pure (.coin x)) s

/-- A trapping instruction: the next instruction is the return address; OP and REGION are free values, no access being reported.
DEDUCED, log entry 15. -/
def k16Trap (sub n cause : Nat) (k : CoreId) (s : State) : Res :=
  let w := encK 0 sub (n / 16) (n % 16)
  k16 k (mkInsn w [] []) (do
    let c ← getC k
    let s ← getS
    modS fun s => s.bumpFree.bumpFree
    pure (.enter ⟨0x12, 0, [(R.CS_HFINFO,
      hfinfo cause (Config.freeNat s.free % 4) (Config.freeNat (s.free + 1) % 16) false w c.hPc)]⟩)) s

def execK16Svc (k : CoreId) (n : BitVec 8) (s : State) : Res := k16Trap 2 n.toNat 4 k s
def execK16In (k : CoreId) (s : State) (n : BitVec 8 := 0) : Res := k16Trap 3 n.toNat 5 k s
def execK16Out (k : CoreId) (s : State) (n : BitVec 8 := 0) : Res := k16Trap 4 n.toNat 5 k s
def execK16Ei (k : CoreId) (s : State) (n : BitVec 8 := 0) : Res := k16Trap 5 n.toNat 5 k s
def execK16Di (k : CoreId) (s : State) (n : BitVec 8 := 0) : Res := k16Trap 6 n.toNat 5 k s
def execK16Reti (k : CoreId) (s : State) (n : BitVec 8 := 0) : Res := k16Trap 7 n.toNat 5 k s
def execK16Halt (k : CoreId) (s : State) (n : BitVec 8 := 0) : Res := k16Trap 8 n.toNat 5 k s

/-! Words that are no K16 instruction (R385) -/

/-- The 16-bit word is in the table of R385. Bits [7:4] of the opcode 0x8 forms with hb are taken as zero. DEDUCED, log entry 33. -/
def legalK16 (w : Nat) : Bool :=
  let sub := w / 2 ^ 8 % 16
  match w / 2 ^ 12 % 16 with
  | 0x0 => if sub ≤ 1 then w % 256 == 0 else sub ≤ 8
  | 0x8 => sub == 0 || (sub ≤ 4 && w / 2 ^ 4 % 16 == 0)
  | 0xD => w % 16 ≤ 3
  | 0xE | 0xF => false
  | _ => true

/-- Core k, in heritage mode, meets a word that the table does not list: trap 0x00. A listed word is its own command's to execute. -/
def illegalK16 (k : CoreId) (w : Nat) (s : State) : Res :=
  if legalK16 w then .next s else k16 k (mkInsn w [] []) illegal s

end Sys2Proof.Machine
end

