-- ==== Sys2Proof/Machine/Legal.lean ====
section
/-!
DEFINITION. Which 32-bit words are instructions (R60, R104–R106, R109, R111, R112, R117, R120, R123, R127, R128, R135, R139, R146, R147,
R162, R163, R297): what opcodes, functions and must-be-zero fields decide. What registers, rings or the element size decide is each
instruction's own.
-/
namespace Sys2Proof.Machine

/-! Fields of a word (R104) -/

def wD (w : Nat) : Nat := w / 2 ^ 7 % 32
def wA (w : Nat) : Nat := w / 2 ^ 12 % 32
def wB (w : Nat) : Nat := w / 2 ^ 17 % 32
/-- funct3 of RR, CR, AT, BK and VR words. -/
def wF3 (w : Nat) : Nat := w / 2 ^ 22 % 8
def wF7 (w : Nat) : Nat := w / 2 ^ 25 % 128
/-- funct3 of RI, BR, MS and MT words. -/
def wG3 (w : Nat) : Nat := w / 2 ^ 17 % 8
def wImm (w : Nat) : Nat := w / 2 ^ 20 % 4096

/-- A field names a coin register (R52). -/
def isC (n : Nat) : Bool := n < 16

/-! Memory -/

/-- Size codes of R112 by file: 0 g, 1 f and q, 2 coins. -/
def sizeLegal (file : Nat) (store : Bool) (size : Nat) : Bool :=
  match file with
  | 0 => if store then size < 4 else size < 7
  | 1 => size == 2 || size == 3 || size == 7
  | 2 => size == 7
  | _ => false

/-- LX and SX (R111). -/
def mxWord (w : Nat) (store : Bool) : Bool :=
  let file := w / 2 ^ 28 % 4
  let mode := w / 2 ^ 25 % 8
  isC (wA w) && sizeLegal file store (wF3 w) && mode != 7 && (mode < 5 || wB w == 0) && w / 2 ^ 30 % 4 < 2 &&
    (file != 2 || (isC (wD w) && (mode < 5 || wD w != wA w)))

/-- FENCE, cache and TLB maintenance, ICSYNC (R128). -/
def mtWord (w : Nat) : Bool :=
  let op := w / 2 ^ 20 % 32
  wF7 w == 0 &&
    (match wG3 w with
     | 0 => wD w == 0 && wA w == 0 && [1, 2, 3, 4, 15].contains op
     | 1 => isC (wD w) && wA w == 0 && op < 5
     | 2 => (op == 2 || (op == 1 && wA w == 0) || ((op == 0 || op == 3) && wD w == 0 && wA w == 0))
     | 3 => wD w == 0 && wA w == 0 && op == 0
     | _ => false)

/-- Block repeats (R123). -/
def bkWord (w : Nat) : Bool :=
  let f := wF3 w
  let size := w / 2 ^ 25 % 8
  w / 2 ^ 30 == 0 && f < 4 && isC (wD w) && (f % 2 == 1 || (isC (wA w) && wD w != wA w)) && size < (if f % 2 == 1 then 4 else 5) &&
    (f == 3 || w / 2 ^ 29 % 2 == 0)

/-! Integer and control -/

/-- ALU register instructions (R108). -/
def aluWord (w : Nat) : Bool :=
  let f := wF7 w
  wF3 w == 0 && (f ≤ 0x0A || (0x10 ≤ f && f ≤ 0x15) || f == 0x18 || f == 0x19 || (0x20 ≤ f && f ≤ 0x22 && wB w == 0))

/-- Transfers of opcode 0x1A (R117). -/
def xferWord (w : Nat) : Bool :=
  wImm w == 0 && wD w == 0 &&
    (match wG3 w with
     | 2 | 3 => true
     | 4 => wA w == 0
     | 7 => false
     | _ => isC (wA w))

/-- LOOP, LOOPI and LEXIT (R120, R121). -/
def lpWord (w : Nat) : Bool :=
  let len := w / 2 ^ 14 % 1024
  match w / 2 ^ 12 % 2, w / 2 ^ 13 % 2 with
  | 0, 0 => w / 2 ^ 24 == 0 && len != 0
  | 1, 0 => wD w == 0 && len != 0
  | 0, _ => wD w == 0 && w / 2 ^ 14 == 0
  | _, _ => false

/-- Opcode 0x1C (R106). -/
def sysWord (w : Nat) : Bool :=
  match wG3 w with
  | 0 => wA w == 0
  | 1 => wD w == 0
  | 2 => wA w == 0 && isC (wD w)
  | 3 => wD w == 0 && isC (wA w)
  | 4 => wD w == 0 && wA w == 0 && wImm w < 5
  | _ => false

/-! Arithmetic -/

/-- Opcode 0x14 (R135). -/
def mulWord (w : Nat) : Bool := wF7 w < 2 || (wF7 w < 9 && wF3 w == 0)

/-- Packed decimal (R139). -/
def packWord (w : Nat) : Bool :=
  let f := wF3 w
  match wF7 w with
  | 0x00 | 0x01 | 0x06 => true
  | 0x02 | 0x03 | 0x04 | 0x05 | 0x0C | 0x0D => f == 0
  | 0x07 | 0x08 | 0x0E | 0x0F => f < 2
  | 0x09 | 0x0B => f < 4
  | 0x0A => f < 6
  | 0x10 => f < 3
  | _ => false

/-- A rounding code (R144). -/
def roundLegal (f : Nat) : Bool := f < 5 || f == 7

/-- Opcodes 0x21 and 0x22 (R146). -/
def fpWord (w : Nat) (dec : Bool) : Bool :=
  let f := wF3 w
  let op := wF7 w % 32
  wF7 w / 32 < 2 &&
    (if op < 4 then roundLegal f
     else if [4, 12, 14, 15, 16].contains op then roundLegal f && wB w == 0
     else if op == 13 then roundLegal f && wB w < 2
     else if op == 11 || op == 20 || op == 21 then f == 0 && wB w == 0
     else if op < 11 then f == 0
     else if op == 19 then f < 4
     else if op == 18 then dec && f == 0
     else dec && op < 24 && roundLegal f)

/-- Fused multiply-add (R147). -/
def fmaWord (w : Nat) : Bool := wF7 w / 4 % 8 == 0 && roundLegal (wF3 w)

/-! Coins and vectors -/

/-- Opcode 0x28 (R60, R61, R80, R85). -/
def crWord (w : Nat) : Bool :=
  let d := isC (wD w)
  let a := isC (wA w)
  wF3 w == 0 &&
    (match wF7 w with
     | 0x00 | 0x01 | 0x02 | 0x03 | 0x07 | 0x10 | 0x11 => d && a
     | 0x04 => a && wB w < 6
     | 0x05 => a && isC (wB w)
     | 0x06 => a
     | 0x08 => d
     | 0x12 => a && wD w == 0
     | 0x13 | 0x14 => true
     | _ => false)

/-- What a field of a VR word names: a v or g register, a coin register, a mask register, or nothing. -/
inductive VField where
  | any | coin | mask | zero
  deriving DecidableEq, Repr

def VField.ok (f : VField) (n : Nat) : Bool :=
  match f with
  | .any => true
  | .coin => n < 16
  | .mask => n < 8
  | .zero => n == 0

/-- The d, a and b fields of a VR instruction and whether it has a mask field (R163); none for a funct7 that is not listed. -/
def vFields (f7 : Nat) : Option (VField × VField × VField × Bool) :=
  if f7 == 0x00 || f7 == 0x01 || f7 == 0x04 || f7 == 0x05 then some (.any, .coin, .zero, true)
  else if f7 == 0x02 || f7 == 0x03 || f7 == 0x06 || f7 == 0x07 then some (.any, .coin, .any, true)
  else if f7 == 0x08 || f7 == 0x09 then some (.mask, .coin, .zero, false)
  else if f7 == 0x10 then some (.any, .any, .any, true)
  else if f7 == 0x11 || f7 == 0x14 then some (.any, .any, .zero, true)
  else if f7 == 0x12 || f7 == 0x15 || f7 == 0x16 then some (.any, .any, .any, true)
  else if f7 == 0x13 then some (.any, .any, .any, false)
  else if f7 == 0x17 then some (.zero, .zero, .zero, false)
  else if (0x33 ≤ f7 && f7 ≤ 0x35) || f7 == 0x46 || f7 == 0x47 || f7 == 0x65 || f7 == 0x66 then some (.mask, .any, .any, true)
  else if f7 == 0x4C || f7 == 0x4D || f7 == 0x67 then some (.any, .any, .zero, true)
  else if (0x20 ≤ f7 && f7 ≤ 0x37) || (0x40 ≤ f7 && f7 ≤ 0x49) || (0x60 ≤ f7 && f7 ≤ 0x64) then some (.any, .any, .any, true)
  else if 0x70 ≤ f7 && f7 ≤ 0x73 then some (.mask, .mask, .mask, false)
  else if f7 == 0x74 || f7 == 0x75 then some (.any, .mask, .zero, false)
  else if f7 == 0x76 then some (.any, .mask, .any, false)
  else if f7 == 0x77 then some (.mask, .any, .any, false)
  else none

/-- Opcode 0x30 (R162, R163, R165, R166). -/
def vrWord (w : Nat) : Bool :=
  match vFields (wF7 w) with
  | none => false
  | some (d, a, b, m) => d.ok (wD w) && a.ok (wA w) && b.ok (wB w) && (m || wF3 w == 0) && (wF7 w != 0x10 || wB w < 5) &&
      (wF7 w != 0x49 || wB w < 2)

/-! Words -/

/-- The word is an instruction (R105). -/
def legalWord (x : BitVec 32) : Bool :=
  let w := x.toNat
  match w % 128 with
  | 0x01 => isC (wA w) && sizeLegal 0 false (wG3 w)
  | 0x02 => isC (wA w) && sizeLegal 0 true (wG3 w)
  | 0x03 | 0x04 => isC (wA w) && sizeLegal 1 false (wG3 w)
  | 0x05 => mxWord w false
  | 0x06 => mxWord w true
  | 0x07 | 0x08 => isC (wD w) && isC (wA w)
  | 0x09 => isC (wA w) && w / 2 ^ 28 == 0
  | 0x0A => mtWord w
  | 0x0B => bkWord w
  | 0x10 => aluWord w
  | 0x11 => wG3 w != 6 || w / 2 ^ 28 == 0
  | 0x12 | 0x13 | 0x19 => true
  | 0x14 => mulWord w
  | 0x18 => wG3 w < 6
  | 0x1A => xferWord w
  | 0x1B => lpWord w
  | 0x1C => sysWord w
  | 0x1D => wG3 w < 4 && wD w == 0 && wA w == 0 && wImm w == 0
  | 0x20 => packWord w
  | 0x21 => fpWord w false
  | 0x22 => fpWord w true
  | 0x23 => fmaWord w
  | 0x28 => crWord w
  | 0x29 => isC (wD w) && isC (wA w) && wG3 w < 2
  | 0x2A => wF3 w == 0 && wF7 w == 0 && wB w == 0 && isC (wA w)
  | 0x30 => vrWord w
  | _ => false

/-- Core k meets word `x`, which no instruction has: trap 0x00 (R104, R105). A word that is one is its own command's to execute. -/
def illegalWord (k : CoreId) (x : BitVec 32) (s : State) : Res :=
  if legalWord x then .next s else coreInstr k { mkInsn x.toNat [] [] with pfx := true } illegal s

end Sys2Proof.Machine
end

