-- ==== Sys2Proof/Machine/Memory.lean ====
section
/-!
DEFINITION. Loads, stores and atomics of cores (R61, R111–R116), and the arrival of load data, store-buffer drains and
control-space acceptances.
-/
namespace Sys2Proof.Machine

/-! LDC and STC (R60, R61) -/

def execLdc (k : CoreId) (c cb : BitVec 5) (disp : BitVec 15) (s : State) : Res :=
  coreInstr k { mkInsn (encCM 0x07 c.toNat cb.toNat disp.toNat) [cN cb] [cN c] with load := true } (do
    needC c
    needC cb
    loadForm k .c 7 c.toNat cb.toNat (disp.toInt * 16) 0 false) s

def execStc (k : CoreId) (c cb : BitVec 5) (disp : BitVec 15) (s : State) : Res :=
  coreInstr k (mkInsn (encCM 0x08 c.toNat cb.toNat disp.toNat) [cN cb, cN c] []) (do
    needC c
    needC cb
    storeForm k .c 7 c.toNat cb.toNat (disp.toInt * 16) 0 false) s

/-! Displacement forms -/

/-- The register operand of a memory instruction, for interlocks. -/
def memReg (file : MFile) (r : BitVec 5) : CoreState → Dst :=
  match file with
  | .g => gN r
  | .f => vN r
  | .c => cN r

/-- A displacement load: LD and LDF (R111, R112). -/
def loadMS (op : Nat) (file : MFile) (k : CoreId) (r cb : BitVec 5) (size : BitVec 3) (disp : BitVec 12) (s : State) : Res :=
  coreInstr k { mkInsn (encMS op r.toNat cb.toNat size.toNat disp.toNat) [cN cb] [memReg file r] with pfx := true, load := true } (do
    needC cb
    if !sizeOk file false size.toNat then illegal
    let c ← getC k
    loadForm k file size.toNat r.toNat cb.toNat (immOf c disp) 0 false) s

/-- A displacement store: ST and STF (R111, R112). -/
def storeMS (op : Nat) (file : MFile) (k : CoreId) (r cb : BitVec 5) (size : BitVec 3) (disp : BitVec 12) (s : State) : Res :=
  coreInstr k { mkInsn (encMS op r.toNat cb.toNat size.toNat disp.toNat) [cN cb, memReg file r] [] with pfx := true } (do
    needC cb
    if !sizeOk file true size.toNat then illegal
    let c ← getC k
    storeForm k file size.toNat r.toNat cb.toNat (immOf c disp) 0 false) s

def execLd (k : CoreId) (r cb : BitVec 5) (size : BitVec 3) (disp : BitVec 12) (s : State) : Res := loadMS 0x01 .g k r cb size disp s
def execSt (k : CoreId) (r cb : BitVec 5) (size : BitVec 3) (disp : BitVec 12) (s : State) : Res := storeMS 0x02 .g k r cb size disp s
def execLdf (k : CoreId) (r cb : BitVec 5) (size : BitVec 3) (disp : BitVec 12) (s : State) : Res := loadMS 0x03 .f k r cb size disp s
def execStf (k : CoreId) (r cb : BitVec 5) (size : BitVec 3) (disp : BitVec 12) (s : State) : Res := storeMS 0x04 .f k r cb size disp s

/-! Indexed and update forms (R111) -/

/-- The legality of an MX form: the file, or none. -/
def mxLegal (store : Bool) (r cb gx : BitVec 5) (size mode : BitVec 3) (file order : BitVec 2) : Option MFile :=
  match MFile.ofCode file.toNat with
  | none => none
  | some f =>
    if mode.toNat = 7 ∨ (mode.toNat ≥ 5 ∧ gx ≠ 0) ∨ order.toNat ≥ 2 ∨ sizeOk f store size.toNat = false ∨
        (f = .c ∧ mode.toNat ≥ 5 ∧ r = cb) then none
    else some f

/-- Offset and cursor change of an MX form for an access of n bytes (R111). -/
def mxOffset (c : CoreState) (gx : BitVec 5) (mode n : Nat) : Int × Int :=
  if mode ≤ 4 then ((c.gR gx.toNat).toInt * (2 ^ mode : Nat), 0)
  else if mode = 5 then (0, (n : Int))
  else (-(n : Int), -(n : Int))

/-- The registers an MX form names: gx in modes 0–4, cb written by the update forms. -/
def mxReads (cb gx : BitVec 5) : List (CoreState → Dst) := [cN cb, gN gx]
def mxWrites (cb : BitVec 5) (mode : BitVec 3) : List (CoreState → Dst) := if mode.toNat ≥ 5 then [cN cb] else []

def fileOr (file : BitVec 2) : MFile := (MFile.ofCode file.toNat).getD .g

def execLx (k : CoreId) (r cb gx : BitVec 5) (size mode : BitVec 3) (file order : BitVec 2) (s : State) : Res :=
  coreInstr k { mkInsn (encMX 0x05 r.toNat cb.toNat gx.toNat size.toNat mode.toNat file.toNat order.toNat) (mxReads cb gx)
      (memReg (fileOr file) r :: mxWrites cb mode) with load := true } (do
    needC cb
    match mxLegal false r cb gx size mode file order with
    | none => illegal
    | some f => do
      if f = .c then needC r
      let c ← getC k
      let (o, u) := mxOffset c gx mode.toNat (sizeBytes size.toNat)
      loadForm k f size.toNat r.toNat cb.toNat o u (order.toNat = 1)) s

def execSx (k : CoreId) (r cb gx : BitVec 5) (size mode : BitVec 3) (file order : BitVec 2) (s : State) : Res :=
  coreInstr k (mkInsn (encMX 0x06 r.toNat cb.toNat gx.toNat size.toNat mode.toNat file.toNat order.toNat)
      (memReg (fileOr file) r :: mxReads cb gx) (mxWrites cb mode)) (do
    needC cb
    match mxLegal true r cb gx size mode file order with
    | none => illegal
    | some f => do
      if f = .c then needC r
      let c ← getC k
      let (o, u) := mxOffset c gx mode.toNat (sizeBytes size.toNat)
      storeForm k f size.toNat r.toNat cb.toNat o u (order.toNat = 1)) s

/-! Atomics (R114) -/


/-- The atomic on a line this core reaches directly: read, then the write of the result at once (R257). -/
def atomLocal (k : CoreId) (va : Nat) (h : Half) (f : AtomFn) (gs gd : Nat) : CM Nat := do
  let (bs, _) ← readNow k va h false 0
  let old := bytesNat bs
  let n := 8 * h.len
  match f n old (gs % 2 ^ n) (gd % 2 ^ n) with
  | none => pure ()
  | some v => writeNow k h .data (natBytes h.len (v % 2 ^ n))
  pure old

/-- An atomic on a socket window: the request ATM carries operation and operands, the reply the old value (R371). -/
def atomRemote (k : CoreId) (va p : Nat) (h : Half) (op gs gd : Nat) : CM Nat := do
  match ← askPeer k p 0x07 h.pa (op + (if h.len = 8 then 8 else 0)) (natBytes 8 gs ++ natBytes 8 gd) 0 with
  | .data bs _ po =>
    if po then trapM (busTrap (BitVec.ofNat 64 va) (tiFlag F.CS_TINFO_POISON true)) else pure (bytesNat (padTo h.len bs))
  | .done _ => trapM (busTrap (BitVec.ofNat 64 va) (tiFlag F.CS_TINFO_NOTARGET true))

/-- Atomic `op` (R114): kind 2, the old value to gd. -/
def atomic (op : Nat) (f : AtomFn) (k : CoreId) (d cb s5 : BitVec 5) (w : Bool) (order : BitVec 2) (s : State) : Res :=
  coreInstr k (mkInsn (encAT d.toNat cb.toNat s5.toNat op (b2n w) order.toNat) [cN cb, gN s5, gN d] [gN d]) (do
    needC cb
    let c ← getC k
    let base := c.cR cb.toNat
    let n := if w then 8 else 4
    watch k base 0 n true true
    needAligned base 0 n
    let va ← coinCheck k cb.toNat base 0 n 2 none
    modS fun s => if order.toNat ≥ 2 then (s.loadFences k).performAll k else s.orderBefore k (order.toNat % 2 = 1)
    let (pa, mt) ← xlate k va (xKind 2 false) c.ring 0
    let h : Half := ⟨pa, n, mt⟩
    let gs := (c.gR s5.toNat).toNat
    let gd := (c.gR d.toNat).toNat
    let s ← getS
    let old ← match s.target pa with
      | .window so _ =>
        match s.portVia so pa with
        | none => trapM (busTrap (BitVec.ofNat 64 va) (tiFlag F.CS_TINFO_NOTARGET true))
        | some p =>
          if mt = .uncached then do
            modS fun s => (s.drainWhile k (·.before s h)).sampleOverlapping k pa n
            atomRemote k va p h op gs gd
          else if (match s.rlineAt pa with | some l => l.excl | none => false) then atomLocal k va h f gs gd
          else
            match s.takeReply k.val 0x02 (pa / 64 * 64) with
            | (some _, s') => do
              set s'
              trapM (busTrap (BitVec.ofNat 64 va) (tiFlag F.CS_TINFO_NOTARGET true))
            | (none, s') => do
              set (s'.fetchRemote pa k.val true)
              awaitM
      | _ => atomLocal k va h f gs gd
    modC k fun c => c.setG d.toNat (sext64 (8 * n) old)
    if order.toNat % 2 = 1 then modS fun s => s.returnAll k
    pure .seq) s

def execSwp (k : CoreId) (d cb s5 : BitVec 5) (w : Bool) (order : BitVec 2) (s : State) : Res := atomic 0 atSwp k d cb s5 w order s
def execCas (k : CoreId) (d cb s5 : BitVec 5) (w : Bool) (order : BitVec 2) (s : State) : Res := atomic 1 atCas k d cb s5 w order s
def execFadd (k : CoreId) (d cb s5 : BitVec 5) (w : Bool) (order : BitVec 2) (s : State) : Res := atomic 2 atAdd k d cb s5 w order s
def execFand (k : CoreId) (d cb s5 : BitVec 5) (w : Bool) (order : BitVec 2) (s : State) : Res := atomic 3 atAnd k d cb s5 w order s
def execFOr (k : CoreId) (d cb s5 : BitVec 5) (w : Bool) (order : BitVec 2) (s : State) : Res := atomic 4 atOr k d cb s5 w order s
def execFxor (k : CoreId) (d cb s5 : BitVec 5) (w : Bool) (order : BitVec 2) (s : State) : Res := atomic 5 atXor k d cb s5 w order s
def execFmax (k : CoreId) (d cb s5 : BitVec 5) (w : Bool) (order : BitVec 2) (s : State) : Res := atomic 6 atMax k d cb s5 w order s
def execFmin (k : CoreId) (d cb s5 : BitVec 5) (w : Bool) (order : BitVec 2) (s : State) : Res := atomic 7 atMin k d cb s5 w order s

/-! Events of a core's memory pipeline. An event that finds nothing to act on changes nothing. -/

/-- The data of core k's outstanding load i arrives (R197). -/
def execLoadDataReturn (k : CoreId) (i : Nat) (s : State) : Res := .next (s.orWait (s.dataReturn k i))

/-- Store-buffer entry i drains, if no older entry holds it back (R254, R259). -/
def execStoreBufferDrain (k : CoreId) (i : Nat) (s : State) : Res := .next (s.drain k i).unblock

/-- The unit accepts the control-space store at entry i, which leaves the store buffer (R27). DEDUCED, log entry 87. -/
def execControlStoreAccept (k : CoreId) (i : Nat) (s : State) : Res :=
  match (s.core k).sb[i]? with
  | some e => if e.pa ≥ 0xFF0000000000 then .next (s.drain k i).unblock else .next s
  | none => .next s

/-- The long operation at index i of core k completes (R152). -/
def execLongOpComplete (k : CoreId) (i : Nat) (s : State) : Res :=
  match (s.core k).longs[i]? with
  | some l => .next (s.modCore k fun c => ({ c with longs := c.longs.eraseIdx i } : CoreState).longDone l)
  | none => .next s

/-- A refused write is reported back to its core: trap 0x14 pending, or WNOTE fired where CS_DBCTL says so (R234, R473). -/
def execWriteNotice (k : CoreId) (s : State) : Res :=
  match (s.core k).refused with
  | [] => .next s
  | n :: r =>
    let s := s.modCore k fun c => { c with refused := r }
    if (s.core k).csF R.CS_DBCTL F.CS_DBCTL_WNDB = 1 then .next (s.wnoteRecord k.val n)
    else .next (s.modCore k fun c => { c with notices := c.notices ++ [n] })

/-- mark(ea, write) at the home slice of a local entry (R244); an address that names no local memory changes nothing. -/
def execPteMark (ea : Nat) (write : Bool) (s : State) : Res :=
  match s.localOf (ea / 8 * 8) with
  | some a => if s.writeHeld a 8 then .next s else .next (s.markAt a write none).2.s
  | none => .next s

/-- The event due at core k's boundary is taken (R195, R201). A heritage core takes its events the same way (R384). With `word`, the core
meets a word there that is no instruction, in heritage mode the low 16 bits of `word`: its illegal-opcode trap is taken instead
(R105, R385). While an access that has passed its check awaits a peer, its instruction completes first (R133, R172). -/
def execTrapEntry (k : CoreId) (s : State) (word : Option (BitVec 32) := none) : Res :=
  match word with
  | some w => if (s.core k).her then illegalK16 k (w.toNat % 2 ^ 16) s else illegalWord k w s
  | none =>
  if s.canIssue k (s.core k).her && (s.core k).pfx.isNone && (s.core k).flight.isNone then
    match (s.core k).due with
    | some e => .next (s.runOr (takeEvent k e))
    | none => .next s
  else .next s

end Sys2Proof.Machine
end

