-- ==== Sys2Proof/Machine/Mint.lean ====
section
/-!
DEFINITION. MINT and its reserve (R79–R83), the recall instructions (R85–R87), fence markers and acknowledgements at their agents
(R88–R91), the free-list and sweep commands.
-/
namespace Sys2Proof.Machine

/-! MINT -/

/-- The fields of the control word of R80. -/
def mtRights (ctl : Word) : BitVec 12 := ctl.extractLsb' 0 12
def mtType (ctl : Word) : Nat := getF ctl ⟨14, 12⟩
def mtFloor (ctl : Word) : Nat := getF ctl ⟨17, 16⟩
def mtLocalok (ctl : Word) : Nat := getF ctl ⟨18, 18⟩
def mtShared (ctl : Word) : Nat := getF ctl ⟨19, 19⟩
def mtRstk (ctl : Word) : Nat := getF ctl ⟨20, 20⟩
def mtTring (ctl : Word) : Nat := getF ctl ⟨22, 21⟩

/-- type_ok of R82. -/
def typeOk (p : Purse) (ctl : Word) (ring : Nat) : Bool :=
  if ring = 0 then
    mtType ctl ≤ 6 && (mtTring ctl == 0 || mtType ctl == 5) && (mtRstk ctl == 0 || mtType ctl == 4) &&
      (mtType ctl != 5 || p.type == 1) && (mtShared ctl == 0 || p.owner == 0)
  else
    mtType ctl == p.type && mtType ctl != 5 && mtRstk ctl == b2n p.rstk && mtTring ctl == 0 && (mtShared ctl == 0 || p.owner == 0)

/-- The faults of R81 beyond the coin check, in order. -/
def mintFault (p : Purse) (c : Coin) (n : Nat) (ctl : Word) (ring : Nat) : Option CoinCause :=
  let lo := c.cursor.toNat
  if n = 0 ∨ lo < p.base ∨ lo + n > p.base + p.length then some .bounds
  else if getF ctl ⟨63, 23⟩ ≠ 0 ∨ bitB ctl 15 ∨ bitB ctl 11 then some .reserved
  else if mtRights ctl &&& ~~~c.rights ≠ 0 then some .rights
  else if typeOk p ctl ring = false then some .type
  else if mtFloor ctl > p.floor then some .ring
  else none

/-- The entry MINT writes over the FREE entry `e` (R81). -/
def mintEntry (e : Purse) (parent asid lo n : Nat) (ctl : Word) : Purse :=
  let w2 : Word := BitVec.ofNat 64 (e.issue + 1 * 2 ^ 20 + mtFloor ctl * 2 ^ 22 + mtType ctl * 2 ^ 24 + mtTring ctl * 2 ^ 27 +
    (if mtShared ctl = 1 then 0 else asid) * 2 ^ 32 + mtLocalok ctl * 2 ^ 48 + mtRstk ctl * 2 ^ 50)
  ⟨BitVec.ofNat 64 lo, BitVec.ofNat 64 n, w2, BitVec.ofNat 64 (parent + (if mtType ctl = 5 then parent else 0) * 2 ^ 32)⟩

def State.freeHead (s : State) (k : CoreId) : Nat := (s.core k).csF R.CS_FREEHEAD F.CS_FREEHEAD_ADDR * 8
def State.freeEn (s : State) (k : CoreId) : Bool := (s.core k).csF R.CS_FREEHEAD F.CS_FREEHEAD_EN == 1

/-- The entry for a MINT of core k: from its reserve, checked again at its home slice, else popped (R79, R81). -/
def State.mintTake (s : State) (k : CoreId) : PopRes × State :=
  if !s.freeEn k then (.empty, s)
  else match (s.core k).reserve with
    | r :: rest =>
      let s := (s.modCore k fun c => { c with reserve := rest }).takeEntry r.idx
      if (s.entryFree r.idx).isSome then (.entry r.idx, s) else (.badlist, s)
    | [] => s.pop (s.freeHead k) none

/-- MINT (R80, R81, R83). -/
def execMint (k : CoreId) (d a b : BitVec 5) (s : State) : Res :=
  coreInstr k (mkInsn (encRR 0x28 d.toNat a.toNat b.toNat 0 0x10) [cN a, gN b, fun c => c.gDst (b.toNat + 1)] [cN d, gN b]) (do
    needC d
    needC a
    if b.toNat % 2 = 1 ∨ b = 0 then illegal
    else
      let c ← getC k
      let x := c.cR a.toNat
      let n := (c.gR b.toNat).toNat
      let ctl := c.gR (b.toNat + 1)
      let _ ← coinCheckP k a.toNat x 0 0 13 none 0 (fun p => mintFault p x n ctl c.ring)
      modS fun s => s.finishCorePurseWrs k.val
      let r ← liftS fun s => s.mintTake k
      modC k fun c => { c with refill := c.csF R.CS_FREEHEAD F.CS_FREEHEAD_EN == 1 }
      match r with
      | .entry i => do
        let s ← getS
        let e := match s.purseRead i with | .ok e => e | _ => ⟨0, 0, 0, 0⟩
        let new := mintEntry e x.purse c.asid x.cursor.toNat n ctl
        modS fun s =>
          let s := s.writeMinted i new k
          let s := s.modCore k fun c => { c with pcache := capTo 512 s.free ((i, new) :: c.pcache.filter fun q => q.1 != i) }
          s.setDir i (s.dirOf i ||| BitVec.ofNat 16 (2 ^ (k.val / 8)))
        onCore k fun c => (c.setC d.toNat (Coin.make x.cursor i e.issue (mtRights ctl) true)).setG b.toNat 0
      | .empty => onCore k fun c => (c.setC d.toNat Coin.zero).setG b.toNat 1
      | .badlist => onCore k fun c => (c.setC d.toNat Coin.zero).setG b.toNat 2) s

/-- A background refill step of core k's reserve (R79): it stops at two indices or at the first failing pop. -/
def execFreeListPop (k : CoreId) (s : State) : Res :=
  let c := s.core k
  if c.refill && s.freeEn k && c.reserve.length < 2 && s.coreServes k.val then
    match s.pop (s.freeHead k) none with
    | (.entry i, s') => .next (s.orWait (s'.modCore k fun c =>
        let r := c.reserve ++ [Reserve.mk i (s.freeHead k)]
        { c with reserve := r, refill := r.length < 2 }))
    | (_, s') => .next (s.orWait (s'.modCore k fun c => { c with refill := false }))
  else .next s

/-- A device push of entry i onto the list at head word h (R77). -/
def execFreeListPush (h i : Nat) (s : State) : Res := .next (s.orWait ((s.push h i none).getD s))

/-! Purse writes (R66, R67) -/

/-- A write reaches a purse-table line at local address a; anything else is no purse write. -/
def execPurseWrite (a : Nat) (bytes : List Byte) (s : State) : Res :=
  if (s.entriesIn a bytes.length).isEmpty || (s.localOf a).isNone || a % 64 + bytes.length > 64 || s.writeHeld a bytes.length then .next s
  else .next (s.localWrite a bytes .clear true none).s

/-- The home slice that sends a purse write's invalidations. -/
def State.wrSlice (s : State) (w : PurseWr) : Nat := s.home (s.entryAddr (w.idxs.headD 0))
/-- No message of the same class and stops was sent before the one of purse write w that `sent` selects (R260).
DESIGN CHOICE, log entry 102. -/
def State.wrFirst (s : State) (id : Nat) (sent : PurseWr → Bool) : Bool :=
  match s.purseWrs.find? (·.id == id) with
  | none => true
  | some w => !s.purseWrs.any fun x => x.id < w.id && s.wrSlice x == s.wrSlice w && sent x

def execPurseInvalidate (id : Nat) (n : Idx16) (s : State) : Res :=
  s.alive fun s => if s.wrFirst id (fun x => bitB x.inval n.val) then s.purseInval id n.val else s
def execPurseInvalAck (id : Nat) (n : Idx16) (s : State) : Res :=
  s.alive fun s => if s.wrFirst id (fun x => bitB x.acks n.val && !bitB x.inval n.val) then s.purseAck id n.val else s

/-! Recall instructions (R85–R87) -/

/-- The core hands its recall to the home slice and waits (R87). -/
def sendRecall (k : CoreId) (w : RecallWait) : CM Next := do
  modC k fun c => { c with recallW := some w }
  pure .pend

/-- RECALL and RECALLF: the coin check needs RV; a purse with SEALLD is refused with RIGHTS (R86). -/
def recallCoin (f7 : Nat) (freeing : Bool) (k : CoreId) (d a b : BitVec 5) (s : State) : Res :=
  coreInstr k (mkInsn (encRR 0x28 d.toNat a.toNat b.toNat 0 f7) [cN a] (if freeing then [gN b] else [cN d, gN b])) (do
    needC a
    if freeing && d != 0 then illegal
    if !freeing then needC d
    if freeing then ring0 k
    let c ← getC k
    let x := c.cR a.toNat
    let _ ← coinCheckP k a.toNat x 0 0 14 none 0 (fun p => if p.sealld then some .rights else none)
    sendRecall k ⟨x.purse, x.issue, freeing, if freeing then none else some (d.toNat, x), b.toNat, some x.cursor, none, 0⟩) s

def execRecall (k : CoreId) (d a b : BitVec 5) (s : State) : Res := recallCoin 0x11 false k d a b s
def execRecallf (k : CoreId) (d a b : BitVec 5) (s : State) : Res := recallCoin 0x12 true k d a b s

/-- RECALLI and RECALLIF: by index, at the entry's issue as read now; BADINDEX completes at the core (R86). An entry that cannot be read
now is compared with issue 0 at its home slice: DESIGN CHOICE, log entry 133. -/
def recallIndex (f7 : Nat) (freeing : Bool) (k : CoreId) (d a : BitVec 5) (s : State) : Res :=
  coreInstr k (mkInsn (encRR 0x28 d.toNat a.toNat 0 0 f7) [gN a] [gN d]) (do
    ring0 k
    let c ← getC k
    let i := (c.gR a.toNat).toNat % 2 ^ 32
    let s ← getS
    if i ≥ s.ptbCount then onCore k fun c => c.setG d.toNat 5
    else
      let r ← liftS fun s => s.purseCached k i
      sendRecall k ⟨i, match r with | .ok p => p.issue | _ => 0, freeing, none, d.toNat, none, none, 0⟩) s

def execRecalli (k : CoreId) (d a : BitVec 5) (s : State) : Res := recallIndex 0x13 false k d a s
def execRecallif (k : CoreId) (d a : BitVec 5) (s : State) : Res := recallIndex 0x14 true k d a s

/-- The recall instruction of core k completes with status `code` (R86). DEDUCED, log entry 44. -/
def State.recallStatus (s : State) (k : CoreId) (w : RecallWait) (code : Nat) : State :=
  let s := s.modCore k fun c =>
    let c := match w.cd with
      | some (d, x) => c.setC d (if code = 0 then x.withIssue (w.issue + 1) else { x with tag := false })
      | none => c
    { c.setG w.gd (BitVec.ofNat 64 code) with recallW := none }
  s.complete k false 4 .seq

/-- The recall instruction of core k ends: its status, or trap 0x02 for an entry its home slice could not read.
DEDUCED, log entry 15. DEDUCED, log entry 44. -/
def State.recallEnd (s : State) (k : CoreId) : State :=
  match (s.core k).recallW with
  | none => s
  | some w =>
    match w.arrived with
    | none => s
    | some (.status code) => s.recallStatus k w code
    | some (.busError poison) =>
      let va := w.va.getD (Config.freeWord s.free)
      let s := (s.bumpFree).modCore k fun c => { c with recallW := none }
      let pc := (s.core k).pcc.cursor
      runCM s (do
        enter k (busTrap va (tiFlag F.CS_TINFO_PURSE true ||| tiFlag F.CS_TINFO_POISON poison ||| tiFlag F.CS_TINFO_NOTARGET (!poison))) pc pc id
        modC k CoreState.stepped)

/-- The change of R86 at the home slice: what the instruction will report, and the state. DEDUCED, log entry 44. -/
def State.recallChange (s : State) (k : CoreId) (w : RecallWait) : RecallEnd × State :=
  let core := some k.val
  match s.purseRead w.idx with
  | .poison => (.busError true, s)
  | .notarget => (.busError false, s)
  | .ok p =>
    if p.sealld then (.status 4, s)
    else if w.issue ≠ p.issue ∨ p.state ≠ 1 then (.status 3, s)
    else if p.issue = 0xFFFFF then (.status 2, s.writeEntry w.idx (p.withState 2) core)
    else
      let q := p.withIssue (p.issue + 1)
      if !w.freeing then (.status 0, s.writeEntry w.idx q core)
      else
        let kept := s.writeEntry w.idx q core
        if s.freeEn k && s.headUsable (s.freeHead k) then
          match (s.writeEntry w.idx (q.withState 0) core).push (s.freeHead k) w.idx core with
          | some s' => (.status 1, s')
          | none => (.status 6, kept)
        else (.status 6, kept)

/-- RECALL_ARRIVE: the home slice takes core k's recall, changes the entry and starts the fence; SEALED runs none. -/
def execRecallArrive (k : CoreId) (s : State) : Res :=
  match (s.core k).recallW with
  | none => .next s
  | some w =>
    if w.arrived.isSome then .next s
    else
      let s0 := s
      let s := (s.finishCorePurseWrs k.val).takeEntry w.idx
      match s.recallChange k w with
      | (.status 4, s) => .next (s0.orWait ((s.modCore k fun c => { c with recallW := some { w with arrived := some (.status 4) } }).recallEnd k))
      | (e, s1) =>
        let after := (s1.purseWrs.filter fun x => x.idxs.contains w.idx).map (·.id)
        let id := s1.nextId
        let s1 := s1.newFence (.recallOf k.val) after [w.idx]
        .next (s0.orWait (s1.modCore k fun c => { c with recallW := some { w with arrived := some e, fence := id } }))

/-! Fence agents (R88–R91, R94) -/

/-- A fence ends: its recall instruction completes, or its sweep goes on to SCAN. -/
def State.fenceDone (s : State) (f : Fence) : State :=
  let s := { s with fences := s.fences.filter (·.id != f.id) }
  match f.kind with
  | .recallOf k => s.recallEnd (coreOf k)
  | .sweep j => s.scanPhase j

/-- Every earlier access of every core of cluster n performed; an instruction that awaits a peer is waited for (R89). -/
def State.clusterPerform (s : State) (n : Nat) : State :=
  let s := s.blockIf ((List.range 8).any fun j => (s.core (coreOf (8 * n + j))).flight.isSome)
  (List.range 8).foldl (fun s j => s.performAll (coreOf (8 * n + j))) s

/-- Two fences' markers leave one stop: the home slice of a recalled purse, or the sweep coordinator. -/
def State.fenceStop (s : State) (f : Fence) : Option Nat :=
  match f.kind with
  | .recallOf _ => some (s.home (s.entryAddr (f.purses.headD 0)))
  | .sweep _ => none
/-- No message of the same class and stops was sent before fence f's that `sent` selects (R260). -/
def State.fenceFirst (s : State) (f : Fence) (sent : Fence → Bool) : Bool :=
  !s.fences.any fun g => g.id < f.id && s.fenceStop g == s.fenceStop f && sent g

/-- FENCE_MARKER: the marker of fence `id` reaches agent `a`. -/
def execFenceMarker (id : Nat) (agent : FenceAgent) (s : State) : Res :=
  match s.fenceOf id with
  | none => .next s
  | some f =>
    if !s.markersOut f || !f.markers.contains agent || !s.fenceFirst f (fun g => s.markersOut g && g.markers.contains agent) then .next s
    else match agent with
      | .cluster n =>
        let s1 := s.clusterPerform n.val
        let s1 := match f.kind with | .sweep _ => s1.sweepCluster n.val | _ => s1
        .next (s.orWait (s1.marked id agent []))
      | .teller n =>
        let (ids, s1) := s.tellerMarker n.val
        .next (s1.marked id agent ids)
      | .guards => .next ((s.guardsMarker f.purses).marked id agent s.admitted)
      | .peer p =>
        if s.portLinked p.val then
          let v : Word := match f.kind, f.purses with | .recallOf _, i :: _ => BitVec.ofNat 64 i | _, _ => 0xFFFFFFFFFFFFFFFF
          .next ((s.send ⟨p.val, 0x31, [], false, 0, id % 65536, 0x130 + p.val, 0, v⟩).marked id agent [0])
        else .next (s.marked id agent [])

/-- FENCE_ACK: agent `a`'s acknowledgement of fence `id` arrives; after the last the fence completes (R88). -/
def execFenceAck (id : Nat) (agent : FenceAgent) (s : State) : Res :=
  match s.fenceOf id with
  | none => .next s
  | some f =>
    if f.markers.contains agent || !f.acks.contains agent || s.agentWaits f agent ||
      !s.fenceFirst f (fun g => !g.markers.contains agent && g.acks.contains agent && !s.agentWaits g agent) then .next s
    else
      let s := s.modFence id fun f => { f with acks := f.acks.filter (· != agent) }
      match s.fenceOf id with
      | none => .next s
      | some f => .next (if f.acks = [] then s.fenceDone f else s)

/-! Sweep commands (R94) -/

def execSweepAdd (v : Word) (s : State) : Res := s.alive fun s => s.swAdd v
def execSweepGo (v : Word) (s : State) : Res := s.alive fun s => s.swctlWrite (setF v F.VLT_SWCTL_GO 1)
def execSweepClear (s : State) : Res := s.alive fun s => s.swClear

/-- The lines of engine u's memory that a peer holds modified, as far as the home slice knows: the scan reads the owner's copy (R94). -/
def State.scanOwned (s : State) (u : Nat) : List Nat :=
  ((s.rdir.filter (·.2.excl)).map fun e => e.1 * 64).filter fun l => s.engineOf l == some u

/-- A tag engine ends its scan; lines that peers own are called back first. -/
def execTagEngineScanDone (engine : Nat) (s : State) : Res :=
  s.alive fun s => match s.scanOwned engine with
    | [] => s.engineDone engine
    | ls => ls.foldl (fun s l => s.sendSnoops l false ((s.peersOf l).list.map (0x130 + ·))) s

end Sys2Proof.Machine
end

