-- ==== Sys2Proof/Machine/System.lean ====
section
/-!
DEFINITION. Core state register moves (R101, R102 and the register tables of every chapter), save areas (R126, R127), cache
and TLB maintenance (R128, R251), fences (R255) and the block-repeat instructions (R123–R125).
-/
namespace Sys2Proof.Machine

def readTime (k : CoreId) : CM Word := liftS fun s => s.timeRead k

/-- The value MFS reads from index i. -/
def csRead (k : CoreId) (i : Nat) : CM Word := do
  let s ← getS
  let c := s.core k
  let bank := c.csF R.CS_BANKWIN F.CS_BANKWIN_BANK
  if i = R.CS_TIME then readTime k
  else if i = R.CS_FPCTL ∨ i = R.CS_FPFLAGS then do
    barrier k
    let c ← getC k
    pure (c.csGet i)
  else if i = R.CS_VL ∨ i = R.CS_VCTL then do
    vtouch k
    let c ← getC k
    pure (c.csGet i)
  else if 0x120 ≤ i ∧ i < 0x130 then do
    waitPost k (winDst bank i)
    modS fun s => s.settle k (winDst bank i)
    let c ← getC k
    pure (c.read (winDst bank i)).word
  else pure ((s.csFixed k i).getD (c.csGet i))

/-- MTS of index i. -/
def csWrite (k : CoreId) (i : Nat) (v : Word) : CM Unit := do
  let c ← getC k
  let bank := c.csF R.CS_BANKWIN F.CS_BANKWIN_BANK
  if i = R.CS_STATUS then do
    if getF v F.CS_STATUS_PA ≠ c.csF R.CS_STATUS F.CS_STATUS_PA then barrier k
    modC k fun c => c.csNext i v
  else if i = R.CS_FPCTL then do
    barrier k
    modC k fun c => c.csNext i v
  else if i = R.CS_FPFLAGS then do
    barrier k
    modC k fun c => c.csNext i v
  else if i = R.CS_VL then do
    vtouch k
    modC k fun c => c.csNext i v
  else if i = R.CS_VCTL then do
    vtouch k
    modC k fun c => c.csNext i v
  else if i = R.CS_DBGCTL then modC k fun c => { c.csNext i v with skipSet := true }
  else if i = R.CS_FREEHEAD then modS fun s => s.freeheadWrite k v
  else if 0x120 ≤ i ∧ i < 0x130 then do
    waitPost k (winDst bank i)
    modS fun s => s.settle k (winDst bank i)
    modC k fun c => c.write (winDst bank i) (.w v)
  else modC k fun c => c.csNext i v

/-- MFSC of a coin-valued index. -/
def ccRead (k : CoreId) (i : Nat) : CM Coin := do
  let c ← getC k
  if i = R.CS_PCC then pure c.pcc
  else if 0x130 ≤ i ∧ i < 0x140 then do
    let d := winDst (c.csF R.CS_BANKWIN F.CS_BANKWIN_BANK) i
    modS fun s => s.settle k d
    let c ← getC k
    pure (c.read d).coinOf
  else pure (c.ccGet i)

/-- MTSC of a coin-valued index. -/
def ccWrite (k : CoreId) (i : Nat) (x : Coin) : CM Unit := do
  let c ← getC k
  if 0x130 ≤ i ∧ i < 0x140 then do
    let d := winDst (c.csF R.CS_BANKWIN F.CS_BANKWIN_BANK) i
    modS fun s => s.settle k d
    modC k fun c => c.write d (.coin x)
  else modC k fun c => c.ccSet i x

/-- The checks of R101 for index i: assigned, of the instruction's width, permitted in the current ring. DEDUCED, log entry 25. -/
def csAccess (k : CoreId) (i : Nat) (coin write : Bool) : CM CsRule := do
  let c ← getC k
  match csRule (c.csF R.CS_BANKWIN F.CS_BANKWIN_BANK) i with
  | none => illegal
  | some r =>
    if r.coin != coin then illegal
    else if c.ring > (if write then r.wr else r.rd) then privileged
    else pure r

/-- CS_FPCTL and CS_FPFLAGS (R157). -/
def fpIdx (idx : Nat) : Bool := idx == 0x140 || idx == 0x141

/-- An MTS of v that changes CS_STATUS.PA where ring 0 alone may (R102, R156). -/
def changesPa (c : CoreState) (idx : Nat) (v : Word) : Bool :=
  idx == R.CS_STATUS && c.ring == 0 && getF v F.CS_STATUS_PA != c.csF R.CS_STATUS F.CS_STATUS_PA

def execMfs (k : CoreId) (d : BitVec 5) (idx : BitVec 12) (s : State) : Res :=
  coreInstr k { mkInsn (encRI 0x1C d.toNat 0 0 idx.toNat) [] [gN d] with sync := fun _ => fpIdx idx.toNat } (do
    let _ ← csAccess k idx.toNat false false
    let v ← csRead k idx.toNat
    onCore k fun c => c.setG d.toNat v) s

def execMts (k : CoreId) (idx : BitVec 12) (a : BitVec 5) (s : State) : Res :=
  coreInstr k { mkInsn (encRI 0x1C 0 a.toNat 1 idx.toNat) [gN a] [] with
      sync := fun c => fpIdx idx.toNat || changesPa c idx.toNat (c.gR a.toNat) } (do
    let r ← csAccess k idx.toNat false true
    let c ← getC k
    if !r.ro then csWrite k idx.toNat (c.gR a.toNat)
    pure .seq) s

def execMfsc (k : CoreId) (d : BitVec 5) (idx : BitVec 12) (s : State) : Res :=
  coreInstr k (mkInsn (encRI 0x1C d.toNat 0 2 idx.toNat) [] [cN d]) (do
    needC d
    let _ ← csAccess k idx.toNat true false
    let x ← ccRead k idx.toNat
    onCore k fun c => c.setC d.toNat x) s

def execMtsc (k : CoreId) (idx : BitVec 12) (a : BitVec 5) (s : State) : Res :=
  coreInstr k (mkInsn (encRI 0x1C 0 a.toNat 3 idx.toNat) [cN a] []) (do
    needC a
    let r ← csAccess k idx.toNat true true
    let c ← getC k
    if !r.ro then ccWrite k idx.toNat (c.cR a.toNat)
    pure .seq) s

/-! Save areas (R126, R127) -/

/-- The check of an area access: LD, ST, LC and SC, kind 5's type rule, no GL step; and the 64-byte alignment of R126.
DEDUCED, log entry 23. DEDUCED, log entry 24. -/
def areaCheck (k : CoreId) (x : Coin) (n : Nat) : CM Nat := do
  if x.cursor.toNat % 64 ≠ 0 then trapM (alignTrap x.cursor)
  else
    let r ← coinCheckN 0x01B k 16 x 0 n 5 none
    pure r.1

/-- The part at offset o of an area whose lines are `hs`. -/
def areaPart (hs : List Half) (o n : Nat) : Half :=
  let h := hs.getD (o / 64) ⟨0, 64, .normal⟩
  ⟨h.pa + o % 64, n, h.mt⟩

/-- The registers of a kind: coins and words of UPPER or LOWER in the bank in use. -/
def areaC (c : CoreState) (upper : Bool) (j : Nat) : Dst := c.cDst (if upper then 8 + j else j)
def areaG (c : CoreState) (upper : Bool) (j : Nat) : Dst := c.gDst (if upper then 16 + j else j)
def areaRegs (upper : Bool) (c : CoreState) : List Dst :=
  ((List.range 8).map (areaC c upper)) ++ ((List.range 16).map (areaG c upper))

def areaKind (upper : Bool) : Nat := if upper then 1 else 2

/-- The coins of a kind stored at an area, with R93 applied. -/
def saveCoins (k : CoreId) (hs : List Half) (upper : Bool) : List Nat → CM Unit
  | [] => pure ()
  | j :: r => do
    let c ← getC k
    let x ← retireM k (c.look (areaC c upper j)).coinOf
    bufferStore k [areaPart hs (48 + 16 * j) 16] (.coin x.tag) (coinBytes x) false
    saveCoins k hs upper r

/-- The words of a kind stored at an area. -/
def saveWords (k : CoreId) (hs : List Half) (upper : Bool) : List Nat → CM Unit
  | [] => pure ()
  | j :: r => do
    let c ← getC k
    bufferStore k [areaPart hs (176 + 8 * j) 8] .data (natBytes 8 (c.look (areaG c upper j)).word.toNat) false
    saveWords k hs upper r

/-- save(kind) of R127. -/
def saveArea (upper : Bool) (k : CoreId) : CM Next := do
  let c ← getC k
  let h := c.ccGet R.CS_SAVEHEAD
  let a ← areaCheck k h 16
  modS fun s => s.orderBefore k false
  let hl ← xlateLines k false a 1
  let (bs, t) ← readNow k a (areaPart hl 0 16) true 0
  let n ← retireM k ⟨BitVec.ofNat 128 (bytesNat bs), t⟩
  if !n.tag then trapM (stackFault 8 c.ring true)
  else
    let b ← areaCheck k n 320
    let hs ← xlateLines k true b 5
    saveCoins k hs upper (List.range 8)
    saveWords k hs upper (List.range 16)
    bufferStore k [areaPart hs 32 8] .data (natBytes 8 (areaKind upper + (if c.gecko then 4 else 0))) false
    modC k fun c => c.ccSet R.CS_SAVEHEAD n
    pure .seq

/-- The coins of an area read back, with R93 applied: the values for c registers j, j + 1, …. -/
def restCoins (k : CoreId) (bs : List Byte) (ts : List Bool) : List Nat → CM (List Coin)
  | [] => pure []
  | j :: r => do
    let x ← retireM k ⟨BitVec.ofNat 128 (bytesNat ((bs.drop (48 + 16 * j)).take 16)), ts.getD (3 + j) false⟩
    let xs ← restCoins k bs ts r
    pure (x :: xs)

/-- rest(kind) of R127. -/
def restArea (upper : Bool) (k : CoreId) : CM Next := do
  let c ← getC k
  let h := c.ccGet R.CS_SAVEHEAD
  let a ← areaCheck k h 320
  modS fun s => s.orderBefore k false
  let h1 ← xlateLines k false a 1
  let (ws, _) ← readNow k a (areaPart h1 32 8) false 0
  let hd := bytesNat ws
  if hd % 4 = 3 then trapM (stackFault 9 c.ring true)
  else if hd % 4 ≠ areaKind upper then trapM (stackFault 10 c.ring true)
  else
    let hs ← xlateLines k false a 5
    let hw ← xlateLines k true a 1
    let (bs, ts) ← readLines k a hs
    let prev ← retireM k ⟨BitVec.ofNat 128 (bytesNat ((bs.drop 16).take 16)), ts.getD 1 false⟩
    let xs ← restCoins k bs ts (List.range 8)
    modC k fun c =>
      let c := (xs.zipIdx).foldl (fun (c : CoreState) p => c.write (areaC c upper p.2) (.coin p.1)) c
      let c := (List.range 16).foldl (fun (c : CoreState) j =>
        c.write (areaG c upper j) (.w (BitVec.ofNat 64 (bytesNat ((bs.drop (176 + 8 * j)).take 8))))) c
      c.ccSet R.CS_SAVEHEAD prev
    bufferStore k [areaPart hw 32 8] .data (natBytes 8 (hd / 4 * 4)) false
    pure .seq

def saveInsn (f3 : Nat) (upper : Bool) : Insn := ⟨encRI 0x1D 0 0 f3 0, areaRegs upper, fun _ => [], false, false, fun _ => false⟩
def restInsn (f3 : Nat) (upper : Bool) : Insn := ⟨encRI 0x1D 0 0 f3 0, fun _ => [], areaRegs upper, false, false, fun _ => false⟩

def execSaveu (k : CoreId) (s : State) : Res := coreInstr k (saveInsn 0 true) (saveArea true k) s
def execSavel (k : CoreId) (s : State) : Res := coreInstr k (saveInsn 1 false) (saveArea false k) s
def execRestu (k : CoreId) (s : State) : Res := coreInstr k (restInsn 2 true) (restArea true k) s
def execRestl (k : CoreId) (s : State) : Res := coreInstr k (restInsn 3 false) (restArea false k) s

/-! Fences (R128, R255) -/

/-- A marker entered in the store buffer. -/
def CoreState.mark (c : CoreState) (m : SbKind) : CoreState := { c with sb := c.sb ++ [SbEntry.of m 0 [] .normal false] }

def fenceInsn (op : Nat) : Insn := mkInsn (encMT 0 0 0 op) [] []

def execFenceLl (k : CoreId) (s : State) : Res := coreInstr k (fenceInsn 1) (onCore k fun c => { c with fenceLL := true }) s
def execFenceLs (k : CoreId) (s : State) : Res := coreInstr k (fenceInsn 2) (onCore k fun c => c.mark .markLS) s
def execFenceSl (k : CoreId) (s : State) : Res := coreInstr k (fenceInsn 3) (onCore k fun c => { c with fenceSL := true }) s
def execFenceSs (k : CoreId) (s : State) : Res := coreInstr k (fenceInsn 4) (onCore k fun c => c.mark .markSS) s

/-- FENCE.ALL: every earlier access performed, control-space stores accepted, purse writes complete. -/
def execFenceAll (k : CoreId) (s : State) : Res :=
  coreInstr k (fenceInsn 15) (do
    modS fun s => (s.loadFences k).performAll k
    pure .seq) s

/-! Cache and TLB maintenance (R128, R241, R251) -/

/-- PREF and PREFW: a peer's line is asked for; nothing happens where the check or the translation fails. -/
def prefetch (write : Bool) (k : CoreId) (cb : BitVec 5) (s : State) : Res :=
  let kind := if write then 1 else 0
  coreInstr k (mkInsn (encMT cb.toNat 0 1 kind) [cN cb] []) (do
    needC cb
    let c ← getC k
    let got ← attempt (coinCheck k cb.toNat (c.cR cb.toNat) 0 1 kind none)
    match got with
    | none => pure .seq
    | some va => do
      let s ← getS
      let c := s.core k
      let o := s.translate (c.xctx k c.ring) va (xKind kind false) true
      match o.res with
      | .ok pa mt =>
        set (o.s.modCore k fun c => c.setXlate o.s.free o.ctx)
        match s.target pa with
        | .window .. => if mt != .uncached && mt != .device && (s.rlineAt pa).isNone then modS fun s => s.fetchRemote pa k.val write
        | _ => pure ()
        pure .seq
      | _ => pure .seq) s

def execPref (k : CoreId) (cb : BitVec 5) (s : State) : Res := prefetch false k cb s
def execPrefw (k : CoreId) (cb : BitVec 5) (s : State) : Res := prefetch true k cb s

/-- The line of local address a written back; with `flush`, no cluster holds it any longer. -/
def State.flushLine (s : State) (a : Nat) (flush : Bool) : State :=
  let s := s.writeBack a
  if flush then s.setClusters (a / 64 * 64) ⟨0, false⟩ else s

/-- CCLEAN and CFLUSH of a line of a peer's memory: a modified line goes home with WBK, and the instruction completes with its CMP (R128).
For CFLUSH the line is first taken exclusive, which ends every other copy; where the peer denies that, this socket's copy goes.
After CCLEAN the line is asked for again. DESIGN CHOICE, log entry 131. -/
def cleanRemote (flush : Bool) (k : CoreId) (p l : Nat) : CM Unit := do
  let s ← getS
  match s.takeReply k.val 0x06 l with
  | (some _, s') => do
    set s'
    landed k
    if !flush then modS fun s => s.fetchRemote l k.val false
  | (none, _) =>
    if s.blocked then stallM
    else if s.peerTx.any fun t => t.src == k.val && t.op == 0x06 && t.pa == l then awaitM
    else match s.rlineAt l, (if flush then s.takeReply k.val 0x02 l else (none, s)) with
    | x, (some _, s') => do
      set (match x with | some _ => s'.dropRLine l false | none => s')
      landed k
    | some x, (none, _) =>
      if x.dirty ∨ (flush ∧ x.excl) then
        set (({ s with rlines := s.rlines.filter (·.pa != l) } : State).request p 0x06 l k.val 0 x.data x.tags x.poison)
        awaitM
      else if flush then
        set (s.fetchRemote l k.val true)
        awaitM
      else pure ()
    | none, (none, _) =>
      if flush then
        set (s.fetchRemote l k.val true)
        awaitM
      else pure ()

/-- CCLEAN and CFLUSH: the line is written back to its device; CFLUSH drops every cached copy. -/
def cacheOp (flush : Bool) (k : CoreId) (cb : BitVec 5) (s : State) : Res :=
  coreInstr k (mkInsn (encMT cb.toNat 0 1 (if flush then 3 else 2)) [cN cb] []) (do
    needC cb
    let c ← getC k
    let va ← coinCheck k cb.toNat (c.cR cb.toNat) 0 1 0 none
    let (pa, mt) ← xlate k va xClean c.ring 0
    if mt != .uncached && mt != .device then do
      modS fun s => s.drainWhile k fun e => s.sharesByte e.pa e.bytes.length (pa / 64 * 64) 64
      let s ← getS
      match s.target pa with
      | .local a _ _ =>
        set ((s.blockIf (if flush then s.writeHeld (a / 64 * 64) 64 else s.readHeld (a / 64 * 64) 64)).flushLine a flush)
      | .window so _ =>
        match s.portVia so pa with
        | some p => cleanRemote flush k p (pa / 64 * 64)
        | none => pure ()
      | _ => pure ()
    pure .seq) s

def execCclean (k : CoreId) (cb : BitVec 5) (s : State) : Res := cacheOp false k cb s
def execCflush (k : CoreId) (cb : BitVec 5) (s : State) : Res := cacheOp true k cb s

/-- CZERO: 64 zero bytes and cleared tags. -/
def execCzero (k : CoreId) (cb : BitVec 5) (s : State) : Res :=
  coreInstr k (mkInsn (encMT cb.toNat 0 1 4) [cN cb] []) (do
    needC cb
    let c ← getC k
    let x := c.cR cb.toNat
    watch k x 0 64 false true
    needAligned x 0 64
    let va ← coinCheck k cb.toNat x 0 64 1 none
    let (pa, mt) ← xlate k va xZero c.ring 0
    bufferStore k [⟨pa, 64, mt⟩] .zero (List.replicate 64 0) false
    pure .seq) s

/-- INVTLB: every earlier access performed, then the entries that do not satisfy the two tests removed. -/
def invtlb (i : Insn) (k : CoreId) (keepT : CoreState → TlbEntry → Bool) (keepW : CoreState → WalkEntry → Bool) (s : State) : Res :=
  coreInstr k i (do
    ring0 k
    let c0 ← getC k
    modS fun s => s.performAll k
    onCore k fun c => { c with tlb := c.tlb.filter (keepT c0), walk := c.walk.filter (keepW c0) }) s

def execInvtlbAll (k : CoreId) (s : State) : Res :=
  invtlb (mkInsn (encMT 0 0 2 0) [] []) k (fun _ _ => false) (fun _ _ => false) s
def asid16 (x : Word) : Nat := x.toNat % 65536
def execInvtlbAsid (k : CoreId) (a : BitVec 5) (s : State) : Res :=
  invtlb (mkInsn (encMT a.toNat 0 2 1) [gN a] []) k
    (fun c t => !(t.asid == asid16 (c.gR a.toNat) && !pteG t.pte)) (fun c w => w.asid != asid16 (c.gR a.toNat)) s
def execInvtlbPage (k : CoreId) (a b : BitVec 5) (s : State) : Res :=
  invtlb (mkInsn (encMT a.toNat b.toNat 2 2) [gN a, gN b] []) k
    (fun c t => !(t.vbase == (c.gR b.toNat).toNat / pageSize t.level && (t.asid == asid16 (c.gR a.toNat) || pteG t.pte)))
    (fun c w => w.asid != asid16 (c.gR a.toNat)) s
def execInvtlbNg (k : CoreId) (s : State) : Res :=
  invtlb (mkInsn (encMT 0 0 2 3) [] []) k (fun _ t => pteG t.pte) (fun _ _ => false) s

/-- ICSYNC: the model fetches every instruction as it executes it, so there is nothing fetched ahead to discard. -/
def execIcsync (k : CoreId) (s : State) : Res := coreInstr k (mkInsn (encMT 0 0 3 0) [] []) (pure .seq) s

/-! Block repeats (R123–R125) -/

/-- The cursor change and the offset of one element of e bytes. -/
def bkOff (desc : Bool) (e : Nat) : Int := if desc then -(e : Int) else 0
def bkStep (desc : Bool) (e : Nat) (x : Coin) : Coin := x.withCursor (x.cursor + ofInt 64 (if desc then -(e : Int) else e))

/-- The watchpoints of an element through coin register n, ahead of the element's own traps (R451, R201). DEDUCED, log entry 92. -/
def bkWatch (k : CoreId) (n e : Nat) (desc rd wr : Bool) : CM Unit := do
  let c ← getC k
  watch k (c.cR n) (bkOff desc e) e rd wr

/-- The check of an element through coin register n (kind 0 or 1); the result is its address. -/
def bkCheck (k : CoreId) (n e : Nat) (desc write : Bool) : CM Nat := do
  let c ← getC k
  coinCheck k n (c.cR n) (bkOff desc e) e (if write then 1 else 0) none

/-- The translation of an element at va. -/
def bkXlate (k : CoreId) (va e : Nat) (write : Bool) : CM (List Half) := do
  if !write then modS fun s => s.orderBefore k false
  let c ← getC k
  xlateAll k (xKind (if write then 1 else 0) (va % e != 0)) c.ring (splitVa va e) false

/-- An element read at va, checked and translated: after the overlapping stores and loads of its core, and its earlier DEVICE stores
where it is DEVICE (R253, R254). -/
def bkRead (k : CoreId) (va e : Nat) (hs : List Half) : CM Nat := do
  modS fun s =>
    let dev := hs.any fun h => h.mt == .device
    let s := s.drainWhile k fun b => (dev && b.mt == .device) || hs.any fun h => s.sharesByte b.pa b.bytes.length h.pa h.len
    hs.foldl (fun s h => s.sampleOverlapping k h.pa h.len) s
  let (bs, _) ← readHalves k false (((splitVa va e).map (·.1)).zip hs) false
  pure (bytesNat bs)

/-- The registers after a complete element: cursors moved, the count down by one (R124). The instruction has now written them, so it reads
them from here on, not what the shadow of a load kept of them (R115). -/
def bkAdvance (cs : List Nat) (g e : Nat) (desc : Bool) (c : CoreState) : CoreState :=
  let ws := c.gDst g :: cs.map c.cDst
  let c := cs.foldl (fun (c : CoreState) n => c.setC n (bkStep desc e (c.cR n))) c
  let c := c.setG g (c.gR g - 1)
  { c with shadow := match c.shadow with | some sh => if ws.any (·.base == sh.dst) then none else some sh | none => none }

/-- The elements of a block repeat, at most `fuel` of them before an interrupt falls. `elem` does one element and says whether
it stops the instruction. A wait after the first element ends the command at that boundary. DESIGN CHOICE, log entry 21. -/
def bkLoop (k : CoreId) (cs : List Nat) (g e : Nat) (desc : Bool) (elem : CM Bool) : Nat → Bool → CM Next
  | 0, _ => do
    let c ← getC k
    pure (if c.gR g = 0 then .seq else .again)
  | fuel + 1, started => do
    let c ← getC k
    if c.gR g = 0 then pure .seq
    else
      let r : Option Bool ← fun s => match elem s with
        | .ok b s' => .ok (some b) s'
        | .error .stall s' => if started then .ok none s else .error .stall s'
        | .error .await s' => if started then .ok none s else .error .await s'
        | .error x s' => .error x s'
      match r with
      | none => pure .again
      | some true => pure .seq
      | some false => do
        modC k (bkAdvance cs g e desc)
        bkLoop k cs g e desc elem fuel true

/-- One element per instruction while debug single-steps (R450). DESIGN CHOICE, log entry 21. -/
def bkFuel (c : CoreState) (upto : Nat) : Nat := if c.step then 1 else upto

def bkInsn (f3 : Nat) (a b n : BitVec 5) (esize : BitVec 3) (desc neg : Bool) (bCoin : Bool) : Insn :=
  mkInsn (encBK a.toNat b.toNat n.toNat f3 esize.toNat (b2n desc) (b2n neg)) [cN a, if bCoin then cN b else gN b, gN n]
    ([cN a, gN n] ++ (if bCoin then [cN b] else []))

/-- The shared form of the four instructions. DESIGN CHOICE, log entry 21. -/
def blockRepeat (i : Insn) (k : CoreId) (bad : Bool) (cs : List (BitVec 5)) (n : BitVec 5) (esize : BitVec 3) (desc : Bool)
    (upto : Nat) (elem : Nat → CM Bool) (s : State) : Res :=
  coreInstr k i (do
    cs.forM needC
    if bad then illegal
    else
      let c ← getC k
      let e := 2 ^ esize.toNat
      bkLoop k (cs.map (·.toNat)) n.toNat e desc (elem e) (bkFuel c upto) false) s

def execBmov (k : CoreId) (a b n : BitVec 5) (esize : BitVec 3) (desc : Bool) (upto : Nat) (s : State) : Res :=
  blockRepeat (bkInsn 0 a b n esize desc false true) k (esize.toNat > 4 || a == b) [a, b] n esize desc upto (fun e => do
    bkWatch k b.toNat e desc true false
    bkWatch k a.toNat e desc false true
    let (r, w) ← bothChecks (bkCheck k b.toNat e desc false) (bkCheck k a.toNat e desc true)
    let hr ← bkXlate k r e false
    let hw ← bkXlate k w e true
    let v ← bkRead k r e hr
    bufferStore k hw .data (natBytes e v) false
    pure false) s

def execBfill (k : CoreId) (a b n : BitVec 5) (esize : BitVec 3) (desc : Bool) (upto : Nat) (s : State) : Res :=
  blockRepeat (bkInsn 1 a b n esize desc false false) k (esize.toNat > 3) [a] n esize desc upto (fun e => do
    bkWatch k a.toNat e desc false true
    let w ← bkCheck k a.toNat e desc true
    let hw ← bkXlate k w e true
    let c ← getC k
    bufferStore k hw .data (natBytes e ((c.gR b.toNat).toNat % 2 ^ (8 * e))) false
    pure false) s

/-- Two reads of which neither has its effect before both are certain to complete: the first of them that stops does so alone (R241). -/
def bkCertain (m n : CM Unit) : CM Unit := fun s =>
  match m s with
  | .error e s' => .error e s'
  | .ok _ _ => match n s with
    | .error e s' => .error e s'
    | .ok _ _ => .ok () s

def execBcmp (k : CoreId) (a b n : BitVec 5) (esize : BitVec 3) (desc : Bool) (upto : Nat) (s : State) : Res :=
  blockRepeat (bkInsn 2 a b n esize desc false true) k (esize.toNat > 4 || a == b) [a, b] n esize desc upto (fun e => do
    bkWatch k a.toNat e desc true false
    bkWatch k b.toNat e desc true false
    let (p, q) ← bothChecks (bkCheck k a.toNat e desc false) (bkCheck k b.toNat e desc false)
    let hp ← bkXlate k p e false
    let hq ← bkXlate k q e false
    bkCertain (do
      let _ ← bkRead k p e hp
      pure ()) (do
      let _ ← bkRead k q e hq
      pure ())
    let x ← bkRead k p e hp
    let y ← bkRead k q e hq
    pure (x != y)) s

def execBscan (k : CoreId) (a b n : BitVec 5) (esize : BitVec 3) (desc neg : Bool) (upto : Nat) (s : State) : Res :=
  blockRepeat (bkInsn 3 a b n esize desc neg false) k (esize.toNat > 3) [a] n esize desc upto (fun e => do
    bkWatch k a.toNat e desc true false
    let c ← getC k
    let p ← bkCheck k a.toNat e desc false
    let hp ← bkXlate k p e false
    let x ← bkRead k p e hp
    pure ((x == (c.gR b.toNat).toNat % 2 ^ (8 * e)) != neg)) s

end Sys2Proof.Machine
end

