-- ==== Sys2Proof/Machine/TellerCmd.lean ====
section
/-!
DEFINITION. POST and its reply (R297), and the commands of tellers, sequencer and journal (R299–R346).
-/
namespace Sys2Proof.Machine

/-! POST -/

/-- The lines of a descriptor translated as loads of kind 8. -/
def postLines (k : CoreId) (va : Nat) : Nat → CM (List Half)
  | 0 => pure []
  | n + 1 => do
    let c ← getC k
    let (pa, mt) ← xlate k va (xKind 8 false) c.ring 0
    let rest ← postLines k (va + 64) n
    pure (⟨pa, 64, mt⟩ :: rest)

/-- The context a PFW carries in its last VALUE: the manual gives the contents, the model their places. DEDUCED, log entry 42. -/
def pfwContext (ring asid mode root : Nat) : Word :=
  BitVec.ofNat 64 (mode % 4 + ring % 4 * 4 + root / 4096 % 2 ^ 36 * 2 ^ 12 + asid % 65536 * 2 ^ 48)

/-- Four tags of a piece. -/
def tagBits (ts : List Bool) : BitVec 4 := BitVec.ofNat 4 ((ts.take 4).zipIdx.foldl (fun n x => n + b2n x.1 * 2 ^ x.2) 0)

/-- A descriptor sent to a peer's teller as PFW pieces (R371), at least two of them. DEDUCED, log entry 42. -/
def State.sendPost (s : State) (port tx core a : Nat) (bs : List Byte) (tags : List Bool) (ctx : Word) : State :=
  let n := max 2 (lineCount bs.length)
  (List.range n).foldl (fun s i =>
    s.send ⟨port, 0x25, padTo 64 (bs.drop (64 * i)), false, tagBits (tags.drop (4 * i)), tx, core, i % 16 + (if i + 1 = n then 16 else 0),
      if i = 0 then BitVec.ofNat 64 a else if i + 1 = n then ctx else 0⟩) s

/-- POST (R297). -/
def execPost (k : CoreId) (d a b : BitVec 5) (f3 : BitVec 3) (f7 : BitVec 7) (s : State) : Res :=
  coreInstr k (mkInsn (encRR 0x2A d.toNat a.toNat b.toNat f3.toNat f7.toNat) [cN a] [gN d]) (do
    if b ≠ 0 ∨ f3 ≠ 0 ∨ f7 ≠ 0 then illegal
    needC a
    let c ← getC k
    let x := c.cR a.toNat
    watch k x 0 64 true false
    needAligned x 0 64
    let va ← coinCheck k a.toNat x 0 64 8 none
    modS fun s => s.orderBefore k false
    let hs ← postLines k va 1
    let (hdr, ht) ← readLines k va hs
    let n := legCount hdr
    let (bs, ts) ← do
      if n = 0 then pure (hdr, ht)
      else
        let size := 64 + 32 * n
        watch k x 0 size true false
        let va ← coinCheck k a.toNat x 0 size 8 none
        let hs ← postLines k va (lineCount size)
        readLines k va hs
    modS fun s => (s.drainAll k).finishCorePurseWrs k.val
    let s ← getS
    if s.blocked then stallM
    let c ← getC k
    let pa := (hs.map (·.pa)).headD 0
    let mode := c.csF R.CS_PTMODE F.CS_PTMODE_MODE
    let root := c.csF R.CS_PTMODE F.CS_PTMODE_ROOT * 4096
    let bs := bs.take (64 + 32 * n)
    match s.target pa with
    | .window so la =>
      match s.portOf so with
      | none => trapM (busTrap (BitVec.ofNat 64 va) (tiFlag F.CS_TINFO_NOTARGET true))
      | some p =>
        let id := s.nextId
        set (({ s with nextId := id + 1, peerTx := s.peerTx ++ [PeerTx.mk (id % 65536) p 0x25 pa k.val none] } : State).sendPost p
          (id % 65536) k.val la bs ts (pfwContext c.ring c.asid mode root))
        onCore k fun c => { c with posts := c.posts ++ [⟨id, c.gDst d.toNat, none⟩] }
    | _ =>
      let id := s.nextId
      let intake := (s.homeTeller pa).getD 0
      modS fun s => s.newPosting (.post k.val) intake bs ts c.ring c.asid mode root .sent
      onCore k fun c => { c with posts := c.posts ++ [⟨id, c.gDst d.toNat, none⟩] }) s

/-- The teller's reply reaches core k and is written to gd. -/
def execPostReply (k : CoreId) (id : Nat) (s : State) : Res :=
  match (s.core k).posts.find? (·.id == id) with
  | some ⟨_, d, some code⟩ => .next (s.modCore k fun c =>
      { c.write d (.w (BitVec.ofNat 64 code)) with posts := c.posts.filter (·.id != id) })
  | _ => .next s

/-! The course of a posting -/

def execPostingIntake (id : Nat) (s : State) : Res := s.alive fun s => s.postingIntake id
def execPostingLeadArrival (id : Nat) (s : State) : Res := s.alive fun s => s.leadArrival id
def execCellLockRequest (id : Nat) (s : State) : Res := s.alive fun s => (s.lockArrive id).serveLines
def execCellLockGrant (id : Nat) (s : State) : Res := s.alive fun s => s.lockGranted id
def execCellLockRelease (line id : Nat) (s : State) : Res := s.alive fun s => s.lockReleased line id
def execSequenceRequest (id : Nat) (s : State) : Res := s.alive fun s => s.numberRequest id
def execPostingNumberReceived (id : Nat) (s : State) : Res := s.alive fun s => s.numberArrive id
def execCellCommit (id pa : Nat) (s : State) : Res := s.alive fun s => s.cellCommit id pa
def execCommitAck (id pa : Nat) (s : State) : Res := s.alive fun s => s.commitAck id pa

/-- A posting waiting on a full completion ring repeats its reservation (R301). -/
def execCompletionReserveRetry (id : Nat) (s : State) : Res :=
  match s.postingOf id with
  | some p => .next (if p.phase = .completing then s.completeNow id else s)
  | none => .next s

def execDurabilityWaitTimeout (n : Idx16) (s : State) : Res := s.alive fun s => s.durTimeout n.val

/-! Registers -/

def execTlrSubmitWrite (n : Idx16) (v : Word) (s : State) : Res := s.alive fun s => s.submitWrite n.val v
def execSubmissionSlotIntake (n ring : Idx16) (s : State) : Res := s.alive fun s => s.slotIntake n.val ring.val
def execTlrSrcfgEnable (n ring : Idx16) (v : Word) (s : State) : Res := s.alive fun s => s.srcfgWrite n.val ring.val (setF v ⟨0, 0⟩ 1)
def execTlrInvtlbWrite (n : Idx16) (v : Word) (s : State) : Res := s.alive fun s => s.tlrInvWrite n.val v
def execSeqNextWrite (v : Word) (s : State) : Res := s.alive fun s => { s with seq := s.seq.writeNext v }
def execSeqCtlWrite (v : Word) (s : State) : Res := s.alive fun s => { s with seq := s.seq.writeCtl v }

/-! Journal -/

def execJournalWriteAccepted (n : Idx16) (ok : Bool) (s : State) : Res := s.alive fun s => s.journalAccepted n.val ok

/-- A persistence flush ends; postings whose class it reaches are completed (R332, R333). In BRUMATION flushes stand still (R338). -/
def execPersistenceFlushComplete (group : Idx16) (port : Fin 8) (ok : Bool) (s : State) : Res :=
  if s.mode = .brumation then .next s else .next (s.flushDone group.val port.val ok).durReached

def execJournalLocalSet (n : Idx16) (v : Word) (s : State) : Res := s.alive fun s => (s.jctlWrite n.val (setF v F.TLR_JCTL_LOCAL 1)).2
def execJournalMirrorSet (n : Idx16) (v : Word) (s : State) : Res := s.alive fun s => (s.jctlWrite n.val (setF v F.TLR_JCTL_MIRROR 1)).2
def execJournalLocalClear (n : Idx16) (v : Word) (s : State) : Res := s.alive fun s => (s.jctlWrite n.val (setF v F.TLR_JCTL_LOCAL 0)).2
def execJournalMirrorClear (n : Idx16) (v : Word) (s : State) : Res := s.alive fun s => (s.jctlWrite n.val (setF v F.TLR_JCTL_MIRROR 0)).2
def execJtailWrite (n : Idx16) (v : Word) (s : State) : Res := s.alive fun s => s.jtailWrite n.val v
def execJmtailWrite (n : Idx16) (v : Word) (s : State) : Res := s.alive fun s => s.jmtailWrite n.val v
def execJmbaseEnable (n : Idx16) (v : Word) (s : State) : Res := s.alive fun s => s.jmbaseWrite n.val (setF v F.TLR_JMBASE_EN 1)

def execSealRecordWrite (n : Idx16) (s : State) : Res := s.alive fun s => s.seal n.val

/-- The final flush of teller n's target completes, and the teller writes nothing further (R339). -/
def execDrainComplete (n : Idx16) (s : State) : Res :=
  if s.mode != .drain || s.drained.contains n.val || !s.drainOver n.val then .next s
  else
    let s : State := { s with drained := s.drained ++ [n.val] }
    -- a thermal trip's DRAIN is complete (R464)
    .next (if s.pins.trip && s.drainDone then s.tripOut else s)

end Sys2Proof.Machine
end

