-- ==== Sys2Proof/Machine/Vector.lean ====
section
/-!
DEFINITION. Long-vector instructions (R159–R176, R183): elements and masks, vector loads and stores with their two passes and
fault reports, integer, binary and decimal element operations, mask instructions, VSETVL and VRELEASE.
-/
namespace Sys2Proof.Machine

/-! Elements and masks (R159–R161) -/

/-- Element i of width e bytes. -/
def elemAt (e : Nat) (v : BitVec 4096) (i : Nat) : Nat := (v >>> (8 * e * i)).toNat % 2 ^ (8 * e)
/-- `v` with element i of width e bytes replaced. -/
def elemPut (e : Nat) (v : BitVec 4096) (i x : Nat) : BitVec 4096 := setF v ⟨8 * e * i + 8 * e - 1, 8 * e * i⟩ (x % 2 ^ (8 * e))
/-- Element i as a signed integer. -/
def elemS (e : Nat) (v : BitVec 4096) (i : Nat) : Int := toSigned (8 * e) (elemAt e v i)

def CoreState.sew (c : CoreState) : Nat := c.csF R.CS_VCTL F.CS_VCTL_SEW
/-- Element size in bytes. -/
def CoreState.vE (c : CoreState) : Nat := 2 ^ c.sew
/-- Vector length in bytes. -/
def CoreState.vL (c : CoreState) : Nat := c.csF R.CS_VL F.CS_VL_VL
/-- Element count. -/
def CoreState.vN (c : CoreState) : Nat := c.vL / c.vE
def CoreState.zm (c : CoreState) : Bool := c.csF R.CS_VCTL F.CS_VCTL_ZM == 1

/-- Element i is selected by the mask field. -/
def CoreState.vSel (c : CoreState) (mask : BitVec 3) (i : Nat) : Bool := mask == 0 || bitB (c.mR mask.toNat) i

/-- The destination vd with elements i < n of width e: the result where active, zero or unchanged where masked off (R161). -/
def CoreState.vMerge (c : CoreState) (mask : BitVec 3) (e n d : Nat) (f : Nat → Nat) : BitVec 4096 :=
  (List.range n).foldl (fun v i => if c.vSel mask i then elemPut e v i (f i) else if c.zm then elemPut e v i 0 else v) (c.read (.v d)).vecOf

/-- The mask destination md with bits i < n: the relation where active, 0 where masked off (R161). -/
def CoreState.mMerge (c : CoreState) (mask : BitVec 3) (n d : Nat) (f : Nat → Bool) : BitVec 512 :=
  (List.range n).foldl (fun (m : BitVec 512) i => setF m ⟨i, i⟩ (b2n (c.vSel mask i && f i))) (c.read (.m d)).maskOf

/-- Conditions of the active elements below n (R167). -/
def CoreState.vFlags (c : CoreState) (mask : BitVec 3) (n : Nat) (f : Nat → Flags8) : Flags8 :=
  (List.range n).foldl (fun fl i => if c.vSel mask i then fl ||| f i else fl) 0

/-! Encoding and legality (R162, R163) -/

def encVR (f7 d a b mask : Nat) : Nat := encRR 0x30 d a b mask f7

/-- The mask register that governs an instruction, for operand lists. -/
def mkN (mask : BitVec 3) (_ : CoreState) : Dst := if mask = 0 then .none else .m mask.toNat
def mF (n : BitVec 5) (_ : CoreState) : Dst := .m n.toNat

/-- A vector arithmetic instruction: legal where `ok` says, vector state touched (R180), a long operation (R175).
DEDUCED, log entry 30. -/
def vInstr (k : CoreId) (i : Insn) (ok : CoreState → Bool) (f : CoreState → List (Dst × DVal) × Flags8) (s : State) : Res :=
  coreInstr k i (do
    let c ← getC k
    if !ok c then illegal
    else
      vtouch k
      deliver k true i.word f) s

/-- DEDUCED, log entry 30. -/
def sewIn (lo hi : Nat) (c : CoreState) : Bool := lo ≤ c.sew && c.sew ≤ hi

/-- vd[i] := f on the elements i of va and vb. -/
def vElem (f7 lo hi : Nat) (g : (e : Nat) → (x y : Nat) → Nat) (k : CoreId) (d a b : BitVec 5) (mask : BitVec 3) (s : State) : Res :=
  vInstr k (mkInsn (encVR f7 d.toNat a.toNat b.toNat mask.toNat) [vN a, vN b, mkN mask] [vN d]) (sewIn lo hi) (fun c =>
    let e := c.vE
    let va := c.vR a.toNat
    let vb := c.vR b.toNat
    ([(.v d.toNat, .vec (c.vMerge mask e c.vN d.toNat fun i => g e (elemAt e va i) (elemAt e vb i)))], 0)) s

/-- md bit i := the relation of the elements i of va and vb; a field of 8 or more names no mask register. -/
def vRel (f7 lo hi : Nat) (g : CoreState → (e : Nat) → (x y : Nat) → Bool × Flags8) (k : CoreId) (d a b : BitVec 5) (mask : BitVec 3)
    (s : State) : Res :=
  vInstr k (mkInsn (encVR f7 d.toNat a.toNat b.toNat mask.toNat) [vN a, vN b, mkN mask] [mF d])
    (fun c => sewIn lo hi c && d.toNat < 8) (fun c =>
      let e := c.vE
      let va := c.vR a.toNat
      let vb := c.vR b.toNat
      let r (i : Nat) := g c e (elemAt e va i) (elemAt e vb i)
      ([(.m d.toNat, .mask (c.mMerge mask c.vN d.toNat fun i => (r i).1))], c.vFlags mask c.vN fun i => (r i).2)) s

/-! Integer element operations (R163, R164) -/

def vsgn (e x : Nat) : Int := toSigned (8 * e) x
def vmodI (e : Nat) (x : Int) : Nat := (x % (2 ^ (8 * e) : Nat)).toNat

def execVadd (k : CoreId) (d a b : BitVec 5) (mask : BitVec 3) (s : State) : Res := vElem 0x20 0 4 (fun _ x y => x + y) k d a b mask s
def execVsub (k : CoreId) (d a b : BitVec 5) (mask : BitVec 3) (s : State) : Res :=
  vElem 0x21 0 4 (fun e x y => x + 2 ^ (8 * e) - y) k d a b mask s
def execVmul (k : CoreId) (d a b : BitVec 5) (mask : BitVec 3) (s : State) : Res := vElem 0x22 0 3 (fun _ x y => x * y) k d a b mask s
def execVand (k : CoreId) (d a b : BitVec 5) (mask : BitVec 3) (s : State) : Res := vElem 0x28 0 4 (fun _ x y => x &&& y) k d a b mask s
def execVor (k : CoreId) (d a b : BitVec 5) (mask : BitVec 3) (s : State) : Res := vElem 0x29 0 4 (fun _ x y => x ||| y) k d a b mask s
def execVxor (k : CoreId) (d a b : BitVec 5) (mask : BitVec 3) (s : State) : Res := vElem 0x2A 0 4 (fun _ x y => x ^^^ y) k d a b mask s
def execVshl (k : CoreId) (d a b : BitVec 5) (mask : BitVec 3) (s : State) : Res :=
  vElem 0x2B 0 3 (fun e x y => x * 2 ^ (y % (8 * e))) k d a b mask s
def execVshr (k : CoreId) (d a b : BitVec 5) (mask : BitVec 3) (s : State) : Res :=
  vElem 0x2C 0 3 (fun e x y => x / 2 ^ (y % (8 * e))) k d a b mask s
def execVsar (k : CoreId) (d a b : BitVec 5) (mask : BitVec 3) (s : State) : Res :=
  vElem 0x2D 0 3 (fun e x y => vmodI e (vsgn e x / (2 ^ (y % (8 * e)) : Nat))) k d a b mask s
def execVmin (k : CoreId) (d a b : BitVec 5) (mask : BitVec 3) (s : State) : Res :=
  vElem 0x2E 0 3 (fun e x y => if vsgn e y < vsgn e x then y else x) k d a b mask s
def execVmax (k : CoreId) (d a b : BitVec 5) (mask : BitVec 3) (s : State) : Res :=
  vElem 0x2F 0 3 (fun e x y => if vsgn e x < vsgn e y then y else x) k d a b mask s
def execVminu (k : CoreId) (d a b : BitVec 5) (mask : BitVec 3) (s : State) : Res := vElem 0x30 0 3 (fun _ x y => min x y) k d a b mask s
def execVmaxu (k : CoreId) (d a b : BitVec 5) (mask : BitVec 3) (s : State) : Res := vElem 0x31 0 3 (fun _ x y => max x y) k d a b mask s

/-- A signed sum clamped to the range of n bits. -/
def clampS (n : Nat) (x : Int) : Int := clampI (-(2 ^ (n - 1) : Nat)) ((2 ^ (n - 1) : Nat) - 1) x

def execVaddsat (k : CoreId) (d a b : BitVec 5) (mask : BitVec 3) (s : State) : Res :=
  vElem 0x32 0 3 (fun e x y => vmodI e (clampS (8 * e) (vsgn e x + vsgn e y))) k d a b mask s

def execVcmpeq (k : CoreId) (d a b : BitVec 5) (mask : BitVec 3) (s : State) : Res := vRel 0x33 0 3 (fun _ _ x y => (x == y, 0)) k d a b mask s
def execVcmplt (k : CoreId) (d a b : BitVec 5) (mask : BitVec 3) (s : State) : Res :=
  vRel 0x34 0 3 (fun _ e x y => (decide (vsgn e x < vsgn e y), 0)) k d a b mask s
def execVcmpltu (k : CoreId) (d a b : BitVec 5) (mask : BitVec 3) (s : State) : Res :=
  vRel 0x35 0 3 (fun _ _ x y => (decide (x < y), 0)) k d a b mask s

/-- A reduction: vd[0] from vb[0] and the active elements of va; the other elements are unchanged. DEDUCED, log entry 29. -/
def vRed (f7 : Nat) (g : (e : Nat) → Nat → Nat → Nat) (k : CoreId) (d a b : BitVec 5) (mask : BitVec 3) (s : State) : Res :=
  vInstr k (mkInsn (encVR f7 d.toNat a.toNat b.toNat mask.toNat) [vN a, vN b, mkN mask] [vN d]) (sewIn 0 3) (fun c =>
    let e := c.vE
    let va := c.vR a.toNat
    let r := (List.range c.vN).foldl (fun x i => if c.vSel mask i then g e x (elemAt e va i) else x) (elemAt e (c.vR b.toNat) 0)
    ([(.v d.toNat, .vec (elemPut e (c.read (.v d.toNat)).vecOf 0 r))], 0)) s

def execVredadd (k : CoreId) (d a b : BitVec 5) (mask : BitVec 3) (s : State) : Res := vRed 0x36 (fun _ x y => x + y) k d a b mask s
def execVredmax (k : CoreId) (d a b : BitVec 5) (mask : BitVec 3) (s : State) : Res :=
  vRed 0x37 (fun e x y => if vsgn e x < vsgn e y then y else x) k d a b mask s

/-! Widening and dot products (R166) -/

/-- D destination elements of width w, each from vd[j] and the sources. -/
def vWide (f7 : Nat) (sews : Nat × Nat) (bad : Bool) (w : CoreState → Nat) (srcs : List (CoreState → Dst)) (bf : Nat)
    (g : CoreState → (j : Nat) → Nat × Flags8) (k : CoreId) (d a : BitVec 5) (mask : BitVec 3) (s : State) : Res :=
  vInstr k (mkInsn (encVR f7 d.toNat a.toNat bf mask.toNat) (srcs ++ [mkN mask]) [vN d])
    (fun c => sewIn sews.1 sews.2 c && !bad) (fun c =>
      let n := c.vL / w c
      ([(.v d.toNat, .vec (c.vMerge mask (w c) n d.toNat fun j => (g c j).1))], c.vFlags mask n fun j => (g c j).2)) s

/-- VMULW: the low (off = 0) or high half of the elements, signed or not. -/
def vMulw (f7 : Nat) (high signed : Bool) (k : CoreId) (d a b : BitVec 5) (mask : BitVec 3) (s : State) : Res :=
  vWide f7 (0, 3) false (fun c => 2 * c.vE) [vN a, vN b] b.toNat (fun c j =>
    let e := c.vE
    let i := if high then c.vL / (2 * e) + j else j
    let x := elemAt e (c.vR a.toNat) i
    let y := elemAt e (c.vR b.toNat) i
    (if signed then vmodI (2 * e) (vsgn e x * vsgn e y) else x * y, 0)) k d a mask s

def execVmulwl (k : CoreId) (d a b : BitVec 5) (mask : BitVec 3) (s : State) : Res := vMulw 0x23 false true k d a b mask s
def execVmulwh (k : CoreId) (d a b : BitVec 5) (mask : BitVec 3) (s : State) : Res := vMulw 0x24 true true k d a b mask s
def execVmulwlu (k : CoreId) (d a b : BitVec 5) (mask : BitVec 3) (s : State) : Res := vMulw 0x25 false false k d a b mask s
def execVmulwhu (k : CoreId) (d a b : BitVec 5) (mask : BitVec 3) (s : State) : Res := vMulw 0x26 true false k d a b mask s

def execVdot4 (k : CoreId) (d a b : BitVec 5) (mask : BitVec 3) (s : State) : Res :=
  vWide 0x27 (0, 0) false (fun _ => 4) [vN a, vN b, vN d] b.toNat (fun c j =>
    let va := c.vR a.toNat
    let vb := c.vR b.toNat
    let p (n : Nat) : Int := elemS 1 va (4 * j + n) * elemS 1 vb (4 * j + n)
    (vmodI 4 (elemS 4 (c.vR d.toNat) j + p 0 + p 1 + p 2 + p 3), 0)) k d a mask s

/-- A binary16 datum in binary32 terms: numbers as they are, a NaN with its payload moved as CVTW moves it.
DEDUCED, log entry 29. -/
def widenNaN (src dst : Fmt) (x : FpVal) : FpVal :=
  match x with
  | .nan n sg p => .nan n sg (p * 2 ^ (dst.p - src.p))
  | x => x

/-- z + x0 × y0 + x1 × y1, products exact, the sum rounded once to binary32 (R166, R167). DEDUCED, log entry 29. -/
def fpDot2 (m : RMode) (z x0 y0 x1 y1 : FpVal) : FpRes :=
  let ops := [widenNaN binary16 binary32 x0, widenNaN binary16 binary32 y0, widenNaN binary16 binary32 x1, widenNaN binary16 binary32 y1, z]
  let isInf (x : FpVal) : Bool := match x with | .inf _ => true | _ => false
  let zeroInf (x y : FpVal) : Bool := (x.isZero && isInf y) || (isInf x && y.isZero)
  let bad := zeroInf x0 y0 || zeroInf x1 y1
  if ops.any FpVal.isNaN then
    let r := nanOf ops
    { r with fl := r.fl ||| flagIf bad fNV }
  else if bad then invalid
  else
    let prod (x y : FpVal) : FpVal :=
      match x, y with
      | .fin xn xc xe, .fin yn yc ye => .fin (xn != yn) (xc * yc) (xe + ye)
      | _, _ => .inf (x.neg != y.neg)
    let terms := [z, prod x0 y0, prod x1 y1]
    let infs := terms.filter isInf
    match infs with
    | i :: r => if r.all (fun t => t.neg == i.neg) then ⟨i, 0⟩ else invalid
    | [] =>
      let sum := terms.foldl (fun (acc : Option FpVal) t =>
        match acc, t with
        | none, _ => some t
        | some (.fin xn xc xe), .fin yn yc ye =>
          let (n, c, e) := addExact 2 m xn xc xe yn yc ye
          some (.fin n c e)
        | a, _ => a) none
      match sum with
      | some (.fin n c e) => roundTo binary32 m n c e false e
      | _ => invalid

/-- The dynamic modes (R167). -/
def CoreState.brm (c : CoreState) : RMode := RMode.ofCode (c.csF R.CS_FPCTL F.CS_FPCTL_BRM)
def CoreState.drm (c : CoreState) : RMode := RMode.ofCode (c.csF R.CS_FPCTL F.CS_FPCTL_DRM)

def execVdot2h (k : CoreId) (d a b : BitVec 5) (mask : BitVec 3) (s : State) : Res :=
  vWide 0x48 (1, 1) false (fun _ => 4) [vN a, vN b, vN d] b.toNat (fun c j =>
    let x (i : Nat) := binary16.decode (elemAt 2 (c.vR a.toNat) i)
    let y (i : Nat) := binary16.decode (elemAt 2 (c.vR b.toNat) i)
    let r := fpDot2 c.brm (binary32.decode (elemAt 4 (c.vR d.toNat) j)) (x (2 * j)) (y (2 * j)) (x (2 * j + 1)) (y (2 * j + 1))
    (binary32.encode r.v, r.fl)) k d a mask s

/-- The binary format of an element size code 1–3. -/
def binOf (sew : Nat) : Fmt := if sew = 1 then binary16 else if sew = 2 then binary32 else binary64
/-- The decimal format of an element size code 3 or 4. -/
def decOf (sew : Nat) : Fmt := if sew = 3 then decimal64 else decimal128

def execVfwiden (k : CoreId) (d a h : BitVec 5) (mask : BitVec 3) (s : State) : Res :=
  vWide 0x49 (1, 2) (h.toNat > 1) (fun c => 2 * c.vE) [vN a] h.toNat (fun c j =>
    let e := c.vE
    let src := binOf c.sew
    let dst := binOf (c.sew + 1)
    let r := fpCvtw src dst .rne (src.decode (elemAt e (c.vR a.toNat) (h.toNat * (c.vL / (2 * e)) + j)))
    (dst.encode r.v, r.fl)) k d a mask s

/-! Floating-point element operations (R167) -/

/-- vd[i] from va[i], vb[i] and vd[i], in the format of the element size. -/
def vFp (f7 lo hi : Nat) (dec readsD : Bool) (g : Fmt → RMode → FpVal → FpVal → FpVal → FpRes) (k : CoreId) (d a b : BitVec 5)
    (mask : BitVec 3) (s : State) : Res :=
  vInstr k (mkInsn (encVR f7 d.toNat a.toNat b.toNat mask.toNat) ([vN a, vN b, mkN mask] ++ if readsD then [vN d] else []) [vN d])
    (sewIn lo hi) (fun c =>
      let e := c.vE
      let f := if dec then decOf c.sew else binOf c.sew
      let m := if dec then c.drm else c.brm
      let r (i : Nat) : FpRes := g f m (f.decode (elemAt e (c.vR a.toNat) i)) (f.decode (elemAt e (c.vR b.toNat) i))
        (f.decode (elemAt e (c.vR d.toNat) i))
      ([(.v d.toNat, .vec (c.vMerge mask e c.vN d.toNat fun i => f.encode (r i).v))], c.vFlags mask c.vN fun i => (r i).fl)) s

def execVfadd (k : CoreId) (d a b : BitVec 5) (mask : BitVec 3) (s : State) : Res :=
  vFp 0x40 1 3 false false (fun f m x y _ => fpAdd f m x y) k d a b mask s
def execVfsub (k : CoreId) (d a b : BitVec 5) (mask : BitVec 3) (s : State) : Res :=
  vFp 0x41 1 3 false false (fun f m x y _ => fpSub f m x y) k d a b mask s
def execVfmul (k : CoreId) (d a b : BitVec 5) (mask : BitVec 3) (s : State) : Res :=
  vFp 0x42 1 3 false false (fun f m x y _ => fpMul f m x y) k d a b mask s
def execVfmadd (k : CoreId) (d a b : BitVec 5) (mask : BitVec 3) (s : State) : Res :=
  vFp 0x43 1 3 false true (fun f m x y z => fpFma f m x y z) k d a b mask s
def execVfmin (k : CoreId) (d a b : BitVec 5) (mask : BitVec 3) (s : State) : Res :=
  vFp 0x44 1 3 false false (fun f _ x y _ => fpMinMax f false x y) k d a b mask s
def execVfmax (k : CoreId) (d a b : BitVec 5) (mask : BitVec 3) (s : State) : Res :=
  vFp 0x45 1 3 false false (fun f _ x y _ => fpMinMax f true x y) k d a b mask s
def execVdadd (k : CoreId) (d a b : BitVec 5) (mask : BitVec 3) (s : State) : Res :=
  vFp 0x60 3 4 true false (fun f m x y _ => fpAdd f m x y) k d a b mask s
def execVdsub (k : CoreId) (d a b : BitVec 5) (mask : BitVec 3) (s : State) : Res :=
  vFp 0x61 3 4 true false (fun f m x y _ => fpSub f m x y) k d a b mask s
def execVdmul (k : CoreId) (d a b : BitVec 5) (mask : BitVec 3) (s : State) : Res :=
  vFp 0x62 3 4 true false (fun f m x y _ => fpMul f m x y) k d a b mask s
def execVdfma (k : CoreId) (d a b : BitVec 5) (mask : BitVec 3) (s : State) : Res :=
  vFp 0x63 3 4 true true (fun f m x y z => fpFma f m x y z) k d a b mask s
def execVdquant (k : CoreId) (d a b : BitVec 5) (mask : BitVec 3) (s : State) : Res :=
  vFp 0x64 3 4 true false (fun f m x y _ => fpQuantize f m x y) k d a b mask s

/-- A relation of two elements in the format of the element size. -/
def vFpRel (dec lt : Bool) (c : CoreState) (_ : Nat) (x y : Nat) : Bool × Flags8 :=
  let f := if dec then decOf c.sew else binOf c.sew
  if lt then fpRel f true (decide <| · < 0) (f.decode x) (f.decode y) else fpRel f false (· == 0) (f.decode x) (f.decode y)

def execVfcmpeq (k : CoreId) (d a b : BitVec 5) (mask : BitVec 3) (s : State) : Res := vRel 0x46 1 3 (vFpRel false false) k d a b mask s
def execVfcmplt (k : CoreId) (d a b : BitVec 5) (mask : BitVec 3) (s : State) : Res := vRel 0x47 1 3 (vFpRel false true) k d a b mask s
def execVdcmpeq (k : CoreId) (d a b : BitVec 5) (mask : BitVec 3) (s : State) : Res := vRel 0x65 3 4 (vFpRel true false) k d a b mask s
def execVdcmplt (k : CoreId) (d a b : BitVec 5) (mask : BitVec 3) (s : State) : Res := vRel 0x66 3 4 (vFpRel true true) k d a b mask s

/-- To a signed integer of n bits, as CVTI does for 64 (R146). -/
def fpCvtiN (n : Nat) (f : Fmt) (m : RMode) (x : FpVal) : Nat × Flags8 :=
  let big (neg : Bool) : Nat × Flags8 := (if neg then 2 ^ (n - 1) else 2 ^ (n - 1) - 1, fNV)
  match x with
  | .nan .. => (2 ^ (n - 1), fNV)
  | .inf neg => big neg
  | .fin neg c e =>
    if c ≠ 0 ∧ e + f.digits c > n + 6 then big neg
    else
      let (q, nx) := toIntMag f m neg c e
      if (!neg && q ≥ 2 ^ (n - 1)) || (neg && q > 2 ^ (n - 1)) then big neg
      else (if neg then 2 ^ n - q else q, flagIf nx fNX)

/-- vd[i] from va[i] alone, by a function of the element's bits. -/
def vUn (f7 lo hi : Nat) (g : CoreState → (e : Nat) → Nat → Nat × Flags8) (k : CoreId) (d a : BitVec 5) (mask : BitVec 3) (s : State) :
    Res :=
  vInstr k (mkInsn (encVR f7 d.toNat a.toNat 0 mask.toNat) [vN a, mkN mask] [vN d]) (sewIn lo hi) (fun c =>
    let e := c.vE
    let r (i : Nat) := g c e (elemAt e (c.vR a.toNat) i)
    ([(.v d.toNat, .vec (c.vMerge mask e c.vN d.toNat fun i => (r i).1))], c.vFlags mask c.vN fun i => (r i).2)) s

/-- A signed integer of the element's width in format f. -/
def vFromInt (f : Fmt) (m : RMode) (e x : Nat) : Nat × Flags8 :=
  let v := vsgn e x
  let r := roundTo f m (decide (v < 0)) v.natAbs 0 false 0
  (f.encode r.v, r.fl)

def execVfcvti (k : CoreId) (d a : BitVec 5) (mask : BitVec 3) (s : State) : Res :=
  vUn 0x4C 2 3 (fun c e x => fpCvtiN (8 * e) (binOf c.sew) c.brm ((binOf c.sew).decode x)) k d a mask s
def execVfcvtfi (k : CoreId) (d a : BitVec 5) (mask : BitVec 3) (s : State) : Res :=
  vUn 0x4D 2 3 (fun c e x => vFromInt (binOf c.sew) c.brm e x) k d a mask s
def execVdfromi (k : CoreId) (d a : BitVec 5) (mask : BitVec 3) (s : State) : Res :=
  vUn 0x67 3 4 (fun c e x => vFromInt (decOf c.sew) c.drm e x) k d a mask s
def execVmv (k : CoreId) (d a : BitVec 5) (mask : BitVec 3) (s : State) : Res := vUn 0x14 0 4 (fun _ _ x => (x, 0)) k d a mask s

/-! Moves between register files and slides (R163–R165) -/

/-- The second register of a g pair, with element size code 4 only. -/
def gPair4 (n : BitVec 5) (c : CoreState) : Dst := if c.sew = 4 then gN1 n c else .none
/-- R162: a g-pair field that is odd or zero is illegal. -/
def pairOk4 (n : BitVec 5) (c : CoreState) : Bool := c.sew != 4 || (n.toNat % 2 == 0 && n.toNat != 0)

/-- DEDUCED, log entry 29. -/
def execVsplat (k : CoreId) (d a : BitVec 5) (mask : BitVec 3) (s : State) : Res :=
  vInstr k (mkInsn (encVR 0x11 d.toNat a.toNat 0 mask.toNat) [gN a, gPair4 a, mkN mask] [vN d])
    (fun c => sewIn 0 4 c && pairOk4 a c) (fun c =>
      let x := if c.sew = 4 then (c.gR a.toNat).toNat + 2 ^ 64 * (c.gR (a.toNat + 1)).toNat else (c.gR a.toNat).toNat
      ([(.v d.toNat, .vec (c.vMerge mask c.vE c.vN d.toNat fun _ => x))], 0)) s

/-- DEDUCED, log entry 29. -/
def execVins (k : CoreId) (d a b : BitVec 5) (mask : BitVec 3) (s : State) : Res :=
  vInstr k (mkInsn (encVR 0x12 d.toNat a.toNat b.toNat mask.toNat) [gN a, gN b, mkN mask] [vN d]) (sewIn 0 3) (fun c =>
    let i := (c.gR b.toNat).toNat
    let old := (c.read (.v d.toNat)).vecOf
    let one := c.vMerge mask c.vE c.vN d.toNat fun _ => (c.gR a.toNat).toNat
    ([(.v d.toNat, .vec (if i < c.vN then elemPut c.vE old i (elemAt c.vE one i) else old))], 0)) s

def execVext (k : CoreId) (d a b : BitVec 5) (s : State) : Res :=
  vInstr k (mkInsn (encVR 0x13 d.toNat a.toNat b.toNat 0) [vN a, gN b] [gN d, gPair4 d]) (fun c => sewIn 0 4 c && pairOk4 d c) (fun c =>
    let i := (c.gR b.toNat).toNat
    let x := if i < c.vN then elemAt c.vE (c.vR a.toNat) i else 0
    (if c.sew = 4 then pairWrites c d x else [(c.gDst d.toNat, .w (sext64 (8 * c.vE) x))], 0)) s

def execVsldn (k : CoreId) (d a b : BitVec 5) (mask : BitVec 3) (s : State) : Res :=
  vInstr k (mkInsn (encVR 0x15 d.toNat a.toNat b.toNat mask.toNat) [vN a, gN b, mkN mask] [vN d]) (sewIn 0 4) (fun c =>
    let o := (c.gR b.toNat).toNat
    ([(.v d.toNat, .vec (c.vMerge mask c.vE c.vN d.toNat fun i => if i + o < c.vN then elemAt c.vE (c.vR a.toNat) (i + o) else 0))], 0)) s

def execVslup (k : CoreId) (d a b : BitVec 5) (mask : BitVec 3) (s : State) : Res :=
  vInstr k (mkInsn (encVR 0x16 d.toNat a.toNat b.toNat mask.toNat) [vN a, gN b, mkN mask] [vN d]) (sewIn 0 4) (fun c =>
    let o := (c.gR b.toNat).toNat
    let old := (c.read (.v d.toNat)).vecOf
    ([(.v d.toNat, .vec (c.vMerge mask c.vE c.vN d.toNat fun i =>
      if o ≤ i then elemAt c.vE (c.vR a.toNat) (i - o) else elemAt c.vE old i))], 0)) s

/-- vsetvl() of R165. -/
def execVsetvl (k : CoreId) (d a sew : BitVec 5) (md : BitVec 3) (s : State) : Res :=
  coreInstr k (mkInsn (encVR 0x10 d.toNat a.toNat sew.toNat md.toNat) [gN a] [gN d, mN md.toNat]) (do
    if sew.toNat > 4 then illegal
    else
      vtouch k
      onCore k fun c =>
        let e := 2 ^ sew.toNat
        let n := min (c.gR a.toNat).toNat (512 / e)
        let c' := (c.csSetF R.CS_VCTL F.CS_VCTL_SEW sew.toNat).csSetF R.CS_VL F.CS_VL_VL (max 16 (16 * ((n * e + 15) / 16)))
        (c'.setM md.toNat (BitVec.ofNat 512 (2 ^ n - 1))).setG d.toNat (BitVec.ofNat 64 n)) s

/-- VRELEASE (R183); what is on its way to the registers it zeroes arrives first. DEDUCED, log entry 32. -/
def execVrelease (k : CoreId) (s : State) : Res :=
  coreInstr k (mkInsn (encVR 0x17 0 0 0 0) [] []) (do
    modC k CoreState.longsDone
    modS fun s => s.returnAll k
    onCore k CoreState.vRelease) s

/-! Mask instructions (R163) -/

def mTri (f7 : Nat) (g : BitVec 512 → BitVec 512 → BitVec 512) (k : CoreId) (d a b : BitVec 5) (s : State) : Res :=
  vInstr k (mkInsn (encVR f7 d.toNat a.toNat b.toNat 0) [mF a, mF b] [mF d])
    (fun _ => d.toNat < 8 && a.toNat < 8 && b.toNat < 8)
    (fun c => ([(.m d.toNat, .mask (g (c.mR a.toNat) (c.mR b.toNat)))], 0)) s

def execMand (k : CoreId) (d a b : BitVec 5) (s : State) : Res := mTri 0x70 (· &&& ·) k d a b s
def execMor (k : CoreId) (d a b : BitVec 5) (s : State) : Res := mTri 0x71 (· ||| ·) k d a b s
def execMxor (k : CoreId) (d a b : BitVec 5) (s : State) : Res := mTri 0x72 (· ^^^ ·) k d a b s
def execMandn (k : CoreId) (d a b : BitVec 5) (s : State) : Res := mTri 0x73 (fun x y => x &&& ~~~y) k d a b s

/-- A g result from a mask register. -/
def mGet (f7 : Nat) (g : (n : Nat) → BitVec 512 → Word) (k : CoreId) (d a : BitVec 5) (s : State) : Res :=
  vInstr k (mkInsn (encVR f7 d.toNat a.toNat 0 0) [mF a] [gN d]) (fun _ => a.toNat < 8)
    (fun c => ([(c.gDst d.toNat, .w (g c.vN (c.mR a.toNat)))], 0)) s

def execMpopc (k : CoreId) (d a : BitVec 5) (s : State) : Res :=
  mGet 0x74 (fun n m => BitVec.ofNat 64 ((List.range n).countP fun i => bitB m i)) k d a s
def execMfirst (k : CoreId) (d a : BitVec 5) (s : State) : Res :=
  mGet 0x75 (fun n m => match (List.range n).find? fun i => bitB m i with
    | some i => BitVec.ofNat 64 i
    | none => ~~~(0 : Word)) k d a s

def execMmvg (k : CoreId) (d a b : BitVec 5) (s : State) : Res :=
  vInstr k (mkInsn (encVR 0x76 d.toNat a.toNat b.toNat 0) [mF a, gN b] [gN d]) (fun _ => a.toNat < 8) (fun c =>
    let i := (c.gR b.toNat).toNat
    ([(c.gDst d.toNat, .w (if i ≤ 7 then (c.mR a.toNat).extractLsb' (64 * i) 64 else 0))], 0)) s

def execMmvm (k : CoreId) (d a b : BitVec 5) (s : State) : Res :=
  vInstr k (mkInsn (encVR 0x77 d.toNat a.toNat b.toNat 0) [gN a, gN b] [mF d]) (fun _ => d.toNat < 8) (fun c =>
    let i := (c.gR b.toNat).toNat
    let old := (c.read (.m d.toNat)).maskOf
    ([(.m d.toNat, .mask (if i ≤ 7 then setF old ⟨64 * i + 63, 64 * i⟩ (c.gR a.toNat).toNat else old))], 0)) s

/-! Memory access (R168–R173) -/

/-- The forms of CS_VFIDX. -/
inductive VForm where
  | unit | strided | indexed | mask
  deriving DecidableEq, Repr

def VForm.code : VForm → Nat
  | .unit => 0 | .strided => 1 | .indexed => 2 | .mask => 3

/-- A trap of element i reported with CS_VFIDX and CS_VFADDR (R171). -/
def vTrapped {α : Type} (form : VForm) (store : Bool) (base : Coin) (i : Nat) (o : Int) (m : CM α) : CM α := fun s =>
  match m s with
  | .error (.trap t) s' =>
    let idx : Word := setF (setF (setF 0 F.CS_VFIDX_INDEX i) F.CS_VFIDX_FORM form.code) F.CS_VFIDX_STORE (b2n store)
    .error (.trap { t with cs := t.cs ++ [(R.CS_VFIDX, idx), (R.CS_VFADDR, ofInt 64 (checkAddr base o))] }) s'
  | r => r

/-- The watchpoints of the elements (i, offset), in index order, ahead of the instruction's own traps (R451, R201).
DEDUCED, log entry 92. -/
def vWatch (k : CoreId) (form : VForm) (store : Bool) (base : Coin) (n : Nat) : List (Nat × Int) → CM Unit
  | [] => pure ()
  | (i, o) :: r => do
    vTrapped form store base i o (watch k base o n (!store) store)
    vWatch k form store base n r

/-- Both parts of an element read, in address order. -/
def readParts (k : CoreId) : List (Nat × Half) → Bool → CM (List Byte)
  | [], _ => pure []
  | (va, h) :: r, second => do
    let (bs, _) ← readNow k va h false (tiFlag F.CS_TINFO_HALF2 second)
    let rest ← readParts k r true
    pure (bs ++ rest)

/-- One element of a vector load checked and translated: kind 6, size n. Its parts with their virtual addresses. -/
def vCheckRead (k : CoreId) (form : VForm) (creg : Nat) (base : Coin) (i n : Nat) (o : Int) : CM (List (Nat × Half)) :=
  vTrapped form false base i o do
    let va ← coinCheck k creg base o n 6 none
    let c ← getC k
    let parts := splitVa va n
    let hs ← xlateAll k (xKind 6 (va % n != 0)) c.ring parts false
    pure ((parts.map (·.1)).zip hs)

/-- One element of a vector load: checked, then read. -/
def vLoadElem (k : CoreId) (form : VForm) (creg : Nat) (base : Coin) (i n : Nat) (o : Int) : CM (List Byte) := do
  modS fun s => s.orderBefore k false
  let ps ← vCheckRead k form creg base i n o
  vTrapped form false base i o (readParts k ps false)

/-- The physical addresses of an element have a target (R170). -/
def hasTarget (va : Nat) (pa : Nat) (second : Bool) : CM Unit := do
  let s ← getS
  let ok := match s.target pa with
    | .none => false
    | .window so _ => (s.portOf so).isSome
    | .bar a => (s.barGroup a).isSome
    | _ => true
  if ok then pure ()
  else trapM (busTrap (BitVec.ofNat 64 va) (tiFlag F.CS_TINFO_HALF2 second ||| tiFlag F.CS_TINFO_NOTARGET true))

/-- The pre-check of one element of a vector store: kind 7, size n. -/
def vCheckElem (k : CoreId) (form : VForm) (creg : Nat) (base : Coin) (i n : Nat) (o : Int) : CM (List Half) :=
  vTrapped form true base i o do
    let va ← coinCheck k creg base o n 7 none
    let c ← getC k
    let parts := splitVa va n
    let hs ← xlateAll k (xKind 7 (va % n != 0)) c.ring parts false
    let rec targets : List (Nat × Half) → Bool → CM Unit
      | [], _ => pure ()
      | (va, h) :: r, second => do
        hasTarget va h.pa second
        targets r true
    targets ((parts.map (·.1)).zip hs) false
    pure hs

/-- The elements i of a load checked and translated in index order, up to the first that traps (R89, R169). DEDUCED, log entry 31. -/
def vCheckReads (k : CoreId) (form : VForm) (creg : Nat) (base : Coin) (n : Nat) :
    List (Nat × Int) → CM (List (Nat × Int × List (Nat × Half)) × Option TrapRep)
  | [] => pure ([], none)
  | (i, o) :: r => fun s => match vCheckRead k form creg base i n o s with
    | .ok ps s' => (do
      let rest ← vCheckReads k form creg base n r
      pure ((i, o, ps) :: rest.1, rest.2)) s'
    | .error (.trap t) s' => .ok ([], some t) s'
    | .error e s' => .error e s'

/-- Checked elements read in index order. -/
def vReadAll (k : CoreId) (form : VForm) (base : Coin) : List (Nat × Int × List (Nat × Half)) → CM (List (Nat × List Byte))
  | [] => pure []
  | (i, o, ps) :: r => do
    let bs ← vTrapped form false base i o (readParts k ps false)
    let rest ← vReadAll k form base r
    pure ((i, bs) :: rest)

/-- The elements i of a load, each with its offset: checked before any is read; the fault of the lowest is raised, a bus error on reading
an earlier one before it (R169). DEDUCED, log entry 31. -/
def vLoadAll (k : CoreId) (form : VForm) (creg : Nat) (base : Coin) (n : Nat) (es : List (Nat × Int)) : CM (List (Nat × List Byte)) := do
  modS fun s => s.orderBefore k false
  match ← vCheckReads k form creg base n es with
  | (xs, none) => vReadAll k form base xs
  | (xs, some t) => do
    let _ ← (fun s => match vReadAll k form base xs s with
      | .error .await s' => .error .stall s'
      | r => r)
    trapM t

/-- DEDUCED, log entry 31. -/
def vCheckAll (k : CoreId) (form : VForm) (creg : Nat) (base : Coin) (n : Nat) : List (Nat × Int) → CM (List (Nat × List Half))
  | [] => pure []
  | (i, o) :: r => do
    let hs ← vCheckElem k form creg base i n o
    let rest ← vCheckAll k form creg base n r
    pure ((i, hs) :: rest)

/-- The write pass: elements in index order enter the store buffer, so that of overlapping elements the higher remains.
DEDUCED, log entry 31. -/
def vWriteAll (k : CoreId) (val : Nat → List Byte) : List (Nat × List Half) → CM Unit
  | [] => pure ()
  | (i, hs) :: r => do
    bufferStore k hs .data (val i) false
    vWriteAll k val r

/-- The active elements with their offsets. -/
def CoreState.vElems (c : CoreState) (mask : BitVec 3) (off : Nat → Int) : List (Nat × Int) :=
  ((List.range c.vN).filter (c.vSel mask)).map fun i => (i, off i)

/-- A vector load (R169): vd is written when every active element has its data; `upd` moves the cursor by VL. -/
def vLoad (f7 lo : Nat) (form : VForm) (upd : Bool) (off : CoreState → Nat → Int) (srcs : List (CoreState → Dst)) (bf : Nat)
    (k : CoreId) (d cb : BitVec 5) (mask : BitVec 3) (s : State) : Res :=
  coreInstr k (mkInsn (encVR f7 d.toNat cb.toNat bf mask.toNat) ([cN cb, mkN mask] ++ srcs) (vN d :: if upd then [cN cb] else [])) (do
    needC cb
    let c ← getC k
    if !sewIn lo 4 c then illegal
    else
      let base := c.cR cb.toNat
      vWatch k form false base c.vE (c.vElems mask (off c))
      vtouch k
      let data ← vLoadAll k form cb.toNat base c.vE (c.vElems mask (off c))
      let get (i : Nat) : Nat := match data.find? (·.1 == i) with | some x => bytesNat x.2 | none => 0
      modC k fun c => c.setV d.toNat (c.vMerge mask c.vE c.vN d.toNat get)
      if upd then modC k fun x => x.setC cb.toNat (base.withCursor (base.cursor + BitVec.ofNat 64 c.vL))
      pure .seq) s

/-- A vector store (R170): pre-check, then the writes. -/
def vStore (f7 lo : Nat) (form : VForm) (upd : Bool) (off : CoreState → Nat → Int) (srcs : List (CoreState → Dst)) (bf : Nat)
    (k : CoreId) (d cb : BitVec 5) (mask : BitVec 3) (s : State) : Res :=
  coreInstr k (mkInsn (encVR f7 d.toNat cb.toNat bf mask.toNat) ([cN cb, mkN mask, vN d] ++ srcs) (if upd then [cN cb] else [])) (do
    needC cb
    let c ← getC k
    if !sewIn lo 4 c then illegal
    else
      let base := c.cR cb.toNat
      vWatch k form true base c.vE (c.vElems mask (off c))
      vtouch k
      let hs ← vCheckAll k form cb.toNat base c.vE (c.vElems mask (off c))
      let v := c.vR d.toNat
      vWriteAll k (fun i => natBytes c.vE (elemAt c.vE v i)) hs
      if upd then modC k fun x => x.setC cb.toNat (base.withCursor (base.cursor + BitVec.ofNat 64 c.vL))
      pure .seq) s

def offUnit (c : CoreState) (i : Nat) : Int := (i * c.vE : Nat)
def offStride (b : BitVec 5) (c : CoreState) (i : Nat) : Int := i * (c.gR b.toNat).toInt
/-- off(i): element i of vb signed; its bits [63:0] for SEW 4. -/
def offIndex (b : BitVec 5) (c : CoreState) (i : Nat) : Int := toSigned (8 * min c.vE 8) (elemAt c.vE (c.vR b.toNat) i)

def execVld (k : CoreId) (d cb : BitVec 5) (mask : BitVec 3) (s : State) : Res := vLoad 0x00 0 .unit false offUnit [] 0 k d cb mask s
def execVldp (k : CoreId) (d cb : BitVec 5) (mask : BitVec 3) (s : State) : Res := vLoad 0x01 0 .unit true offUnit [] 0 k d cb mask s
def execVlds (k : CoreId) (d cb b : BitVec 5) (mask : BitVec 3) (s : State) : Res :=
  vLoad 0x02 0 .strided false (offStride b) [gN b] b.toNat k d cb mask s
def execVldx (k : CoreId) (d cb b : BitVec 5) (mask : BitVec 3) (s : State) : Res :=
  vLoad 0x03 2 .indexed false (offIndex b) [vN b] b.toNat k d cb mask s
def execVst (k : CoreId) (d cb : BitVec 5) (mask : BitVec 3) (s : State) : Res := vStore 0x04 0 .unit false offUnit [] 0 k d cb mask s
def execVstp (k : CoreId) (d cb : BitVec 5) (mask : BitVec 3) (s : State) : Res := vStore 0x05 0 .unit true offUnit [] 0 k d cb mask s
def execVsts (k : CoreId) (d cb b : BitVec 5) (mask : BitVec 3) (s : State) : Res :=
  vStore 0x06 0 .strided false (offStride b) [gN b] b.toNat k d cb mask s
def execVstx (k : CoreId) (d cb b : BitVec 5) (mask : BitVec 3) (s : State) : Res :=
  vStore 0x07 2 .indexed false (offIndex b) [vN b] b.toNat k d cb mask s

def execVldm (k : CoreId) (d cb : BitVec 5) (s : State) : Res :=
  coreInstr k (mkInsn (encVR 0x08 d.toNat cb.toNat 0 0) [cN cb] [mF d]) (do
    needC cb
    if d.toNat ≥ 8 then illegal
    else
      let c ← getC k
      vWatch k .mask false (c.cR cb.toNat) 64 [(0, 0)]
      vtouch k
      let c ← getC k
      let bs ← vLoadElem k .mask cb.toNat (c.cR cb.toNat) 0 64 0
      onCore k fun c => c.setM d.toNat (BitVec.ofNat 512 (bytesNat bs))) s

def execVstm (k : CoreId) (d cb : BitVec 5) (s : State) : Res :=
  coreInstr k (mkInsn (encVR 0x09 d.toNat cb.toNat 0 0) [cN cb, mF d] []) (do
    needC cb
    if d.toNat ≥ 8 then illegal
    else
      let c ← getC k
      vWatch k .mask true (c.cR cb.toNat) 64 [(0, 0)]
      vtouch k
      let c ← getC k
      let hs ← vCheckElem k .mask cb.toNat (c.cR cb.toNat) 0 64 0
      bufferStore k hs .data (natBytes 64 (c.mR d.toNat).toNat) false
      pure .seq) s

end Sys2Proof.Machine
end

