-- ==== Sys2Proof/Machine/Dispatch.lean ====
section
/-!
DEFINITION. The dispatch of commands to their meanings, one arm per constructor.
-/
namespace Sys2Proof.Machine

def exec (i : Instr) (s : State) : Host.Outcome State Fault Refusal :=
  match i with
  | .registerWrite place v => Sys2Proof.Machine.execRegisterWrite place v s
  | .controlStoreAccept k idx => Sys2Proof.Machine.execControlStoreAccept k idx s
  | .pwrGoodRise => Sys2Proof.Machine.execPwrGoodRise s
  | .deviceResetExit failLow => Sys2Proof.Machine.execDeviceResetExit failLow s
  | .pwrGoodFall ns => Sys2Proof.Machine.execPwrGoodFall ns s
  | .supplyInvalid rail => Sys2Proof.Machine.execSupplyInvalid rail s
  | .pwrFail ns => Sys2Proof.Machine.execPwrFail ns s
  | .refclkLoss => Sys2Proof.Machine.execRefclkLoss s
  | .thermalRead temps => Sys2Proof.Machine.execThermalRead temps s
  | .thermtripAssert => Sys2Proof.Machine.execThermtripAssert s
  | .powerEvaluation pwr => Sys2Proof.Machine.execPowerEvaluation pwr s
  | .wakeLatchEdge latch rising => Sys2Proof.Machine.execWakeLatchEdge latch rising s
  | .timePpsEdge => Sys2Proof.Machine.execTimePpsEdge s
  | .ppsTimeout => Sys2Proof.Machine.execPpsTimeout s
  | .timeAdjWrite v => Sys2Proof.Machine.execTimeAdjWrite v s
  | .stageFlash answers octal size => Sys2Proof.Machine.execStageFlash answers octal size s
  | .stageVerify => Sys2Proof.Machine.execStageVerify s
  | .stageApply trimsOk => Sys2Proof.Machine.execStageApply trimsOk s
  | .stageMemtrain found => Sys2Proof.Machine.execStageMemtrain found s
  | .stageTagclear => Sys2Proof.Machine.execStageTagclear s
  | .stageLanes ends => Sys2Proof.Machine.execStageLanes s ends
  | .stageBootspan => Sys2Proof.Machine.execStageBootspan s
  | .stageEft => Sys2Proof.Machine.execStageEft s
  | .stageRelease => Sys2Proof.Machine.execStageRelease s
  | .imgApplyGo v => Sys2Proof.Machine.execImgApplyGo v s
  | .flashErase v => Sys2Proof.Machine.execFlashErase v s
  | .flashProgram v => Sys2Proof.Machine.execFlashProgram v s
  | .flashCommandDone ok => Sys2Proof.Machine.execFlashCommandDone ok s
  | .eftWatchdogExpiry => Sys2Proof.Machine.execEftWatchdogExpiry s
  | .eftKick => Sys2Proof.Machine.execEftKick s
  | .eftSwap => Sys2Proof.Machine.execEftSwap s
  | .pldmDiscovery => Sys2Proof.Machine.execPldmDiscovery s
  | .pldmPlatform sensor => Sys2Proof.Machine.execPldmPlatform sensor s
  | .pldmFru => Sys2Proof.Machine.execPldmFru s
  | .pldmFirmwareUpdate slot image => Sys2Proof.Machine.execPldmFirmwareUpdate slot image s
  | .modeReqBrumation chg => Sys2Proof.Machine.execModeReqBrumation chg s
  | .modeReqDiagnostic => Sys2Proof.Machine.execModeReqDiagnostic s
  | .modeReqLeave => Sys2Proof.Machine.execModeReqLeave s
  | .brumationQuiesced => Sys2Proof.Machine.execBrumationQuiesced s
  | .brumationQuiesceTimeout => Sys2Proof.Machine.execBrumationQuiesceTimeout s
  | .brumationChangeComplete => Sys2Proof.Machine.execBrumationChangeComplete s
  | .brumationTimeout => Sys2Proof.Machine.execBrumationTimeout s
  | .unitFence u => Sys2Proof.Machine.execUnitFence u s
  | .unitUnfence u => Sys2Proof.Machine.execUnitUnfence u s
  | .unitOffline u => Sys2Proof.Machine.execUnitOffline u s
  | .unitOnline u => Sys2Proof.Machine.execUnitOnline u s
  | .unitRetire u => Sys2Proof.Machine.execUnitRetire u s
  | .unitHandover u arg => Sys2Proof.Machine.execUnitHandover u arg s
  | .unitRecal u => Sys2Proof.Machine.execUnitRecal u s
  | .unitOpComplete u found => Sys2Proof.Machine.execUnitOpComplete u s found
  | .handoverMapAck n => Sys2Proof.Machine.execHandoverMapAck n s
  | .mgmtClkWrite n v => Sys2Proof.Machine.execMgmtClkWrite n v s
  | .clusterClockStop n => Sys2Proof.Machine.execClusterClockStop n s
  | .clusterClockRestart n => Sys2Proof.Machine.execClusterClockRestart n s
  | .errorDetect unit det sev injected addr syndrome detail => Sys2Proof.Machine.execErrorDetect unit det sev injected addr syndrome detail s
  | .errinjOneshot unit det severe => Sys2Proof.Machine.execErrinjOneshot unit det severe s
  | .errinjPeriodic unit det severe => Sys2Proof.Machine.execErrinjPeriodic unit det severe s
  | .errinjPeriodExpiry unit det => Sys2Proof.Machine.execErrinjPeriodExpiry unit det s
  | .telCounterWrap unit n => Sys2Proof.Machine.execTelCounterWrap unit n s
  | .snapshotArm v => Sys2Proof.Machine.execSnapshotArm v s
  | .snapshotLatch => Sys2Proof.Machine.execSnapshotLatch s
  | .dbgUnlockGo v => Sys2Proof.Machine.execDbgUnlockGo v s
  | .dbgLock => Sys2Proof.Machine.execDbgLock s
  | .dbgMemoryAccess v => Sys2Proof.Machine.execDbgMemoryAccess v s
  | .dbgHalt k => Sys2Proof.Machine.execDbgHalt k s
  | .dbgResume k => Sys2Proof.Machine.execDbgResume k s
  | .dbgStep k => Sys2Proof.Machine.execDbgStep k s
  | .dbgRegisterAccess v => Sys2Proof.Machine.execDbgRegisterAccess v s
  | .traceEnable v => Sys2Proof.Machine.execTraceEnable v s
  | .tapControlAccess write key len v => Sys2Proof.Machine.execTapControlAccess write key len v s
  | .tapExtest drive lands insn => Sys2Proof.Machine.execTapExtest drive lands s insn
  | .purseWrite a bytes => Sys2Proof.Machine.execPurseWrite a bytes s
  | .purseInvalidate id n => Sys2Proof.Machine.execPurseInvalidate id n s
  | .purseInvalAck id n => Sys2Proof.Machine.execPurseInvalAck id n s
  | .freeListPop k => Sys2Proof.Machine.execFreeListPop k s
  | .freeListPush h idx => Sys2Proof.Machine.execFreeListPush h idx s
  | .recallArrive k => Sys2Proof.Machine.execRecallArrive k s
  | .fenceMarker id agent => Sys2Proof.Machine.execFenceMarker id agent s
  | .fenceAck id agent => Sys2Proof.Machine.execFenceAck id agent s
  | .sweepAdd v => Sys2Proof.Machine.execSweepAdd v s
  | .sweepGo v => Sys2Proof.Machine.execSweepGo v s
  | .sweepClear => Sys2Proof.Machine.execSweepClear s
  | .tagEngineScanDone engine => Sys2Proof.Machine.execTagEngineScanDone engine s
  | .ldc k c cb disp => Sys2Proof.Machine.execLdc k c cb disp s
  | .stc k c cb disp => Sys2Proof.Machine.execStc k c cb disp s
  | .cmov k d a => Sys2Proof.Machine.execCmov k d a s
  | .clip k d a b => Sys2Proof.Machine.execClip k d a b s
  | .csetc k d a b => Sys2Proof.Machine.execCsetc k d a b s
  | .cadd k d a b => Sys2Proof.Machine.execCadd k d a b s
  | .cget k d a sel => Sys2Proof.Machine.execCget k d a sel s
  | .ceq k d a b => Sys2Proof.Machine.execCeq k d a b s
  | .cprobe k d a b => Sys2Proof.Machine.execCprobe k d a b s
  | .cclrt k d a => Sys2Proof.Machine.execCclrt k d a s
  | .cpack k d a b => Sys2Proof.Machine.execCpack k d a b s
  | .caddi k d a imm => Sys2Proof.Machine.execCaddi k d a imm s
  | .clipi k d a imm => Sys2Proof.Machine.execClipi k d a imm s
  | .mint k d a b => Sys2Proof.Machine.execMint k d a b s
  | .recall k d a b => Sys2Proof.Machine.execRecall k d a b s
  | .recallf k d a b => Sys2Proof.Machine.execRecallf k d a b s
  | .recalli k d a => Sys2Proof.Machine.execRecalli k d a s
  | .recallif k d a => Sys2Proof.Machine.execRecallif k d a s
  | .ld k r cb size disp => Sys2Proof.Machine.execLd k r cb size disp s
  | .st k r cb size disp => Sys2Proof.Machine.execSt k r cb size disp s
  | .ldf k r cb size disp => Sys2Proof.Machine.execLdf k r cb size disp s
  | .stf k r cb size disp => Sys2Proof.Machine.execStf k r cb size disp s
  | .lx k r cb gx size mode file order => Sys2Proof.Machine.execLx k r cb gx size mode file order s
  | .sx k r cb gx size mode file order => Sys2Proof.Machine.execSx k r cb gx size mode file order s
  | .swp k d cb gs w order => Sys2Proof.Machine.execSwp k d cb gs w order s
  | .cas k d cb gs w order => Sys2Proof.Machine.execCas k d cb gs w order s
  | .fadd k d cb gs w order => Sys2Proof.Machine.execFadd k d cb gs w order s
  | .fand k d cb gs w order => Sys2Proof.Machine.execFand k d cb gs w order s
  | .fOr k d cb gs w order => Sys2Proof.Machine.execFOr k d cb gs w order s
  | .fxor k d cb gs w order => Sys2Proof.Machine.execFxor k d cb gs w order s
  | .fmax k d cb gs w order => Sys2Proof.Machine.execFmax k d cb gs w order s
  | .fmin k d cb gs w order => Sys2Proof.Machine.execFmin k d cb gs w order s
  | .loadDataReturn k idx => Sys2Proof.Machine.execLoadDataReturn k idx s
  | .longOpComplete k idx => Sys2Proof.Machine.execLongOpComplete k idx s
  | .storeBufferDrain k idx => Sys2Proof.Machine.execStoreBufferDrain k idx s
  | .writeNotice k => Sys2Proof.Machine.execWriteNotice k s
  | .pteMark ea write => Sys2Proof.Machine.execPteMark ea write s
  | .add k d a b => Sys2Proof.Machine.execAdd k d a b s
  | .sub k d a b => Sys2Proof.Machine.execSub k d a b s
  | .andI k d a b => Sys2Proof.Machine.execAndI k d a b s
  | .orI k d a b => Sys2Proof.Machine.execOrI k d a b s
  | .xorI k d a b => Sys2Proof.Machine.execXorI k d a b s
  | .andn k d a b => Sys2Proof.Machine.execAndn k d a b s
  | .shl k d a b => Sys2Proof.Machine.execShl k d a b s
  | .shr k d a b => Sys2Proof.Machine.execShr k d a b s
  | .sar k d a b => Sys2Proof.Machine.execSar k d a b s
  | .rol k d a b => Sys2Proof.Machine.execRol k d a b s
  | .ror k d a b => Sys2Proof.Machine.execRor k d a b s
  | .seq k d a b => Sys2Proof.Machine.execSeq k d a b s
  | .sne k d a b => Sys2Proof.Machine.execSne k d a b s
  | .slt k d a b => Sys2Proof.Machine.execSlt k d a b s
  | .sltu k d a b => Sys2Proof.Machine.execSltu k d a b s
  | .sge k d a b => Sys2Proof.Machine.execSge k d a b s
  | .sgeu k d a b => Sys2Proof.Machine.execSgeu k d a b s
  | .movz k d a b => Sys2Proof.Machine.execMovz k d a b s
  | .movnz k d a b => Sys2Proof.Machine.execMovnz k d a b s
  | .clz k d a b => Sys2Proof.Machine.execClz k d a b s
  | .ctz k d a b => Sys2Proof.Machine.execCtz k d a b s
  | .popc k d a b => Sys2Proof.Machine.execPopc k d a b s
  | .addi k d a imm => Sys2Proof.Machine.execAddi k d a imm s
  | .andi k d a imm => Sys2Proof.Machine.execAndi k d a imm s
  | .ori k d a imm => Sys2Proof.Machine.execOri k d a imm s
  | .xori k d a imm => Sys2Proof.Machine.execXori k d a imm s
  | .slti k d a imm => Sys2Proof.Machine.execSlti k d a imm s
  | .sltiu k d a imm => Sys2Proof.Machine.execSltiu k d a imm s
  | .shli k d a sh => Sys2Proof.Machine.execShli k d a sh s
  | .shri k d a sh => Sys2Proof.Machine.execShri k d a sh s
  | .sari k d a sh => Sys2Proof.Machine.execSari k d a sh s
  | .rori k d a sh => Sys2Proof.Machine.execRori k d a sh s
  | .seqi k d a imm => Sys2Proof.Machine.execSeqi k d a imm s
  | .lui k d imm => Sys2Proof.Machine.execLui k d imm s
  | .pfx k imm => Sys2Proof.Machine.execPfx k imm s
  | .beq k a b disp => Sys2Proof.Machine.execBeq k a b disp s
  | .bne k a b disp => Sys2Proof.Machine.execBne k a b disp s
  | .blt k a b disp => Sys2Proof.Machine.execBlt k a b disp s
  | .bge k a b disp => Sys2Proof.Machine.execBge k a b disp s
  | .bltu k a b disp => Sys2Proof.Machine.execBltu k a b disp s
  | .bgeu k a b disp => Sys2Proof.Machine.execBgeu k a b disp s
  | .jmp k disp => Sys2Proof.Machine.execJmp k disp s
  | .call k disp => Sys2Proof.Machine.execCall k disp s
  | .jmpc k cb => Sys2Proof.Machine.execJmpc k cb s
  | .callc k cb => Sys2Proof.Machine.execCallc k cb s
  | .jmpr k a => Sys2Proof.Machine.execJmpr k a s
  | .callr k a => Sys2Proof.Machine.execCallr k a s
  | .ret k => Sys2Proof.Machine.execRet k s
  | .callg k cb => Sys2Proof.Machine.execCallg k cb s
  | .loopG k a len => Sys2Proof.Machine.execLoopG k a len s
  | .loopi k count len => Sys2Proof.Machine.execLoopi k count len s
  | .lexit k => Sys2Proof.Machine.execLexit k s
  | .mfs k d idx => Sys2Proof.Machine.execMfs k d idx s
  | .mts k idx a => Sys2Proof.Machine.execMts k idx a s
  | .mfsc k d idx => Sys2Proof.Machine.execMfsc k d idx s
  | .mtsc k idx a => Sys2Proof.Machine.execMtsc k idx a s
  | .nop k => Sys2Proof.Machine.execNop k s
  | .wait k => Sys2Proof.Machine.execWait k s
  | .tret k => Sys2Proof.Machine.execTret k s
  | .brk k => Sys2Proof.Machine.execBrk k s
  | .abar k => Sys2Proof.Machine.execAbar k s
  | .saveu k => Sys2Proof.Machine.execSaveu k s
  | .savel k => Sys2Proof.Machine.execSavel k s
  | .restu k => Sys2Proof.Machine.execRestu k s
  | .restl k => Sys2Proof.Machine.execRestl k s
  | .fenceLl k => Sys2Proof.Machine.execFenceLl k s
  | .fenceLs k => Sys2Proof.Machine.execFenceLs k s
  | .fenceSl k => Sys2Proof.Machine.execFenceSl k s
  | .fenceSs k => Sys2Proof.Machine.execFenceSs k s
  | .fenceAll k => Sys2Proof.Machine.execFenceAll k s
  | .pref k cb => Sys2Proof.Machine.execPref k cb s
  | .prefw k cb => Sys2Proof.Machine.execPrefw k cb s
  | .cclean k cb => Sys2Proof.Machine.execCclean k cb s
  | .cflush k cb => Sys2Proof.Machine.execCflush k cb s
  | .czero k cb => Sys2Proof.Machine.execCzero k cb s
  | .invtlbAll k => Sys2Proof.Machine.execInvtlbAll k s
  | .invtlbAsid k a => Sys2Proof.Machine.execInvtlbAsid k a s
  | .invtlbPage k a b => Sys2Proof.Machine.execInvtlbPage k a b s
  | .invtlbNg k => Sys2Proof.Machine.execInvtlbNg k s
  | .icsync k => Sys2Proof.Machine.execIcsync k s
  | .bmov k a b n esize desc upto => Sys2Proof.Machine.execBmov k a b n esize desc upto s
  | .bfill k a b n esize desc upto => Sys2Proof.Machine.execBfill k a b n esize desc upto s
  | .bcmp k a b n esize desc upto => Sys2Proof.Machine.execBcmp k a b n esize desc upto s
  | .bscan k a b n esize desc neg upto => Sys2Proof.Machine.execBscan k a b n esize desc neg upto s
  | .adc k d a b f3 => Sys2Proof.Machine.execAdc k d a b f3 s
  | .sbc k d a b f3 => Sys2Proof.Machine.execSbc k d a b f3 s
  | .mul k d a b => Sys2Proof.Machine.execMul k d a b s
  | .mulw k d a b => Sys2Proof.Machine.execMulw k d a b s
  | .mulwu k d a b => Sys2Proof.Machine.execMulwu k d a b s
  | .div k d a b => Sys2Proof.Machine.execDiv k d a b s
  | .divu k d a b => Sys2Proof.Machine.execDivu k d a b s
  | .rem k d a b => Sys2Proof.Machine.execRem k d a b s
  | .remu k d a b => Sys2Proof.Machine.execRemu k d a b s
  | .daddu k d a b f3 => Sys2Proof.Machine.execDaddu k d a b f3 s
  | .dsubu k d a b f3 => Sys2Proof.Machine.execDsubu k d a b f3 s
  | .dadd k d a b => Sys2Proof.Machine.execDadd k d a b s
  | .dsub k d a b => Sys2Proof.Machine.execDsub k d a b s
  | .daddq k d a b => Sys2Proof.Machine.execDaddq k d a b s
  | .dsubq k d a b => Sys2Proof.Machine.execDsubq k d a b s
  | .dadj k d a b f3 => Sys2Proof.Machine.execDadj k d a b f3 s
  | .dmulw k d a b f3 => Sys2Proof.Machine.execDmulw k d a b f3 s
  | .dshl k d a b f3 => Sys2Proof.Machine.execDshl k d a b f3 s
  | .dshr k d a b f3 => Sys2Proof.Machine.execDshr k d a b f3 s
  | .dcmp k d a b f3 => Sys2Proof.Machine.execDcmp k d a b f3 s
  | .dcmpq k d a b f3 => Sys2Proof.Machine.execDcmpq k d a b f3 s
  | .dpack k d a b => Sys2Proof.Machine.execDpack k d a b s
  | .dunpk k d a b => Sys2Proof.Machine.execDunpk k d a b s
  | .dcvtb k d a f3 => Sys2Proof.Machine.execDcvtb k d a f3 s
  | .dcvtd k d a f3 => Sys2Proof.Machine.execDcvtd k d a f3 s
  | .dchk k d a f3 => Sys2Proof.Machine.execDchk k d a f3 s
  | .fpAdd k dec fmt d a b f3 => Sys2Proof.Machine.execFpAdd k dec fmt d a b f3 s
  | .fpSub k dec fmt d a b f3 => Sys2Proof.Machine.execFpSub k dec fmt d a b f3 s
  | .fpMul k dec fmt d a b f3 => Sys2Proof.Machine.execFpMul k dec fmt d a b f3 s
  | .fpDiv k dec fmt d a b f3 => Sys2Proof.Machine.execFpDiv k dec fmt d a b f3 s
  | .fpSqrt k dec fmt d a f3 => Sys2Proof.Machine.execFpSqrt k dec fmt d a f3 s
  | .fpMin k dec fmt d a b => Sys2Proof.Machine.execFpMin k dec fmt d a b s
  | .fpMax k dec fmt d a b => Sys2Proof.Machine.execFpMax k dec fmt d a b s
  | .fpCeq k dec fmt d a b => Sys2Proof.Machine.execFpCeq k dec fmt d a b s
  | .fpClt k dec fmt d a b => Sys2Proof.Machine.execFpClt k dec fmt d a b s
  | .fpCle k dec fmt d a b => Sys2Proof.Machine.execFpCle k dec fmt d a b s
  | .fpCun k dec fmt d a b => Sys2Proof.Machine.execFpCun k dec fmt d a b s
  | .fpClass k dec fmt d a => Sys2Proof.Machine.execFpClass k dec fmt d a s
  | .fpCvtw k dec fmt d a f3 => Sys2Proof.Machine.execFpCvtw k dec fmt d a f3 s
  | .fpCvtx k dec fmt d a sel f3 => Sys2Proof.Machine.execFpCvtx k dec fmt d a sel f3 s
  | .fpCvti k dec fmt d a f3 => Sys2Proof.Machine.execFpCvti k dec fmt d a f3 s
  | .fpCvtfi k dec fmt d a f3 => Sys2Proof.Machine.execFpCvtfi k dec fmt d a f3 s
  | .fpRint k dec fmt d a f3 => Sys2Proof.Machine.execFpRint k dec fmt d a f3 s
  | .fpQuantize k fmt d a b f3 => Sys2Proof.Machine.execFpQuantize k fmt d a b f3 s
  | .fpSameq k fmt d a b => Sys2Proof.Machine.execFpSameq k fmt d a b s
  | .fpSgn k dec fmt d a b f3 => Sys2Proof.Machine.execFpSgn k dec fmt d a b f3 s
  | .fpMvg k dec fmt d a => Sys2Proof.Machine.execFpMvg k dec fmt d a s
  | .fpMvf k dec fmt d a => Sys2Proof.Machine.execFpMvf k dec fmt d a s
  | .fpTopack k fmt d a b f3 => Sys2Proof.Machine.execFpTopack k fmt d a b f3 s
  | .fpFrompack k fmt d a b f3 => Sys2Proof.Machine.execFpFrompack k fmt d a b f3 s
  | .fmadd k fmt d a b f3 => Sys2Proof.Machine.execFmadd k fmt d a b f3 s
  | .fmsub k fmt d a b f3 => Sys2Proof.Machine.execFmsub k fmt d a b f3 s
  | .fnmsub k fmt d a b f3 => Sys2Proof.Machine.execFnmsub k fmt d a b f3 s
  | .fnmadd k fmt d a b f3 => Sys2Proof.Machine.execFnmadd k fmt d a b f3 s
  | .vld k d cb mask => Sys2Proof.Machine.execVld k d cb mask s
  | .vldp k d cb mask => Sys2Proof.Machine.execVldp k d cb mask s
  | .vlds k d cb b mask => Sys2Proof.Machine.execVlds k d cb b mask s
  | .vldx k d cb b mask => Sys2Proof.Machine.execVldx k d cb b mask s
  | .vst k d cb mask => Sys2Proof.Machine.execVst k d cb mask s
  | .vstp k d cb mask => Sys2Proof.Machine.execVstp k d cb mask s
  | .vsts k d cb b mask => Sys2Proof.Machine.execVsts k d cb b mask s
  | .vstx k d cb b mask => Sys2Proof.Machine.execVstx k d cb b mask s
  | .vldm k d cb => Sys2Proof.Machine.execVldm k d cb s
  | .vstm k d cb => Sys2Proof.Machine.execVstm k d cb s
  | .vsetvl k d a sew md => Sys2Proof.Machine.execVsetvl k d a sew md s
  | .vsplat k d a mask => Sys2Proof.Machine.execVsplat k d a mask s
  | .vins k d a b mask => Sys2Proof.Machine.execVins k d a b mask s
  | .vext k d a b => Sys2Proof.Machine.execVext k d a b s
  | .vmv k d a mask => Sys2Proof.Machine.execVmv k d a mask s
  | .vsldn k d a b mask => Sys2Proof.Machine.execVsldn k d a b mask s
  | .vslup k d a b mask => Sys2Proof.Machine.execVslup k d a b mask s
  | .vrelease k => Sys2Proof.Machine.execVrelease k s
  | .vadd k d a b mask => Sys2Proof.Machine.execVadd k d a b mask s
  | .vsub k d a b mask => Sys2Proof.Machine.execVsub k d a b mask s
  | .vmul k d a b mask => Sys2Proof.Machine.execVmul k d a b mask s
  | .vmulwl k d a b mask => Sys2Proof.Machine.execVmulwl k d a b mask s
  | .vmulwh k d a b mask => Sys2Proof.Machine.execVmulwh k d a b mask s
  | .vmulwlu k d a b mask => Sys2Proof.Machine.execVmulwlu k d a b mask s
  | .vmulwhu k d a b mask => Sys2Proof.Machine.execVmulwhu k d a b mask s
  | .vdot4 k d a b mask => Sys2Proof.Machine.execVdot4 k d a b mask s
  | .vand k d a b mask => Sys2Proof.Machine.execVand k d a b mask s
  | .vor k d a b mask => Sys2Proof.Machine.execVor k d a b mask s
  | .vxor k d a b mask => Sys2Proof.Machine.execVxor k d a b mask s
  | .vshl k d a b mask => Sys2Proof.Machine.execVshl k d a b mask s
  | .vshr k d a b mask => Sys2Proof.Machine.execVshr k d a b mask s
  | .vsar k d a b mask => Sys2Proof.Machine.execVsar k d a b mask s
  | .vmin k d a b mask => Sys2Proof.Machine.execVmin k d a b mask s
  | .vmax k d a b mask => Sys2Proof.Machine.execVmax k d a b mask s
  | .vminu k d a b mask => Sys2Proof.Machine.execVminu k d a b mask s
  | .vmaxu k d a b mask => Sys2Proof.Machine.execVmaxu k d a b mask s
  | .vaddsat k d a b mask => Sys2Proof.Machine.execVaddsat k d a b mask s
  | .vcmpeq k d a b mask => Sys2Proof.Machine.execVcmpeq k d a b mask s
  | .vcmplt k d a b mask => Sys2Proof.Machine.execVcmplt k d a b mask s
  | .vcmpltu k d a b mask => Sys2Proof.Machine.execVcmpltu k d a b mask s
  | .vredadd k d a b mask => Sys2Proof.Machine.execVredadd k d a b mask s
  | .vredmax k d a b mask => Sys2Proof.Machine.execVredmax k d a b mask s
  | .vfadd k d a b mask => Sys2Proof.Machine.execVfadd k d a b mask s
  | .vfsub k d a b mask => Sys2Proof.Machine.execVfsub k d a b mask s
  | .vfmul k d a b mask => Sys2Proof.Machine.execVfmul k d a b mask s
  | .vfmadd k d a b mask => Sys2Proof.Machine.execVfmadd k d a b mask s
  | .vfmin k d a b mask => Sys2Proof.Machine.execVfmin k d a b mask s
  | .vfmax k d a b mask => Sys2Proof.Machine.execVfmax k d a b mask s
  | .vfcmpeq k d a b mask => Sys2Proof.Machine.execVfcmpeq k d a b mask s
  | .vfcmplt k d a b mask => Sys2Proof.Machine.execVfcmplt k d a b mask s
  | .vdot2h k d a b mask => Sys2Proof.Machine.execVdot2h k d a b mask s
  | .vfwiden k d a h mask => Sys2Proof.Machine.execVfwiden k d a h mask s
  | .vfcvti k d a mask => Sys2Proof.Machine.execVfcvti k d a mask s
  | .vfcvtfi k d a mask => Sys2Proof.Machine.execVfcvtfi k d a mask s
  | .vdadd k d a b mask => Sys2Proof.Machine.execVdadd k d a b mask s
  | .vdsub k d a b mask => Sys2Proof.Machine.execVdsub k d a b mask s
  | .vdmul k d a b mask => Sys2Proof.Machine.execVdmul k d a b mask s
  | .vdfma k d a b mask => Sys2Proof.Machine.execVdfma k d a b mask s
  | .vdquant k d a b mask => Sys2Proof.Machine.execVdquant k d a b mask s
  | .vdcmpeq k d a b mask => Sys2Proof.Machine.execVdcmpeq k d a b mask s
  | .vdcmplt k d a b mask => Sys2Proof.Machine.execVdcmplt k d a b mask s
  | .vdfromi k d a mask => Sys2Proof.Machine.execVdfromi k d a mask s
  | .mand k d a b => Sys2Proof.Machine.execMand k d a b s
  | .mor k d a b => Sys2Proof.Machine.execMor k d a b s
  | .mxor k d a b => Sys2Proof.Machine.execMxor k d a b s
  | .mandn k d a b => Sys2Proof.Machine.execMandn k d a b s
  | .mpopc k d a => Sys2Proof.Machine.execMpopc k d a s
  | .mfirst k d a => Sys2Proof.Machine.execMfirst k d a s
  | .mmvg k d a b => Sys2Proof.Machine.execMmvg k d a b s
  | .mmvm k d a b => Sys2Proof.Machine.execMmvm k d a b s
  | .trapEntry k word => Sys2Proof.Machine.execTrapEntry k s word
  | .dbhRing v => Sys2Proof.Machine.execDbhRing v s
  | .dbhTickFire x => Sys2Proof.Machine.execDbhTickFire x s
  | .dbhPend v => Sys2Proof.Machine.execDbhPend v s
  | .dbhUnpend v => Sys2Proof.Machine.execDbhUnpend v s
  | .dbhPpendWrite k v => Sys2Proof.Machine.execDbhPpendWrite k v s
  | .dbhIpi v => Sys2Proof.Machine.execDbhIpi v s
  | .dbhClaim k => Sys2Proof.Machine.execDbhClaim k s
  | .dbhClaimg k => Sys2Proof.Machine.execDbhClaimg k s
  | .dbhClaimn k => Sys2Proof.Machine.execDbhClaimn k s
  | .dbhPeek k => Sys2Proof.Machine.execDbhPeek k s
  | .dbhDone k v => Sys2Proof.Machine.execDbhDone k v s
  | .dbhSrcWrite x v => Sys2Proof.Machine.execDbhSrcWrite x v s
  | .dbhHoldWrite v => Sys2Proof.Machine.execDbhHoldWrite v s
  | .dbhTctlWrite k v => Sys2Proof.Machine.execDbhTctlWrite k v s
  | .dbhTimerFire k n => Sys2Proof.Machine.execDbhTimerFire k n s
  | .interruptLineChange k => Sys2Proof.Machine.execInterruptLineChange k s
  | .coherentRequest unit a excl => Sys2Proof.Machine.execCoherentRequest unit a excl s
  | .snoop cluster a => Sys2Proof.Machine.execSnoop cluster a s
  | .patrolScrubRead n a found last => Sys2Proof.Machine.execPatrolScrubRead n a found last s
  | .ddrInitPass n upto => Sys2Proof.Machine.execDdrInitPass n upto s
  | .partitionEnable n v => Sys2Proof.Machine.execPartitionEnable n v s
  | .partitionFillDone n => Sys2Proof.Machine.execPartitionFillDone n s
  | .partitionRelease n v => Sys2Proof.Machine.execPartitionRelease n v s
  | .partitionReleaseDone n => Sys2Proof.Machine.execPartitionReleaseDone n s
  | .cxlRegionEnable n region v => Sys2Proof.Machine.execCxlRegionEnable n region v s
  | .cxlRegionReady n region cap => Sys2Proof.Machine.execCxlRegionReady n region s cap
  | .cxlRegionDisable n region v => Sys2Proof.Machine.execCxlRegionDisable n region v s
  | .memCopyGo n v => Sys2Proof.Machine.execMemCopyGo n v s
  | .memCopyAbort n v => Sys2Proof.Machine.execMemCopyAbort n v s
  | .memCopyPageDone n => Sys2Proof.Machine.execMemCopyPageDone n s
  | .post k d a b f3 f7 => Sys2Proof.Machine.execPost k d a b f3 f7 s
  | .postReply k id => Sys2Proof.Machine.execPostReply k id s
  | .tlrSubmitWrite n v => Sys2Proof.Machine.execTlrSubmitWrite n v s
  | .submissionSlotIntake n ring => Sys2Proof.Machine.execSubmissionSlotIntake n ring s
  | .postingIntake id => Sys2Proof.Machine.execPostingIntake id s
  | .postingLeadArrival id => Sys2Proof.Machine.execPostingLeadArrival id s
  | .cellLockRequest id => Sys2Proof.Machine.execCellLockRequest id s
  | .cellLockGrant id => Sys2Proof.Machine.execCellLockGrant id s
  | .sequenceRequest id => Sys2Proof.Machine.execSequenceRequest id s
  | .postingNumberReceived id => Sys2Proof.Machine.execPostingNumberReceived id s
  | .cellCommit id pa => Sys2Proof.Machine.execCellCommit id pa s
  | .commitAck id pa => Sys2Proof.Machine.execCommitAck id pa s
  | .completionReserveRetry id => Sys2Proof.Machine.execCompletionReserveRetry id s
  | .durabilityWaitTimeout n => Sys2Proof.Machine.execDurabilityWaitTimeout n s
  | .seqNextWrite v => Sys2Proof.Machine.execSeqNextWrite v s
  | .seqCtlWrite v => Sys2Proof.Machine.execSeqCtlWrite v s
  | .tlrInvtlbWrite n v => Sys2Proof.Machine.execTlrInvtlbWrite n v s
  | .tlrSrcfgEnable n ring v => Sys2Proof.Machine.execTlrSrcfgEnable n ring v s
  | .journalWriteAccepted n ok => Sys2Proof.Machine.execJournalWriteAccepted n ok s
  | .persistenceFlushComplete group port ok => Sys2Proof.Machine.execPersistenceFlushComplete group port ok s
  | .journalLocalSet n v => Sys2Proof.Machine.execJournalLocalSet n v s
  | .journalMirrorSet n v => Sys2Proof.Machine.execJournalMirrorSet n v s
  | .journalLocalClear n v => Sys2Proof.Machine.execJournalLocalClear n v s
  | .journalMirrorClear n v => Sys2Proof.Machine.execJournalMirrorClear n v s
  | .jtailWrite n v => Sys2Proof.Machine.execJtailWrite n v s
  | .jmtailWrite n v => Sys2Proof.Machine.execJmtailWrite n v s
  | .jmbaseEnable n v => Sys2Proof.Machine.execJmbaseEnable n v s
  | .sealRecordWrite n => Sys2Proof.Machine.execSealRecordWrite n s
  | .drainComplete n => Sys2Proof.Machine.execDrainComplete n s
  | .lgpApply group => Sys2Proof.Machine.execLgpApply group s
  | .portTrained group port width rate flit => Sys2Proof.Machine.execPortTrained group port width rate flit s
  | .dmaRead group rid translated pasid addr len => Sys2Proof.Machine.execDmaRead group rid translated pasid addr len s
  | .dmaWrite group rid translated pasid addr bytes poison => Sys2Proof.Machine.execDmaWrite group rid translated pasid addr bytes poison s
  | .dmaAtomic group rid translated pasid addr op len gs gd => Sys2Proof.Machine.execDmaAtomic group rid translated pasid addr op len gs gd s
  | .atsTranslationRequest group rid pasid addr write => Sys2Proof.Machine.execAtsTranslationRequest group rid pasid addr write s
  | .pageRequest group port rid rd wr last prgi page => Sys2Proof.Machine.execPageRequest group port rid rd wr last prgi page s
  | .lgpPrgrWrite group v => Sys2Proof.Machine.execLgpPrgrWrite group v s
  | .lgpInvtlbWrite group v => Sys2Proof.Machine.execLgpInvtlbWrite group v s
  | .atsInvalidateTimeout group fn => Sys2Proof.Machine.execAtsInvalidateTimeout group fn s
  | .cxlMemTimeout a => Sys2Proof.Machine.execCxlMemTimeout a s
  | .guardBindWrite set k v => Sys2Proof.Machine.execGuardBindWrite set k v s
  | .guardEvict port => Sys2Proof.Machine.execGuardEvict port s
  | .peerCfgEnable port v => Sys2Proof.Machine.execPeerCfgEnable port v s
  | .flitReceive port bytes delay => Sys2Proof.Machine.execFlitReceive port bytes delay s
  | .nakReceive port ack => Sys2Proof.Machine.execNakReceive port ack s
  | .ackTimeout port => Sys2Proof.Machine.execAckTimeout port s
  | .retrainComplete port ok => Sys2Proof.Machine.execRetrainComplete port ok s
  | .downReceive port => Sys2Proof.Machine.execDownReceive port s
  | .identReceive port socket credits delay => Sys2Proof.Machine.execIdentReceive port socket credits delay s
  | .timeSyncRequest port => Sys2Proof.Machine.execTimeSyncRequest port s
  | .treqReceive port t1 => Sys2Proof.Machine.execTreqReceive port t1 s
  | .trspReceive port t2 t3 => Sys2Proof.Machine.execTrspReceive port t2 t3 s
  | .rds port tx src a => Sys2Proof.Machine.execRds port tx src a s
  | .rdx port tx src a => Sys2Proof.Machine.execRdx port tx src a s
  | .rdu port tx src arg a => Sys2Proof.Machine.execRdu port tx src arg a s
  | .wrl port tx src a data poison => Sys2Proof.Machine.execWrl port tx src a data poison s
  | .wrp port tx src arg a data poison => Sys2Proof.Machine.execWrp port tx src arg a data poison s
  | .wbk port tx src a data tags poison => Sys2Proof.Machine.execWbk port tx src a data tags poison s
  | .atm port tx src arg a data => Sys2Proof.Machine.execAtm port tx src arg a data s
  | .rdc port tx src a => Sys2Proof.Machine.execRdc port tx src a s
  | .wrc port tx src a data tags poison => Sys2Proof.Machine.execWrc port tx src a data tags poison s
  | .snpi port tx a => Sys2Proof.Machine.execSnpi port tx a s
  | .snps port tx a => Sys2Proof.Machine.execSnps port tx a s
  | .srsp port tx modified data tags poison => Sys2Proof.Machine.execSrsp port tx modified data tags poison s
  | .dat port tx data tags poison => Sys2Proof.Machine.execDat port tx data tags poison s
  | .cmp port tx arg => Sys2Proof.Machine.execCmp port tx arg s
  | .wnt port tx a => Sys2Proof.Machine.execWnt port tx a s
  | .lck port tx src a => Sys2Proof.Machine.execLck port tx src a s
  | .lgr port tx data poison => Sys2Proof.Machine.execLgr port tx data poison s
  | .cmt port tx src a data note => Sys2Proof.Machine.execCmt port tx src a data s note
  | .rel port tx src a => Sys2Proof.Machine.execRel port tx src a s
  | .cak port tx => Sys2Proof.Machine.execCak port tx s
  | .pfw port tx src arg v data tags => Sys2Proof.Machine.execPfw port tx src arg v data tags s
  | .prp port tx arg => Sys2Proof.Machine.execPrp port tx arg s
  | .jrc port tx src arg data => Sys2Proof.Machine.execJrc port tx src arg data s
  | .jak port tx v => Sys2Proof.Machine.execJak port tx v s
  | .ipi port arg => Sys2Proof.Machine.execIpi port arg s
  | .fnc port tx v => Sys2Proof.Machine.execFnc port tx v s
  | .fak port tx => Sys2Proof.Machine.execFak port tx s
  | .swl port tx arg data => Sys2Proof.Machine.execSwl port tx arg data s
  | .swr port tx arg => Sys2Proof.Machine.execSwr port tx arg s
  | .henter k cb => Sys2Proof.Machine.execHenter k cb s
  | .hexit k => Sys2Proof.Machine.execHexit k s
  | .k16Nop k => Sys2Proof.Machine.execK16Nop k s
  | .k16Svc k n => Sys2Proof.Machine.execK16Svc k n s
  | .k16In k n => Sys2Proof.Machine.execK16In k s n
  | .k16Out k n => Sys2Proof.Machine.execK16Out k s n
  | .k16Ei k n => Sys2Proof.Machine.execK16Ei k s n
  | .k16Di k n => Sys2Proof.Machine.execK16Di k s n
  | .k16Reti k n => Sys2Proof.Machine.execK16Reti k s n
  | .k16Halt k n => Sys2Proof.Machine.execK16Halt k s n
  | .k16Mov k d a => Sys2Proof.Machine.execK16Mov k d a s
  | .k16Add k d a => Sys2Proof.Machine.execK16Add k d a s
  | .k16Adc k d a => Sys2Proof.Machine.execK16Adc k d a s
  | .k16Sub k d a => Sys2Proof.Machine.execK16Sub k d a s
  | .k16Sbc k d a => Sys2Proof.Machine.execK16Sbc k d a s
  | .k16And k d a => Sys2Proof.Machine.execK16And k d a s
  | .k16Or k d a => Sys2Proof.Machine.execK16Or k d a s
  | .k16Xor k d a => Sys2Proof.Machine.execK16Xor k d a s
  | .k16Cmp k d a => Sys2Proof.Machine.execK16Cmp k d a s
  | .k16Tst k d a => Sys2Proof.Machine.execK16Tst k d a s
  | .k16Shl k d a => Sys2Proof.Machine.execK16Shl k d a s
  | .k16Shr k d a => Sys2Proof.Machine.execK16Shr k d a s
  | .k16Sar k d a => Sys2Proof.Machine.execK16Sar k d a s
  | .k16Dadc k d a => Sys2Proof.Machine.execK16Dadc k d a s
  | .k16Dsbc k d a => Sys2Proof.Machine.execK16Dsbc k d a s
  | .k16Mulu k d a => Sys2Proof.Machine.execK16Mulu k d a s
  | .k16Addi k d imm => Sys2Proof.Machine.execK16Addi k d imm s
  | .k16Movi k d imm => Sys2Proof.Machine.execK16Movi k d imm s
  | .k16Movhi k d imm => Sys2Proof.Machine.execK16Movhi k d imm s
  | .k16Cmpi k d imm => Sys2Proof.Machine.execK16Cmpi k d imm s
  | .k16Ld k d a disp => Sys2Proof.Machine.execK16Ld k d a disp s
  | .k16St k d a disp => Sys2Proof.Machine.execK16St k d a disp s
  | .k16Setdb k imm => Sys2Proof.Machine.execK16Setdb k imm s
  | .k16Setdbr k b => Sys2Proof.Machine.execK16Setdbr k b s
  | .k16Getdb k b => Sys2Proof.Machine.execK16Getdb k b s
  | .k16Jmpf k b => Sys2Proof.Machine.execK16Jmpf k b s
  | .k16Callf k b => Sys2Proof.Machine.execK16Callf k b s
  | .k16Bcc k cond disp => Sys2Proof.Machine.execK16Bcc k cond disp s
  | .k16Call k disp => Sys2Proof.Machine.execK16Call k disp s
  | .k16Jmp k disp => Sys2Proof.Machine.execK16Jmp k disp s
  | .k16Loop k a len => Sys2Proof.Machine.execK16Loop k a len s
  | .k16LdPostinc k d a => Sys2Proof.Machine.execK16LdPostinc k d a s
  | .k16StPostinc k d a => Sys2Proof.Machine.execK16StPostinc k d a s
  | .k16LdPredec k d a => Sys2Proof.Machine.execK16LdPredec k d a s
  | .k16StPredec k d a => Sys2Proof.Machine.execK16StPredec k d a s
  | .supplyValid rail => Sys2Proof.Machine.execSupplyValid rail s
  | .refclkReturn => Sys2Proof.Machine.execRefclkReturn s
  | .tapReset => Sys2Proof.Machine.execTapReset s
  | .cellLockRelease line id => Sys2Proof.Machine.execCellLockRelease line id s
  | .atsInvalidateCompletion group fn => Sys2Proof.Machine.execAtsInvalidateCompletion group fn s
  | .ptmRequest group port => Sys2Proof.Machine.execPtmRequest group port s
  | .mctpControlMessage eid => Sys2Proof.Machine.execMctpControlMessage eid s
  | .cxlMemResponse a poison => Sys2Proof.Machine.execCxlMemResponse a poison s
  | .dramRefresh n => Sys2Proof.Machine.execDramRefresh n s

end Sys2Proof.Machine
end

