-- ==== Sys2Proof/Machine/Tick.lean ====
section
/-!
DEFINITION. One clock of the time base (R25): what an empty queue lets pass. The count steered by TIME_ADJ or by a peer (R378, R435);
lines and guards whose window closes (R222, R365); one flit at each peer port (R369); telemetry events that no command is (R437).
-/
namespace Sys2Proof.Machine

/-! The count -/

/-- The time base runs: PWR_GOOD is high and REFCLK, or outside reset its holdover (R459), clocks it. DEDUCED, log entry 66. -/
def State.timeRuns (s : State) : Bool := s.pins.pwrGood && (s.pins.refclk || !s.inReset)

/-- PHASE of TIME_ADJ still to slew. -/
def State.phaseLeft (s : State) : Int := toSigned 32 (s.rf R.TIME_ADJ F.TIME_ADJ_PHASE)
def State.setPhaseLeft (s : State) (x : Int) : State := s.setRf R.TIME_ADJ F.TIME_ADJ_PHASE (ofInt 32 x).toNat

/-- The direction in which an outstanding correction turns an increment: 1 doubles it, −1 withholds it. -/
def turn (x : Int) : Int := if x > 0 then 1 else if x < 0 then -1 else 0

/-- The rate in force: TIME_ADJ's on the reference, what its exchanges have found on a follower (R378, R435). -/
def State.rateNow (s : State) : Int := if s.follower then s.followRate else toSigned 32 (s.rf R.TIME_ADJ F.TIME_ADJ_RATE)

/-- The increment of this clock: 1, or 0 or 2 where a correction is due and none was made in the last 1,000 ns. The rate goes before
the phase. DESIGN CHOICE, log entry 4. DEDUCED, log entry 66. -/
def State.advance (s : State) : State :=
  let acc := s.adjAcc + s.rateNow
  let add (s : State) (d : Int) : State :=
    { s with time := s.time + ofInt 64 (1 + d), adjWait := if d = 0 then s.adjWait - 1 else 999 }
  if s.adjWait ≠ 0 then add { s with adjAcc := acc } 0
  else if acc ≥ 1000000000 ∨ acc ≤ -1000000000 then add { s with adjAcc := acc - 1000000000 * turn acc } (turn acc)
  else if s.follower then add { s with adjAcc := acc, follow := s.follow - turn s.follow } (turn s.follow)
  else if s.phaseLeft ≠ 0 then add (({ s with adjAcc := acc } : State).setPhaseLeft (s.phaseLeft - turn s.phaseLeft)) (turn s.phaseLeft)
  else add { s with adjAcc := acc } 0

/-! Windows -/

/-- Old doorbell settings and guard values whose window has closed are gone; lines that they kept are recomputed. -/
def State.closeWindows (s : State) : State :=
  let due := s.dbOld.any fun o => o.deadline ≤ s.time.toNat
  let s : State := { s with dbOld := s.dbOld.filter fun o => s.time.toNat < o.deadline,
                            guardOld := s.guardOld.filter fun o => s.time.toNat < o.deadline }
  if due then s.relines else s

/-! Telemetry events whose number the model leaves free -/

/-- Event `ev`, listed for counter n of unit u, happens at a rate that no rule gives: cycles; misses, walks and moves of caches whose
evictions are free (R65, R247, R277); bytes, of which a counter adds at most 2 a cycle (R437). DESIGN CHOICE, log entry 18. -/
def freeEvent (u n ev : Nat) : Bool :=
  evListed u n ev && (ev == 0x01 || 0x20 ≤ ev || (match unitKind u with
    | .core => [0x11, 0x12, 0x13, 0x14, 0x15, 0x17].contains ev
    | .cluster => ev == 0x10 || ev == 0x12
    | .slice => ev == 0x10 || ev == 0x11
    | .memory => [0x10, 0x11, 0x12].contains ev
    | .group => [0x10, 0x11, 0x12].contains ev
    | .port => ev == 0x10 || ev == 0x11
    | .fixed => false))

/-- Unit u's clock runs. -/
def State.clockOn (s : State) (u : Nat) : Bool :=
  s.unitState u != 3 && (match unitKind u with
    | .core => !s.clockStopped (u / 8)
    | .cluster => !s.clockStopped (u - 0x80)
    | _ => true)

/-- The counters that may count now, as (unit, key of TEL_EVSEL). DESIGN CHOICE, log entry 18. -/
def State.freeCounters (s : State) : List (Nat × Nat) :=
  s.csr.filterMap fun e =>
    let u := e.1 / 0x1000000
    let o := e.1 % 0x1000000
    if 0xF10000 ≤ o ∧ o < 0xF10200 ∧ o % 32 = 0 ∧ freeEvent u ((o - 0xF10000) / 32) (getF e.2 F.TEL_EVSEL_EVENT) ∧ s.clockOn u then some (u, e.1)
    else none

/-- A free number of events, at most two for each cycle of the fastest clock, at one counter. -/
def State.countFree (s : State) (u key : Nat) : State :=
  let n := Config.freeNat s.free % 9
  let ring := s.rf (key + 8) F.TEL_CTR_COUNT + n ≥ 2 ^ 48 && u ≥ 0x80 && s.rf key F.TEL_EVSEL_OVFINT == 1
  let s := s.bumpFree.countOne u key n
  if ring then s.wrapRings 64 1 else s

/-! The clock -/

/-- Sweeps whose engines and peers have finished end as soon as the lines they write are free. -/
def State.sweepOn (s : State) : State := s.sweep.jobs.foldl (fun s j =>
  (j.list.foldl (fun s i =>
    let l := s.entryAddr i / 64 * 64
    if j.stage = .scan ∧ j.engines = [] ∧ j.undone = [] then s.sendSnoops l true ((s.peersOf l).list.map (0x130 + ·)) else s) s).endJob j.id) s

/-- What the units do of themselves in one clock outside reset. -/
def State.unitsTick (s : State) : State :=
  let s := s.freeCounters.foldl (fun (s : State) c => s.countFree c.1 c.2) s
  (s.closeWindows.serveLines.sweepOn.mirrorRetry.fireRings.answerFncs.laneRetry.evictSome.vaultRoom.surfaceDram.evictRemote.fillSome).pump

/-- One time-base clock. DESIGN CHOICE, log entry 4. -/
def State.tick (s : State) : State :=
  if !s.timeRuns then s
  else
    let s := s.advance
    if s.inReset then s else s.unitsTick

end Sys2Proof.Machine
end

