-- ==== Sys2Proof/Machine/Step.lean ====
section
/-!
DEFINITION. One step of the block: the command at the front of the queue, or one clock of the time base where none waits.
-/
namespace Sys2Proof.Machine

/-- The front command's effect on the state with the queue's rest; an empty queue lets one time-base clock pass.
DESIGN CHOICE, log entry 1. DESIGN CHOICE, log entry 4. -/
def step (s : State) : Host.Outcome State Fault Refusal :=
  match s.pending with
  | [] => .next s.tick
  | c :: rest => exec c { s with pending := rest }

/-- The table gives no row bits, so no word spells a command. DESIGN CHOICE, log entry 84. -/
def State.withFetchWord (s : State) (nbits w : Nat) : State :=
  match decodeTableWord nbits w with
  | some c => { s with pending := c :: s.pending }
  | none => s

end Sys2Proof.Machine
end

