-- ==== Sys2Proof/Safety.lean ====
section
/-!
DEFINITION. What claims are stated in: the point at which an instruction's own effect begins, the invariants of the sequencer and
of the sparse maps, and what one state shares with another.
-/
namespace Sys2Proof.Machine

/-! The body of an instruction (R100, R104, R133, R201, R430) -/

/-- Instruction `i` of core k, `len` bytes with its prefix, reaches its own effect in state `s₁` from state `s`: the core issues;
what the instruction waits for has arrived; no event is due (a prefixed instruction follows its PFX at once, and one that a peer's answer
lets go on has issued before, R89); the fetch check passes without a wait; no patch entry matches, and a prefix stands only where
one may. -/
def Reaches (k : CoreId) (i : Insn) (len : Nat) (s s₁ : State) : Prop :=
  s.canIssue k false = true ∧ (∀ w, (s.core k).flight = some w → w = i.word) ∧
  ∃ s₀, interlock k i s = .ok () s₀ ∧
    ((s₀.core k).pfx = none → (s₀.core k).flight = none → (s₀.core k).due = none) ∧
    len = (if (s₀.core k).pfx.isSome then 8 else 4) ∧
    front k i s₀ = .ok () s₁ ∧ s₁.blocked = false

/-- The same for a K16 instruction, of two bytes and never prefixed (R384, R385). -/
def ReachesK16 (k : CoreId) (i : Insn) (s s₁ : State) : Prop :=
  s.canIssue k true = true ∧ (∀ w, (s.core k).flight = some w → w = i.word) ∧
  ∃ s₀, interlock k i s = .ok () s₀ ∧ ((s₀.core k).flight = none → (s₀.core k).due = none) ∧ hFetch k i.word s₀ = .ok () s₁ ∧
    s₁.blocked = false

/-- The outcome of an instruction whose body has left state `s` and which goes on as `n` says (R100, R121): the state after it
completes. -/
def Done (k : CoreId) (i : Insn) (len : Nat) (n : Next) (s : State) : Res := .next (s.complete k i.load len n)

/-! Invariants -/

/-- A sequencer that may issue holds a count it has not issued yet, never 0 and never the end (R311, R312). -/
def Sequencer.ok (q : Sequencer) : Prop :=
  q.next ≠ 0 ∧ (q.next = seqEnd → q.exhausted = true) ∧ (q.exhausted = true → q.isOpen = false)

/-- The sequencer, and the one that an undone brumation would restore. -/
def State.seqOk (s : State) : Prop :=
  s.seq.ok ∧ ∀ b, s.brum = some b → Sequencer.ok ⟨b.seq.1, b.seq.2.1, b.seq.2.2, 0⟩

/-- Every sparse map of bytes, tags, poison, registers outside the cores and private doorbells is in canonical form. -/
def State.mapsOk (s : State) : Prop :=
  SMap.wf ctlReset s.csr = true ∧ SMap.wf zeroByte s.mem = true ∧ SMap.wf noFlag s.tags = true ∧
    SMap.wf noFlag s.poison = true ∧ SMap.wf zeroNat s.dbPriv = true

/-- General register g0 reads zero on every core (R99). -/
def State.zeroOk (s : State) : Prop := ∀ k : CoreId, (s.core k).g[0] = 0

end Sys2Proof.Machine
end

