-- ==== Sys2Proof/Certificates/Slice0/Obligations.lean ====
section
/-!
DEFINITION. The statements for the provers.
-/
open Sys2Proof Sys2Proof.Machine

/-- A step runs the front command on the queue's rest; on an empty queue it is one clock of the time base (the model's choice, log
entry 4). Rests on R26. -/
def Obligations.StepTakesTheFrontCommand : Prop :=
  (∀ (c : Instr) (rest : List Instr) (s : State), step { s with pending := c :: rest } = exec c { s with pending := rest }) ∧
    ∀ s : State, s.pending = [] → step s = .next s.tick

/-- In reset: sequencer closed at 1, no channel initialised, empty queue, invariants met (values the spec does not give: log entries
2 and 3). Rests on R25, R99, R268, R273, R311, R312. -/
def Obligations.ResetState : Prop :=
  State.reset.inReset = true ∧ State.reset.mode = .load ∧ State.reset.pending = [] ∧ State.reset.time = 0 ∧ State.reset.seq.next = 1 ∧
    State.reset.seq.isOpen = false ∧ State.reset.seq.exhausted = false ∧ State.reset.mem = [] ∧ State.reset.tags = [] ∧ State.reset.poison = [] ∧
    (∀ k, State.reset.reg k = ctlReset k) ∧ State.reset.seqOk ∧ State.reset.mapsOk ∧ State.reset.zeroOk

/-- No step lets the sequencer stand at 0 or be open at its end: every step keeps the sequencer invariant. Rests on R311, R312. -/
def Obligations.StepKeepsTheSequencer : Prop :=
  ∀ s s' : State, s.seqOk → step s = .next s' → s'.seqOk

/-- Every step keeps memory, tags, poison and the control registers in canonical form and g0 of every core at zero. Rests on R99,
R282. -/
def Obligations.StepKeepsMapsAndZeroRegister : Prop :=
  ∀ s s' : State, s.mapsOk → s.zeroOk → step s = .next s' → s'.mapsOk ∧ s'.zeroOk

/-- Every command answers a next state in every state; a step takes exactly the front command from the queue, and no command changes
the queue. Rests on R2, R26. The model's choices: that a step on an empty queue is one clock and that the queue is the model's own
(log entry 4), that a command whose precondition does not hold changes nothing (log entry 5), and that none is refused (log entry
6). -/
def Obligations.StepConsumesOnlyTheFront : Prop :=
  (∀ s s' : State, step s = .next s' → s'.pending = s.pending.tail) ∧ (∀ (c : Instr) (s s' : State), exec c s = .next s' → s'.pending = s.pending) ∧
    ∀ (c : Instr) (s : State), ∃ t, exec c s = .next t ∧ t.pending = s.pending

/-- An entry is malformed exactly when one of the five conditions holds, and a coin whose entry is malformed fails the check at the
state step. Formalises R45. -/
def Obligations.MalformedEntryFails : Prop :=
  (∀ p : Purse, p.malformed = true ↔ p.type = 7 ∨ getF p.w2 ⟨31, 29⟩ ≠ 0 ∨ getF p.w2 ⟨63, 51⟩ ≠ 0 ∨ (p.tring ≠ 0 ∧ p.type ≠ 5) ∨
      (p.rstk = true ∧ p.type ≠ 4) ∨ p.base + p.length > 2 ^ 64) ∧
  (∀ (p : Purse) (c : Coin) (a : Int) (size kind ring asid : Nat) (v : Option Coin), p.malformed = true → c.issue = p.issue →
      checkEntry p c a size kind v ring asid = some .malformed ∧ CoinCause.malformed.trap = CoinCause.state.trap)

/-- Each purse type permits only the kinds of its row, some of them in ring 0 alone, and a check of another kind fails, with the
type cause if the steps before pass. Formalises R49. -/
def Obligations.PurseTypePermitsKinds : Prop :=
  (∀ (ty kind ring : Nat) (rstk : Bool), ty ≤ 7 → kind ≤ 14 → (typePermits ty rstk kind ring = true ↔
      (ty = 0 ∧ kind ∈ [0, 1, 2, 4, 5, 6, 7, 8, 9, 13, 14]) ∨ (ty = 1 ∧ kind ∈ [0, 1, 2, 3, 4, 6, 13, 14]) ∨
      (ty = 2 ∧ (kind ∈ [0, 6, 10, 11, 13, 14] ∨ (ring = 0 ∧ kind ∈ [1, 2, 7]))) ∨
      (ty = 3 ∧ (kind ∈ [0, 6, 13, 14] ∨ (ring = 0 ∧ kind ∈ [1, 2, 7]))) ∨
      (ty = 4 ∧ rstk = false ∧ kind ∈ [0, 1, 2, 4, 5, 6, 7, 8, 9, 13, 14]) ∨ (ty = 4 ∧ rstk = true ∧ kind ∈ [13, 14]) ∨
      (ty = 5 ∧ kind ∈ [12, 14]) ∨ (ty = 6 ∧ kind ∈ [0, 1, 2, 6, 7, 13, 14]))) ∧
  (∀ (p : Purse) (c : Coin) (a : Int) (size kind ring asid : Nat) (v : Option Coin), typePermits p.type p.rstk kind ring = false →
      checkEntry p c a size kind v ring asid ≠ none ∧
      (c.issue = p.issue → p.malformed = false → p.state = 1 → (p.owner = 0 ∨ p.owner = asid) →
        (11 < kind ∨ (p.base ≤ a ∧ a + size ≤ p.base + p.length)) → bitB c.rights 11 = false → (bitB c.rights 6 = false ∨ kind = 12) →
        neededRights kind &&& ~~~c.rights = 0 → checkEntry p c a size kind v ring asid = some .type))

/-- Without STRICT the most restrictive matching guard decides; with STRICT two matching guards refuse the request. Formalises R361.
-/
def Obligations.GuardOverlapRule : Prop :=
  ∀ (s : State) (set fn a : Nat) (op : GOp) (map : Bool),
    let hit (k : Nat) : Prop := k < guardCount set ∧ s.guardMatches set k fn a = true
    let permits (k : Nat) : Prop := s.guardStale set k = false ∧ op.rights (s.reg (R.GUARD_ATTR set k)) = true
    let strict := s.rf (R.GUARD_CTL set) F.GUARD_CTL_STRICT
    (strict = 0 → (∃ k, hit k) → (s.guardDecide set fn a op map = none ↔ ∀ k, hit k → permits k)) ∧
    (strict = 1 → (∃ j k, j ≠ k ∧ hit j ∧ hit k) → ∃ r, s.guardDecide set fn a op map = some r ∧ r.reason = 3) ∧
    (strict = 1 → ∀ k, hit k → (∀ j, hit j → j = k) → (s.guardDecide set fn a op map = none ↔ permits k))

/-- The ALU register instructions write their results to gd and complete. Rests on R108. -/
def Obligations.AluResult : Prop :=
  (∀ p ∈ ([
        (Instr.add, 0x00, fun x y => x + y), (Instr.sub, 0x01, fun x y => x - y),
        (Instr.andI, 0x02, fun x y => x &&& y), (Instr.orI, 0x03, fun x y => x ||| y), (Instr.xorI, 0x04, fun x y => x ^^^ y),
        (Instr.andn, 0x05, fun x y => x &&& ~~~y),
        (Instr.shl, 0x06, fun x y => x <<< (y.toNat % 64)), (Instr.shr, 0x07, fun x y => x >>> (y.toNat % 64)),
        (Instr.sar, 0x08, fun x y => x.sshiftRight (y.toNat % 64)),
        (Instr.rol, 0x09, fun x y => x.rotateLeft (y.toNat % 64)), (Instr.ror, 0x0A, fun x y => x.rotateRight (y.toNat % 64)),
        (Instr.seq, 0x10, fun x y => if x = y then 1 else 0), (Instr.sne, 0x11, fun x y => if x ≠ y then 1 else 0),
        (Instr.slt, 0x12, fun x y => if x.toInt < y.toInt then 1 else 0), (Instr.sltu, 0x13, fun x y => if x.toNat < y.toNat then 1 else 0),
        (Instr.sge, 0x14, fun x y => if x.toInt ≥ y.toInt then 1 else 0), (Instr.sgeu, 0x15, fun x y => if x.toNat ≥ y.toNat then 1 else 0)] :
        List ((CoreId → BitVec 5 → BitVec 5 → BitVec 5 → Instr) × Nat × (Word → Word → Word))),
      ∀ (k : CoreId) (d a b : BitVec 5) (len : Nat) (s s₁ : State),
        let i := mkInsn (encRR 0x10 d.toNat a.toNat b.toNat 0 p.2.1) [gN a, gN b] [gN d]
        Reaches k i len s s₁ →
        exec (p.1 k d a b) s =
          Done k i len .seq (s₁.modCore k fun c => c.setG d.toNat (p.2.2 (c.gR a.toNat) (c.gR b.toNat)))) ∧
  ((∀ p ∈ ([(Instr.movz, 0x18, fun y => y = 0), (Instr.movnz, 0x19, fun y => y ≠ 0)] :
        List ((CoreId → BitVec 5 → BitVec 5 → BitVec 5 → Instr) × Nat × (Word → Prop))),
      ∀ (k : CoreId) (d a b : BitVec 5) (len : Nat) (s s₁ : State),
        let i := mkInsn (encRR 0x10 d.toNat a.toNat b.toNat 0 p.2.1) [gN a, gN b] [gN d]
        let c := s₁.core k
        Reaches k i len s s₁ →
        (p.2.2 (c.gR b.toNat) → exec (p.1 k d a b) s = Done k i len .seq (s₁.setCore k (c.setG d.toNat (c.gR a.toNat)))) ∧
        (¬ p.2.2 (c.gR b.toNat) → exec (p.1 k d a b) s = Done k i len .seq s₁)) ∧
    (∀ p ∈ ([
        (Instr.clz, 0x20, fun x n => n ≤ 64 ∧ (∀ j < n, bitB x (63 - j) = false) ∧ (n < 64 → bitB x (63 - n) = true)),
        (Instr.ctz, 0x21, fun x n => n ≤ 64 ∧ (∀ j < n, bitB x j = false) ∧ (n < 64 → bitB x n = true)),
        (Instr.popc, 0x22, fun x n => n = ((List.range 64).filter fun j => bitB x j).length)] :
        List ((CoreId → BitVec 5 → BitVec 5 → BitVec 5 → Instr) × Nat × (Word → Nat → Prop))),
      ∀ (k : CoreId) (d a : BitVec 5) (len n : Nat) (s s₁ : State),
        let i := mkInsn (encRR 0x10 d.toNat a.toNat 0 0 p.2.1) [gN a] [gN d]
        let c := s₁.core k
        Reaches k i len s s₁ → p.2.2 (c.gR a.toNat) n →
        exec (p.1 k d a 0) s = Done k i len .seq (s₁.setCore k (c.setG d.toNat (BitVec.ofNat 64 n)))))

/-- Each ALU immediate instruction, and LUI, writes its result to gd and completes. Rests on R109. -/
def Obligations.AluImmediateResult : Prop :=
  (∀ p ∈ ([
      (Instr.addi, 0, fun x y => x + y), (Instr.andi, 1, fun x y => x &&& y), (Instr.ori, 2, fun x y => x ||| y),
      (Instr.xori, 3, fun x y => x ^^^ y), (Instr.slti, 4, fun x y => if x.toInt < y.toInt then 1 else 0),
      (Instr.sltiu, 5, fun x y => if x.toNat < y.toNat then 1 else 0), (Instr.seqi, 7, fun x y => if x = y then 1 else 0)] :
      List ((CoreId → BitVec 5 → BitVec 5 → BitVec 12 → Instr) × Nat × (Word → Word → Word))),
    ∀ (k : CoreId) (d a : BitVec 5) (imm : BitVec 12) (len : Nat) (s s₁ : State),
      let i := { mkInsn (encRI 0x11 d.toNat a.toNat p.2.1 imm.toNat) [gN a] [gN d] with pfx := true }
      let c := s₁.core k
      let v : Word := match c.pfx with
        | some x => BitVec.ofInt 64 (x.toInt * 2 ^ 12 + (imm.toNat : Int))
        | none => imm.signExtend 64
      Reaches k i len s s₁ →
      exec (p.1 k d a imm) s = Done k i len .seq (s₁.setCore k (c.setG d.toNat (p.2.2 (c.gR a.toNat) v)))) ∧
  (∀ p ∈ ([
      (Instr.shli, 0, fun x n => x <<< n), (Instr.shri, 1, fun x n => x >>> n), (Instr.sari, 2, fun x n => x.sshiftRight n),
      (Instr.rori, 3, fun x n => x.rotateRight n)] :
      List ((CoreId → BitVec 5 → BitVec 5 → BitVec 6 → Instr) × Nat × (Word → Nat → Word))),
    ∀ (k : CoreId) (d a : BitVec 5) (sh : BitVec 6) (len : Nat) (s s₁ : State),
      let i := mkInsn (encRI 0x11 d.toNat a.toNat 6 (p.2.1 * 64 + sh.toNat)) [gN a] [gN d]
      let c := s₁.core k
      Reaches k i len s s₁ →
      exec (p.1 k d a sh) s = Done k i len .seq (s₁.setCore k (c.setG d.toNat (p.2.2 (c.gR a.toNat) sh.toNat)))) ∧
  (∀ (k : CoreId) (d : BitVec 5) (imm : BitVec 20) (len : Nat) (s s₁ : State),
      let i := mkInsn (0x12 + d.toNat * 2 ^ 7 + imm.toNat * 2 ^ 12) [] [gN d]
      let c := s₁.core k
      Reaches k i len s s₁ →
      exec (.lui k d imm) s =
        Done k i len .seq (s₁.setCore k (c.setG d.toNat (((imm ++ (0 : BitVec 12)).signExtend 64 : Word)))))

/-- Branches, jumps, calls and returns continue where the spec says. Rests on R110, R117. -/
def Obligations.ControlTransferResult : Prop :=
  (∀ p ∈ ([
        (Instr.beq, 0, fun x y => decide (x = y)), (Instr.bne, 1, fun x y => decide (x ≠ y)),
        (Instr.blt, 2, fun x y => decide (x.toInt < y.toInt)), (Instr.bge, 3, fun x y => decide (x.toInt ≥ y.toInt)),
        (Instr.bltu, 4, fun x y => decide (x.toNat < y.toNat)), (Instr.bgeu, 5, fun x y => decide (x.toNat ≥ y.toNat))] :
        List ((CoreId → BitVec 5 → BitVec 5 → BitVec 12 → Instr) × Nat × (Word → Word → Bool))),
      ∀ (k : CoreId) (a b : BitVec 5) (disp : BitVec 12) (len : Nat) (s s₁ : State),
        let i := mkInsn (encRI 0x18 a.toNat b.toNat p.2.1 disp.toNat) [gN a, gN b] []
        let c := s₁.core k
        Reaches k i len s s₁ →
        (p.2.2 (c.gR a.toNat) (c.gR b.toNat) = true →
          exec (p.1 k a b disp) s = Done k i len (.jump (c.pcc.cursor + disp.signExtend 64 * 4)) s₁) ∧
        (p.2.2 (c.gR a.toNat) (c.gR b.toNat) = false → exec (p.1 k a b disp) s = Done k i len .seq s₁)) ∧
  ((∀ (k : CoreId) (disp : BitVec 24) (len : Nat) (s s₁ : State),
        let i := mkInsn (0x19 + disp.toNat * 2 ^ 8) [] []
        Reaches k i len s s₁ →
        exec (.jmp k disp) s = Done k i len (.jump ((s₁.core k).pcc.cursor + disp.signExtend 64 * 4)) s₁) ∧
    (∀ (k : CoreId) (a : BitVec 5) (len : Nat) (s s₁ : State),
        let i := mkInsn (encRI 0x1A 0 a.toNat 2 0) [gN a] []
        Reaches k i len s s₁ → exec (.jmpr k a) s = Done k i len (.jump ((s₁.core k).gR a.toNat)) s₁) ∧
    (∀ (k : CoreId) (cb : BitVec 5) (len : Nat) (s s₁ : State),
        let i := mkInsn (encRI 0x1A 0 cb.toNat 0 0) [cN cb] []
        Reaches k i len s s₁ → cb.toNat < 16 → exec (.jmpc k cb) s = Done k i len (.coin ((s₁.core k).cR cb.toNat)) s₁) ∧
    (∀ (k : CoreId) (disp : BitVec 24) (len : Nat) (s s₁ s₂ : State),
        let i := mkInsn (0x19 + 2 ^ 7 + disp.toNat * 2 ^ 8) [] []
        let pc := (s₁.core k).pcc
        Reaches k i len s s₁ → push1 k (pc.withCursor (pc.cursor + 4)) s₁ = .ok () s₂ → s₂.blocked = false →
        exec (.call k disp) s = Done k i len (.jump (pc.cursor + disp.signExtend 64 * 4)) s₂) ∧
    (∀ (k : CoreId) (a : BitVec 5) (len : Nat) (s s₁ s₂ : State),
        let i := mkInsn (encRI 0x1A 0 a.toNat 3 0) [gN a] []
        let pc := (s₁.core k).pcc
        Reaches k i len s s₁ → push1 k (pc.withCursor (pc.cursor + 4)) s₁ = .ok () s₂ → s₂.blocked = false →
        exec (.callr k a) s = Done k i len (.jump ((s₁.core k).gR a.toNat)) s₂) ∧
    (∀ (k : CoreId) (cb : BitVec 5) (len : Nat) (s s₁ s₂ : State),
        let i := mkInsn (encRI 0x1A 0 cb.toNat 1 0) [cN cb] []
        let pc := (s₁.core k).pcc
        Reaches k i len s s₁ → cb.toNat < 16 → push1 k (pc.withCursor (pc.cursor + 4)) s₁ = .ok () s₂ → s₂.blocked = false →
        exec (.callc k cb) s = Done k i len (.coin ((s₁.core k).cR cb.toNat)) s₂) ∧
    (∀ (k : CoreId) (x r : Coin) (len : Nat) (s s₁ s₂ : State),
        let i := mkInsn (encRI 0x1A 0 0 4 0) [] []
        Reaches k i len s s₁ → pop1 k s₁ = .ok (x, r) s₂ → (x.tag = true ∨ bitB x.bits 127 = false) → s₂.blocked = false →
        exec (.ret k) s =
          Done k i len (.coin x) (s₂.modCore k fun c => c.ccSet (R.CS_RSTK c.ring) r)))

/-- push checks the stack coin 16 below its cursor, enters the granule in the store buffer and moves the cursor down by 16. Rests on
R118. -/
def Obligations.PushEffect : Prop :=
  ∀ (k : CoreId) (x : Coin) (s t : State), (s.core k).flight = none → push1 k x s = .ok () t →
    let c := s.core k
    let r := c.ccGet (R.CS_RSTK c.ring)
    let d := t.core k
    (∃ (a : Nat) (h : Half) (y : Coin) (s₁ s₂ s₃ : State),
      rscheck k c.ring r (checkAddr r (-16)) s = .ok a s₁ ∧ (a : Int) = (r.cursor.toNat : Int) - 16 ∧
      stackHalf k c.ring a true s₁ = .ok h s₂ ∧ retireM k x s₂ = .ok y s₃ ∧ y.bits = x.bits ∧ (y.tag = true → x.tag = true) ∧
      d.sb = (s₃.core k).sb ++ [⟨.coin y.tag, h.pa, natBytes 16 x.bits.toNat, h.mt, false, false, .none⟩] ∧
      (c.csF R.CS_PTMODE F.CS_PTMODE_MODE = 0 → (s₃.core k).sb = c.sb) ∧
      d.ccGet (R.CS_RSTK c.ring) = r.withCursor (r.cursor - 16)) ∧
    d.g = c.g ∧ d.gg = c.gg ∧ d.c = c.c ∧ d.gc = c.gc ∧ d.v = c.v ∧ d.m = c.m ∧ d.pcc = c.pcc

/-- CALLG through a gate that passes its checks pushes the return frame on the target ring's stack and enters the gate's code in the
target ring. Rests on R185. -/
def Obligations.GateCallResult : Prop :=
  ∀ (k : CoreId) (cb : BitVec 5) (len va : Nat) (g t : Purse) (s s₁ s₂ s₃ s₄ : State),
    let i := mkInsn (encRI 0x1A 0 cb.toNat 5 0) [cN cb] []
    let c := s₁.core k
    let x := c.cR cb.toNat
    Reaches k i len s s₁ → cb.toNat < 16 →
    coinCheckP k cb.toNat x 0 0 12 none 0 (fun _ => none) s₁ = .ok (va, g) s₂ →
    ¬ (0xFFFFFF20 ≤ g.link ∧ g.link ≤ 0xFFFFFF2F) →
    gateBefore s₂.ptbCount c.ring g = none →
    readPurse k g.link s₂ = .ok t s₃ →
    gateAfter c.asid g t = none →
    push2 k g.tring (c.pcc.withCursor (c.pcc.cursor + 4)) (statusGranule (c.csGet R.CS_STATUS) 0 true false) s₃ = .ok () s₄ →
    s₄.blocked = false →
    exec (.callg k cb) s =
      Done k i len .done ((s₄.transfer k (Coin.make (BitVec.ofNat 64 g.base) g.link t.issue 0x005 true)).modCore k
        fun c => c.csSetF R.CS_STATUS F.CS_STATUS_RING g.tring)

/-- LOOP and LOOPI push a loop level or skip the body; LEXIT pops level 0 and continues at its end + 4. Rests on R120, R121. The
model's choice: a count of 0, and LEXIT, are taken for transfers, with no end step of an outer body (log entry 122). -/
def Obligations.LoopResult : Prop :=
  let pushed (c : CoreState) (start fin count : Word) (t : CoreState) : Prop :=
    t.csGet R.CS_LSTART = start ∧ t.csGet R.CS_LEND = fin ∧ t.csGet R.CS_LCOUNT = count ∧
    t.csGet R.CS_LPURSE = BitVec.ofNat 64 c.pcc.purse ∧
    t.csGet R.CS_LSTART1 = c.csGet R.CS_LSTART ∧ t.csGet R.CS_LEND1 = c.csGet R.CS_LEND ∧
    t.csGet R.CS_LCOUNT1 = c.csGet R.CS_LCOUNT ∧ t.csGet R.CS_LPURSE1 = c.csGet R.CS_LPURSE ∧
    t.csGet R.CS_LSTART2 = c.csGet R.CS_LSTART1 ∧ t.csGet R.CS_LEND2 = c.csGet R.CS_LEND1 ∧
    t.csGet R.CS_LCOUNT2 = c.csGet R.CS_LCOUNT1 ∧ t.csGet R.CS_LPURSE2 = c.csGet R.CS_LPURSE1 ∧
    t.csF R.CS_LDEPTH F.CS_LDEPTH_DEPTH = c.csF R.CS_LDEPTH F.CS_LDEPTH_DEPTH + 1
  let rest (c t : CoreState) : Prop := t = { c with cs := t.cs } ∧ ∀ n, ¬ (R.CS_LSTART ≤ n ∧ n ≤ R.CS_LDEPTH) → t.csGet n = c.csGet n
  (∀ (k : CoreId) (n : BitVec 10) (a : BitVec 5) (len : Nat) (s s₁ : State),
      let i := mkInsn (encLP a.toNat 0 0 n.toNat 0) [gN a] []
      let c := s₁.core k
      let count := c.gR a.toNat
      Reaches k i len s s₁ → n ≠ 0 →
      (count = 0 → exec (.loopG k a n) s = Done k i len (.jump (c.pcc.cursor + 4 + BitVec.ofNat 64 (4 * n.toNat))) s₁) ∧
      (count ≠ 0 → c.csF R.CS_LDEPTH F.CS_LDEPTH_DEPTH < 3 → ∃ d,
        exec (.loopG k a n) s = Done k i len .seq (s₁.setCore k d) ∧
        pushed c (c.pcc.cursor + 4) (c.pcc.cursor + 4 + BitVec.ofNat 64 (4 * (n.toNat - 1))) count d ∧ rest c d)) ∧
  (∀ (k : CoreId) (count : BitVec 8) (n : BitVec 10) (len : Nat) (s s₁ : State),
      let i := mkInsn (encLP 0 1 0 n.toNat count.toNat) [] []
      let c := s₁.core k
      Reaches k i len s s₁ → n ≠ 0 →
      (count = 0 → exec (.loopi k count n) s = Done k i len (.jump (c.pcc.cursor + 4 + BitVec.ofNat 64 (4 * n.toNat))) s₁) ∧
      (count ≠ 0 → c.csF R.CS_LDEPTH F.CS_LDEPTH_DEPTH < 3 → ∃ d,
        exec (.loopi k count n) s = Done k i len .seq (s₁.setCore k d) ∧
        pushed c (c.pcc.cursor + 4) (c.pcc.cursor + 4 + BitVec.ofNat 64 (4 * (n.toNat - 1))) (count.zeroExtend 64) d ∧ rest c d)) ∧
  (∀ (k : CoreId) (len : Nat) (s s₁ : State),
      let i := mkInsn (encLP 0 0 1 0 0) [] []
      let c := s₁.core k
      Reaches k i len s s₁ → 1 ≤ c.csF R.CS_LDEPTH F.CS_LDEPTH_DEPTH → ∃ d,
        exec (.lexit k) s = Done k i len (.jump (c.csGet R.CS_LEND + 4)) (s₁.setCore k d) ∧
        d.csGet R.CS_LSTART = c.csGet R.CS_LSTART1 ∧ d.csGet R.CS_LEND = c.csGet R.CS_LEND1 ∧
        d.csGet R.CS_LCOUNT = c.csGet R.CS_LCOUNT1 ∧ d.csGet R.CS_LPURSE = c.csGet R.CS_LPURSE1 ∧
        d.csGet R.CS_LSTART1 = c.csGet R.CS_LSTART2 ∧ d.csGet R.CS_LEND1 = c.csGet R.CS_LEND2 ∧
        d.csGet R.CS_LCOUNT1 = c.csGet R.CS_LCOUNT2 ∧ d.csGet R.CS_LPURSE1 = c.csGet R.CS_LPURSE2 ∧
        d.csGet R.CS_LSTART2 = 0 ∧ d.csGet R.CS_LEND2 = 0 ∧ d.csGet R.CS_LCOUNT2 = 0 ∧ d.csGet R.CS_LPURSE2 = 0 ∧
        d.csF R.CS_LDEPTH F.CS_LDEPTH_DEPTH = c.csF R.CS_LDEPTH F.CS_LDEPTH_DEPTH - 1 ∧ rest c d)

/-- An instruction completed in sequence moves CS_PCC by its length, and at the end of a loop body counts the loop down and goes to
its start while passes remain. Rests on R100, R121. -/
def Obligations.CompletionMovesOn : Prop :=
  ∀ (k : CoreId) (load : Bool) (len : Nat) (s : State), (len = 4 ∨ len = 8) →
    let c := s.core k
    let d := (s.complete k load len .seq).core k
    let ends := 1 ≤ c.csF R.CS_LDEPTH F.CS_LDEPTH_DEPTH ∧ c.pcc.purse = c.csF R.CS_LPURSE F.CS_LPURSE_PURSE ∧
      (c.csGet R.CS_LEND = c.pcc.cursor ∨ (len = 8 ∧ c.csGet R.CS_LEND = c.pcc.cursor + 4))
    d.pcc.bits.extractLsb' 64 64 = c.pcc.bits.extractLsb' 64 64 ∧ d.pcc.tag = c.pcc.tag ∧
    d.pfx = none ∧ (load = false → d.shadow = none) ∧
    (¬ ends → d.pcc.cursor = c.pcc.cursor + BitVec.ofNat 64 len ∧ d.csGet R.CS_LCOUNT = c.csGet R.CS_LCOUNT) ∧
    (ends → c.csGet R.CS_LCOUNT ≠ 1 →
      d.pcc.cursor = c.csGet R.CS_LSTART ∧ d.csGet R.CS_LCOUNT = c.csGet R.CS_LCOUNT - 1)

/-- Completing an instruction in sequence changes no memory, no other core and no register file. Rests on R100, R121, R107, R451,
R437. -/
def Obligations.CompletionFrame : Prop :=
  ∀ (k : CoreId) (load : Bool) (len : Nat) (s : State),
    let t := s.complete k load len .seq
    let c := s.core k
    let d := t.core k
    (∀ a, t.memB a = s.memB a ∧ t.tagAt a = s.tagAt a ∧ t.poisoned a = s.poisoned a) ∧
    (∀ j, j ≠ k → t.core j = s.core j) ∧
    d.g = c.g ∧ d.gg = c.gg ∧ d.c = c.c ∧ d.gc = c.gc ∧ d.v = c.v ∧ d.m = c.m ∧ d.h = c.h ∧ d.ccs = c.ccs ∧
    d.sb = c.sb ∧ d.loads = c.loads ∧ d.longs = c.longs ∧ d.tlb = c.tlb ∧ d.walk = c.walk ∧ d.pcache = c.pcache ∧
    (∀ n, ¬ (R.CS_LSTART ≤ n ∧ n ≤ R.CS_LDEPTH) → n ≠ R.CS_DBGCTL → d.csGet n = c.csGet n) ∧
    t.seq = s.seq ∧ t.mode = s.mode ∧ t.time = s.time ∧ t.pending = s.pending

/-- A write to general register n is read back from it, changes no other register, and to g0 changes nothing. Rests on R99. -/
def Obligations.RegisterWriteLands : Prop :=
  ∀ (c : CoreState) (n : BitVec 5) (x : Word), c.shadow = none →
    let d := c.setG n.toNat x
    (n = 0 → d = c ∧ d.gR 0 = 0) ∧
    (n ≠ 0 → d.gR n.toNat = x) ∧
    (∀ m : BitVec 5, m ≠ n → d.gR m.toNat = c.gR m.toNat) ∧
    (∀ m : BitVec 4, d.cR m.toNat = c.cR m.toNat) ∧
    (∀ j : Fin 32, (j.val ≠ n.toNat ∨ (16 ≤ j.val ∧ c.gecko = true)) → d.g[j] = c.g[j]) ∧
    (∀ j : Fin 16, (j.val + 16 ≠ n.toNat ∨ c.gecko = false) → d.gg[j] = c.gg[j]) ∧
    d.c = c.c ∧ d.gc = c.gc ∧ d.v = c.v ∧ d.m = c.m ∧ d.h = c.h ∧ d.cs = c.cs ∧ d.ccs = c.ccs ∧ d.pcc = c.pcc

/-- MFS, MTS, MFSC and MTSC move the registers that the ring may access, and trap on the others. Rests on R101, R102. The model's
reading: MTS and MTSC to a read-only register complete without effect in the rings that may access it, and an unassigned index is
illegal before the ring is looked at (log entry 25). -/
def Obligations.CoreStateMoveAndAccessResult : Prop :=
  ((∀ (k : CoreId) (d : BitVec 5) (idx : BitVec 12) (r : CsRule) (v : Word) (len : Nat) (s s₁ s₂ s₃ : State),
        let i := mkInsn (encRI 0x1C d.toNat 0 0 idx.toNat) [] [gN d]
        Reaches k i len s s₁ → csAccess k idx.toNat false false s₁ = .ok r s₂ → csRead k idx.toNat s₂ = .ok v s₃ → s₃.blocked = false →
        exec (.mfs k d idx) s = Done k i len .seq (s₃.modCore k fun c => c.setG d.toNat v)) ∧
    (∀ (k : CoreId) (d : BitVec 5) (idx : BitVec 12) (r : CsRule) (x : Coin) (len : Nat) (s s₁ s₂ s₃ : State),
        let i := mkInsn (encRI 0x1C d.toNat 0 2 idx.toNat) [] [cN d]
        Reaches k i len s s₁ → d.toNat < 16 → csAccess k idx.toNat true false s₁ = .ok r s₂ → ccRead k idx.toNat s₂ = .ok x s₃ →
        s₃.blocked = false →
        exec (.mfsc k d idx) s = Done k i len .seq (s₃.modCore k fun c => c.setC d.toNat x)) ∧
    (∀ (k : CoreId) (a : BitVec 5) (idx : BitVec 12) (r : CsRule) (len : Nat) (s s₁ s₂ s₃ : State),
        let i := mkInsn (encRI 0x1C 0 a.toNat 1 idx.toNat) [gN a] []
        Reaches k i len s s₁ → csAccess k idx.toNat false true s₁ = .ok r s₂ →
        (r.ro = true → s₂.blocked = false → exec (.mts k idx a) s = Done k i len .seq s₂) ∧
        (r.ro = false → csWrite k idx.toNat ((s₂.core k).gR a.toNat) s₂ = .ok () s₃ → s₃.blocked = false →
          exec (.mts k idx a) s = Done k i len .seq s₃)) ∧
    (∀ (k : CoreId) (a : BitVec 5) (idx : BitVec 12) (r : CsRule) (len : Nat) (s s₁ s₂ s₃ : State),
        let i := mkInsn (encRI 0x1C 0 a.toNat 3 idx.toNat) [cN a] []
        Reaches k i len s s₁ → a.toNat < 16 → csAccess k idx.toNat true true s₁ = .ok r s₂ →
        (r.ro = true → s₂.blocked = false → exec (.mtsc k idx a) s = Done k i len .seq s₂) ∧
        (r.ro = false → ccWrite k idx.toNat ((s₂.core k).cR a.toNat) s₂ = .ok () s₃ → s₃.blocked = false →
          exec (.mtsc k idx a) s = Done k i len .seq s₃))) ∧
  (∀ (k : CoreId) (n : Nat) (coin write : Bool) (s : State),
      let c := s.core k
      let rule := csRule (c.csF R.CS_BANKWIN F.CS_BANKWIN_BANK) n
      ((rule = none ∨ ∃ r, rule = some r ∧ r.coin ≠ coin) → csAccess k n coin write s = .error (.trap ⟨0x00, 0, []⟩) s) ∧
      (∀ r, rule = some r → r.coin = coin →
        ((if write then r.wr else r.rd) < c.ring → csAccess k n coin write s = .error (.trap ⟨0x10, 0, []⟩) s) ∧
        (c.ring ≤ (if write then r.wr else r.rd) → csAccess k n coin write s = .ok r s)))

/-- NOP, WAIT, the fences, ICSYNC and ABAR complete as the spec says, and PFX leaves its imm25 for the following instruction. Rests
on R106, R128, R155, R229, R255, R107. The model's choice: FENCE.ALL performs the earlier accesses, and ABAR completes the long
operations, in the same step (log entry 9). -/
def Obligations.SimpleControlAndPrefixResult : Prop :=
  ((∀ p ∈ ([(Instr.nop, encRI 0x1C 0 0 4 0), (Instr.icsync, encMT 0 0 3 0)] : List ((CoreId → Instr) × Nat)),
      ∀ (k : CoreId) (len : Nat) (s s₁ : State),
        Reaches k (mkInsn p.2 [] []) len s s₁ → exec (p.1 k) s = Done k (mkInsn p.2 [] []) len .seq s₁) ∧
    (∀ (k : CoreId) (len : Nat) (s s₁ : State),
        let i := mkInsn (encRI 0x1C 0 0 4 1) [] []
        let c := s₁.core k
        Reaches k i len s s₁ →
        exec (.wait k) s = Done k i len .seq (s₁.setCore k (if c.lineN || c.lineG then c else { c with run := .waiting }))) ∧
    (∀ p ∈ ([
        (Instr.fenceLl, 1, fun c => { c with fenceLL := true }), (Instr.fenceSl, 3, fun c => { c with fenceSL := true }),
        (Instr.fenceLs, 2, fun c => { c with sb := c.sb ++ [SbEntry.of .markLS 0 [] .normal false] }),
        (Instr.fenceSs, 4, fun c => { c with sb := c.sb ++ [SbEntry.of .markSS 0 [] .normal false] })] :
        List ((CoreId → Instr) × Nat × (CoreState → CoreState))),
      ∀ (k : CoreId) (len : Nat) (s s₁ : State),
        let i := mkInsn (encMT 0 0 0 p.2.1) [] []
        Reaches k i len s s₁ → exec (p.1 k) s = Done k i len .seq (s₁.modCore k p.2.2)) ∧
    (∀ (k : CoreId) (len : Nat) (s s₁ : State),
        let i := mkInsn (encMT 0 0 0 15) [] []
        let t := (s₁.loadFences k).performAll k
        Reaches k i len s s₁ → t.blocked = false → exec (.fenceAll k) s = Done k i len .seq t) ∧
    (∀ (k : CoreId) (len : Nat) (s s₁ : State),
        let i := mkInsn (encRI 0x1C 0 0 4 4) [] []
        let c := (s₁.core k).longsDone
        Reaches k i len s s₁ → c.ax = [] → exec (.abar k) s = Done k i len .seq (s₁.setCore k c))) ∧
  (∀ (k : CoreId) (imm : BitVec 25) (s : State),
      s.canIssue k false = true → (s.core k).pfx = none →
      ((s.core k).due = none → exec (.pfx k imm) s = .next (s.modCore k fun c => { c with pfx := some imm })) ∧
      (∀ e, (s.core k).due = some e →
        exec (.pfx k imm) s = .next (s.runOr (do takeEvent k e; modC k CoreState.stepped))))

/-- BRK, and the K16 SVC, IN, OUT, EI, DI, RETI and HALT, complete by entering their trap with the next instruction as return
address. Rests on R106, R154, R194, R391, R393. The model's readings and choices: BRK writes HIT = 0 and clears SKIP (log entry 22),
neither BRK nor a K16 system instruction makes an end step (log entry 123), OP and REGION of CS_HFINFO are free here (log entry 15),
and the instruction's word in it is rebuilt from the fields (log entry 91). -/
def Obligations.TrapInstructionResult : Prop :=
  (∀ (k : CoreId) (len : Nat) (s s₁ s₂ : State),
      let i := mkInsn (encRI 0x1C 0 0 4 3) [] []
      let c := s₁.core k
      let v := setF (setF (c.csGet R.CS_DBGCTL) F.CS_DBGCTL_HIT 0) F.CS_DBGCTL_SKIP 0
      Reaches k i len s s₁ → c.pfx = none →
      enter k ⟨0x13, 0, [(R.CS_DBGCTL, v)]⟩ (c.pcc.cursor + 4) c.pcc.cursor id (s₁.complete k false len .done) = .ok () s₂ →
      s₂.blocked = false → exec (.brk k) s = .next s₂) ∧
  (∀ p ∈ ([(Instr.k16Svc, 2, 4), (@Instr.k16In, 3, 5), (@Instr.k16Out, 4, 5), (@Instr.k16Ei, 5, 5), (@Instr.k16Di, 6, 5), (@Instr.k16Reti, 7, 5),
      (@Instr.k16Halt, 8, 5)] :
      List ((CoreId → BitVec 8 → Instr) × Nat × Nat)),
    ∀ (k : CoreId) (n : BitVec 8) (s s₁ s₂ : State),
      let w := p.2.1 * 2 ^ 8 + n.toNat / 16 * 2 ^ 4 + n.toNat % 16
      let i := mkInsn w [] []
      let c := s₁.core k
      let info := hfinfo p.2.2 (Config.freeNat s₁.free % 4) (Config.freeNat (s₁.free + 1) % 16) false w c.hPc
      ReachesK16 k i s s₁ →
      enter k ⟨0x12, 0, [(R.CS_HFINFO, info)]⟩ (c.nextAddr 2) (c.hAddr c.hPc) id
        (s₁.bumpFree.bumpFree.complete k false 2 .done) = .ok () s₂ →
      s₂.blocked = false → exec (p.1 k n) s = .next s₂)

/-- Entering a descriptor of the same ring's stack puts the frame on the return stack and goes to the handler in its ring with the
report written. Rests on R191, R195, R196, R199. -/
def Obligations.TrapEntryEffect : Prop :=
  ∀ (k : CoreId) (n : Nat) (d : Desc) (ret : Word) (s s₁ s₂ : State),
    n < 64 → n ≠ 0x0D → n ≠ 0x0E → n ≠ 0x31 → d.keep = true →
    (s.core k).csF R.CS_EMINFO F.CS_EMINFO_EMDEPTH = 0 →
    (s.modCore k fun c => { c with flight := none }).pickDesc k n = (.ok (d, n, false), s₁) →
    let c := s₁.core k
    let nr := min d.ring c.ring
    push2 k nr (c.pcc.withCursor ret) (statusGranule (c.csGet R.CS_STATUS) n false (n == 0x30 || n == 0x31)) s₁ = .ok () s₂ →
    (s₂.core k).vUsed = false →
    ∃ t, enterCore k ⟨n, 0, []⟩ ret id s = .ok () t ∧
      let e := t.core k
      e.pcc = d.handler ∧ e.ring = nr ∧ e.her = false ∧
      (d.hold = true → e.csF R.CS_STATUS F.CS_STATUS_IH = 1) ∧
      (d.hold = false → e.csF R.CS_STATUS F.CS_STATUS_IH = (s₂.core k).csF R.CS_STATUS F.CS_STATUS_IH) ∧
      e.csF R.CS_TINFO F.CS_TINFO_NUM = n ∧ e.shadow = none ∧ e.pfx = none ∧
      e.csGet R.CS_VNEST = (s₂.core k).csGet R.CS_VNEST + 1 ∧
      e.ccGet R.CS_ENTC14 = ((s₂.core k).read ((s₂.core k).cDst 14)).coinOf

/-- TRET outside ring 3 pops the frame, restores the status fields from the granule and continues at the return coin. Rests on R202.
-/
def Obligations.TrapReturnResult : Prop :=
  ∀ (k : CoreId) (y x : Coin) (pop vret : CoreState → CoreState) (len : Nat) (s s₁ s₂ s₃ s₄ : State),
    let i := mkInsn (encRI 0x1C 0 0 4 2) [] []
    Reaches k i len s s₁ → (s₁.core k).ring ≠ 3 →
    tretFrame k (s₁.modCore k CoreState.longsDone) = .ok (y, x, pop) s₂ →
    y.tag = false → bitB y.bits 127 = true → (s₂.core k).ring ≤ getF y.bits ⟨1, 0⟩ →
    tailChain k y s₂ = .ok false s₃ → (s₂.core k).vUsed = false →
    vectorReturn k s₃ = .ok vret s₄ → bitB y.bits 3 = ((s₂.core k).csF R.CS_STATUS F.CS_STATUS_PA == 1) → s₄.blocked = false →
    ∃ d, exec (.tret k) s = Done k i len (.coin x) (s₄.setCore k d) ∧
      d.ring = getF y.bits ⟨1, 0⟩ ∧ d.csF R.CS_STATUS F.CS_STATUS_IH = getF y.bits ⟨2, 2⟩ ∧
      d.csF R.CS_STATUS F.CS_STATUS_PA = getF y.bits ⟨3, 3⟩ ∧ d.csF R.CS_STATUS F.CS_STATUS_GECKO = getF y.bits ⟨4, 4⟩ ∧
      d.csF R.CS_STATUS F.CS_STATUS_HER = getF y.bits ⟨5, 5⟩ ∧
      (∀ n, n ≠ R.CS_STATUS → d.csGet n = (pop (vret (s₄.core k))).csGet n) ∧
      d.ccs = (pop (vret (s₄.core k))).ccs ∧ d.g = (pop (vret (s₄.core k))).g ∧ d.c = (pop (vret (s₄.core k))).c

/-- SAVEU and SAVEL fill the next save area and move CS_SAVEHEAD to it; RESTU and RESTL bring the registers of a matching area back.
Rests on R126, R127. -/
def Obligations.SaveAreaResult : Prop :=
  (∀ p ∈ ([(Instr.saveu, 0, true), (Instr.savel, 1, false)] : List ((CoreId → Instr) × Nat × Bool)),
    ∀ (k : CoreId) (a b len : Nat) (hl hs : List Half) (bs : List Byte) (tg : Bool) (n : Coin) (s s₁ s₂ s₃ s₄ s₅ s₆ s₇ s₈ s₉ : State),
      let i := saveInsn p.2.1 p.2.2
      let c := s₁.core k
      Reaches k i len s s₁ → areaCheck k (c.ccGet R.CS_SAVEHEAD) 16 s₁ = .ok a s₂ → xlateLines k false a 1 (s₂.orderBefore k false) = .ok hl s₃ →
      readNow k a (areaPart hl 0 16) true 0 s₃ = .ok (bs, tg) s₄ → retireM k ⟨BitVec.ofNat 128 (bytesNat bs), tg⟩ s₄ = .ok n s₅ →
      n.tag = true → areaCheck k n 320 s₅ = .ok b s₆ → xlateLines k true b 5 s₆ = .ok hs s₇ →
      saveCoins k hs p.2.2 (List.range 8) s₇ = .ok () s₈ → saveWords k hs p.2.2 (List.range 16) s₈ = .ok () s₉ →
      s₉.blocked = false →
      let h := areaPart hs 32 8
      let word := natBytes 8 ((if p.2.2 then 1 else 2) + (if c.gecko then 4 else 0))
      exec (p.1 k) s = Done k i len .seq (s₉.modCore k fun c =>
        ({ c with sb := c.sb ++ [SbEntry.of .data h.pa word h.mt false] } : CoreState).ccSet R.CS_SAVEHEAD n)) ∧
  (∀ p ∈ ([(Instr.restu, 2, true), (Instr.restl, 3, false)] : List ((CoreId → Instr) × Nat × Bool)),
    ∀ (k : CoreId) (a len : Nat) (h1 hs hw : List Half) (ws bs : List Byte) (tw : Bool) (ts : List Bool) (prev : Coin) (xs : List Coin)
      (s s₁ s₂ s₃ s₄ s₅ s₆ s₇ s₈ s₉ : State),
      let i := restInsn p.2.1 p.2.2
      let hd := bytesNat ws
      let h := areaPart hw 32 8
      Reaches k i len s s₁ → areaCheck k ((s₁.core k).ccGet R.CS_SAVEHEAD) 320 s₁ = .ok a s₂ →
      xlateLines k false a 1 (s₂.orderBefore k false) = .ok h1 s₃ → readNow k a (areaPart h1 32 8) false 0 s₃ = .ok (ws, tw) s₄ →
      hd % 4 = (if p.2.2 then 1 else 2) → xlateLines k false a 5 s₄ = .ok hs s₅ →
      xlateLines k true a 1 s₅ = .ok hw s₆ → readLines k a hs s₆ = .ok (bs, ts) s₇ →
      retireM k ⟨BitVec.ofNat 128 (bytesNat ((bs.drop 16).take 16)), ts.getD 1 false⟩ s₇ = .ok prev s₈ →
      restCoins k bs ts (List.range 8) s₈ = .ok xs s₉ → s₉.blocked = false →
      ∃ d, exec (p.1 k) s = Done k i len .seq (s₉.setCore k d) ∧ d.ccGet R.CS_SAVEHEAD = prev ∧
        (∀ j < 8, d.read (areaC (s₉.core k) p.2.2 j) = .coin (xs.getD j Coin.zero)) ∧
        (∀ j < 16, (p.2.2 = true ∨ j ≠ 0) →
          d.read (areaG (s₉.core k) p.2.2 j) = .w (BitVec.ofNat 64 (bytesNat ((bs.drop (176 + 8 * j)).take 8)))) ∧
        d.sb = (s₉.core k).sb ++ [SbEntry.of .data h.pa (natBytes 8 (hd / 4 * 4)) h.mt false])

/-- Cache maintenance acts on the line of cb's cursor; INVTLB in ring 0 removes the entries its operands name. Rests on R128, R251.
The model's choices: the earlier accesses are performed in the same step (log entry 9), and what a device holds beside a newer line
is kept apart (log entry 36). -/
def Obligations.MaintenanceResult : Prop :=
  (∀ p ∈ ([(Instr.pref, 0), (Instr.prefw, 1)] : List ((CoreId → BitVec 5 → Instr) × Nat)),
    ∀ (k : CoreId) (cb : BitVec 5) (len : Nat) (t : TrapRep) (s s₁ s₂ : State),
      let i := mkInsn (encMT cb.toNat 0 1 p.2) [cN cb] []
      Reaches k i len s s₁ → cb.toNat < 16 →
      coinCheck k cb.toNat ((s₁.core k).cR cb.toNat) 0 1 p.2 none 0 s₁ = .error (.trap t) s₂ → s₂.blocked = false →
      exec (p.1 k cb) s = Done k i len .seq s₂) ∧
  (∀ p ∈ ([(Instr.pref, 0), (Instr.prefw, 1)] : List ((CoreId → BitVec 5 → Instr) × Nat)),
    ∀ (k : CoreId) (cb : BitVec 5) (len va pa a home : Nat) (region : Option Nat) (mt : MType) (s s₁ s₂ : State),
      let i := mkInsn (encMT cb.toNat 0 1 p.2) [cN cb] []
      let o := s₂.translate ((s₂.core k).xctx k (s₂.core k).ring) va (xKind p.2 false) true
      let t := o.s.modCore k fun c => c.setXlate o.s.free o.ctx
      Reaches k i len s s₁ → cb.toNat < 16 →
      coinCheck k cb.toNat ((s₁.core k).cR cb.toNat) 0 1 p.2 none 0 s₁ = .ok va s₂ → o.res = .ok pa mt →
      s₂.target pa = .local a home region → t.blocked = false →
      exec (p.1 k cb) s = Done k i len .seq t) ∧
  (∀ p ∈ ([(Instr.cclean, 2), (Instr.cflush, 3)] : List ((CoreId → BitVec 5 → Instr) × Nat)),
    ∀ (k : CoreId) (cb : BitVec 5) (len va pa a home : Nat) (region : Option Nat) (mt : MType) (s s₁ s₂ s₃ : State),
      let i := mkInsn (encMT cb.toNat 0 1 p.2) [cN cb] []
      let s₄ := s₃.drainWhile k fun e => s₃.sharesByte e.pa e.bytes.length (pa / 64 * 64) 64
      Reaches k i len s s₁ → cb.toNat < 16 →
      coinCheck k cb.toNat ((s₁.core k).cR cb.toNat) 0 1 0 none 0 s₁ = .ok va s₂ →
      xlate k va xClean (s₁.core k).ring 0 s₂ = .ok (pa, mt) s₃ → mt ≠ .uncached → mt ≠ .device →
      s₄.target pa = .local a home region → s₄.blocked = false →
      (if p.2 = 3 then s₄.writeHeld (a / 64 * 64) 64 else s₄.readHeld (a / 64 * 64) 64) = false →
      exec (p.1 k cb) s = Done k i len .seq
        (if p.2 = 3 then (s₄.writeBack a).setClusters (a / 64 * 64) ⟨0, false⟩ else s₄.writeBack a)) ∧
  (∀ (k : CoreId) (cb : BitVec 5) (len va pa : Nat) (mt : MType) (s s₁ s₂ s₃ s₄ s₅ : State),
      let i := mkInsn (encMT cb.toNat 0 1 4) [cN cb] []
      let x := (s₁.core k).cR cb.toNat
      Reaches k i len s s₁ → cb.toNat < 16 → watch k x 0 64 false true s₁ = .ok () s₂ → needAligned x 0 64 s₂ = .ok () s₃ →
      coinCheck k cb.toNat x 0 64 1 none 0 s₃ = .ok va s₄ → xlate k va xZero (s₁.core k).ring 0 s₄ = .ok (pa, mt) s₅ → s₅.blocked = false →
      exec (.czero k cb) s = Done k i len .seq (s₅.modCore k fun c =>
        { c with sb := c.sb ++ [SbEntry.of .zero pa (List.replicate 64 0) mt false] })) ∧
  (∀ (k : CoreId) (a b : BitVec 5) (len : Nat) (s s₁ : State),
      let c := s₁.core k
      let asid := (c.gR a.toNat).toNat % 65536
      let t := s₁.performAll k
      c.ring = 0 → t.blocked = false →
      (Reaches k (mkInsn (encMT 0 0 2 0) [] []) len s s₁ →
        exec (.invtlbAll k) s = Done k (mkInsn (encMT 0 0 2 0) [] []) len .seq (t.modCore k fun d => { d with tlb := [], walk := [] })) ∧
      (Reaches k (mkInsn (encMT a.toNat 0 2 1) [gN a] []) len s s₁ →
        exec (.invtlbAsid k a) s = Done k (mkInsn (encMT a.toNat 0 2 1) [gN a] []) len .seq (t.modCore k fun d =>
          { d with tlb := d.tlb.filter fun e => !(e.asid == asid && !pteG e.pte), walk := d.walk.filter fun e => e.asid != asid })) ∧
      (Reaches k (mkInsn (encMT a.toNat b.toNat 2 2) [gN a, gN b] []) len s s₁ →
        exec (.invtlbPage k a b) s = Done k (mkInsn (encMT a.toNat b.toNat 2 2) [gN a, gN b] []) len .seq (t.modCore k fun d =>
          { d with tlb := d.tlb.filter fun e =>
              !(e.vbase == (c.gR b.toNat).toNat / pageSize e.level && (e.asid == asid || pteG e.pte)), walk := d.walk.filter fun e => e.asid != asid })) ∧
      (Reaches k (mkInsn (encMT 0 0 2 3) [] []) len s s₁ →
        exec (.invtlbNg k) s = Done k (mkInsn (encMT 0 0 2 3) [] []) len .seq (t.modCore k fun d =>
          { d with tlb := d.tlb.filter fun e => pteG e.pte, walk := [] })))

/-- Each coin register instruction writes its result and completes where its operands are legal. Rests on R60, R61, R62, R63, R64.
-/
def Obligations.CoinRegisterResult : Prop :=
  (∀ p ∈ ([(Instr.cmov, 0x00, fun x => x), (Instr.cclrt, 0x07, fun x => { x with tag := false })] :
      List ((CoreId → BitVec 5 → BitVec 5 → Instr) × Nat × (Coin → Coin))),
    ∀ (k : CoreId) (d a : BitVec 5) (len : Nat) (s s₁ : State),
      let i := mkInsn (encRR 0x28 d.toNat a.toNat 0 0 p.2.1) [cN a] [cN d]
      Reaches k i len s s₁ → d.toNat < 16 → a.toNat < 16 →
      exec (p.1 k d a) s = Done k i len .seq (s₁.modCore k fun c => c.setC d.toNat (p.2.2 (c.cR a.toNat)))) ∧
  (∀ p ∈ ([
      (Instr.clip, 0x01, fun x y => x.withRights (x.rights &&& y.extractLsb' 0 12)), (Instr.csetc, 0x02, fun x y => x.withCursor y),
      (Instr.cadd, 0x03, fun x y => x.withCursor (x.cursor + y))] :
      List ((CoreId → BitVec 5 → BitVec 5 → BitVec 5 → Instr) × Nat × (Coin → Word → Coin))),
    ∀ (k : CoreId) (d a b : BitVec 5) (len : Nat) (s s₁ : State),
      let i := mkInsn (encRR 0x28 d.toNat a.toNat b.toNat 0 p.2.1) [cN a, gN b] [cN d]
      let x := (s₁.core k).cR a.toNat
      Reaches k i len s s₁ → d.toNat < 16 → a.toNat < 16 → (x.tag = false ∨ bitB x.rights 6 = false) →
      exec (p.1 k d a b) s = Done k i len .seq (s₁.modCore k fun c => c.setC d.toNat (p.2.2 (c.cR a.toNat) (c.gR b.toNat)))) ∧
  (∀ (k : CoreId) (d a : BitVec 5) (imm : BitVec 12) (len : Nat) (s s₁ : State),
      let i := { mkInsn (encRI 0x29 d.toNat a.toNat 0 imm.toNat) [cN a] [cN d] with pfx := true }
      let x := (s₁.core k).cR a.toNat
      let v : Word := match (s₁.core k).pfx with
        | some p => BitVec.ofInt 64 (p.toInt * 2 ^ 12 + (imm.toNat : Int))
        | none => imm.signExtend 64
      Reaches k i len s s₁ → d.toNat < 16 → a.toNat < 16 → (x.tag = false ∨ bitB x.rights 6 = false) →
      exec (.caddi k d a imm) s = Done k i len .seq (s₁.modCore k fun c => c.setC d.toNat (x.withCursor (x.cursor + v)))) ∧
  (∀ (k : CoreId) (d a : BitVec 5) (imm : BitVec 12) (len : Nat) (s s₁ : State),
      let i := mkInsn (encRI 0x29 d.toNat a.toNat 1 imm.toNat) [cN a] [cN d]
      let x := (s₁.core k).cR a.toNat
      Reaches k i len s s₁ → d.toNat < 16 → a.toNat < 16 → (x.tag = false ∨ bitB x.rights 6 = false) →
      exec (.clipi k d a imm) s = Done k i len .seq (s₁.modCore k fun c => c.setC d.toNat (x.withRights (x.rights &&& imm)))) ∧
  (∀ (k : CoreId) (d a sel : BitVec 5) (len : Nat) (s s₁ : State),
      let i := mkInsn (encRR 0x28 d.toNat a.toNat sel.toNat 0 0x04) [cN a] [gN d]
      let x := (s₁.core k).cR a.toNat
      Reaches k i len s s₁ → a.toNat < 16 → sel.toNat ≤ 5 →
      exec (.cget k d a sel) s = Done k i len .seq (s₁.modCore k fun c => c.setG d.toNat
        ([x.cursor, BitVec.ofNat 64 x.purse, BitVec.ofNat 64 x.issue, x.rights.zeroExtend 64, if x.tag then 1 else 0,
          x.bits.extractLsb' 64 64].getD sel.toNat 0))) ∧
  (∀ (k : CoreId) (d a b : BitVec 5) (len : Nat) (s s₁ : State),
      let i := mkInsn (encRR 0x28 d.toNat a.toNat b.toNat 0 0x05) [cN a, cN b] [gN d]
      Reaches k i len s s₁ → a.toNat < 16 → b.toNat < 16 →
      exec (.ceq k d a b) s = Done k i len .seq (s₁.modCore k fun c => c.setG d.toNat (if c.cR a.toNat = c.cR b.toNat then 1 else 0))) ∧
  (∀ (k : CoreId) (d a b : BitVec 5) (len : Nat) (s s₁ : State),
      let i := mkInsn (encRR 0x28 d.toNat a.toNat b.toNat 0 0x08) [gN a, gN b] [cN d]
      Reaches k i len s s₁ → d.toNat < 16 →
      exec (.cpack k d a b) s = Done k i len .seq (s₁.modCore k fun c => c.setC d.toNat ⟨c.gR b.toNat ++ c.gR a.toNat, false⟩)) ∧
  (∀ (k : CoreId) (d a b : BitVec 5) (len : Nat) (s s₁ : State),
      let i := mkInsn (encRR 0x28 d.toNat a.toNat b.toNat 0 0x06) [cN a, gN b] [gN d]
      let c := s₁.core k
      let r := probeCode k (c.cR a.toNat) ((c.gR b.toNat).toNat % 16) s₁
      Reaches k i len s s₁ → a.toNat < 16 → (c.gR b.toNat).toNat % 16 ≤ 14 → r.2.blocked = false →
      exec (.cprobe k d a b) s = Done k i len .seq (r.2.modCore k fun c => c.setG d.toNat (BitVec.ofNat 64 r.1)))

/-- Loads and stores of every form complete with the access issued and the cursor updated as the form says. Rests on R60, R61, R111,
R112, R113, R115. -/
def Obligations.LoadStoreResult : Prop :=
  let loads (k : CoreId) (ins : Instr) (i : Insn) (file : MFile) (z r cb : Nat) (off : CoreState → Int × Int) (acquire : Bool) : Prop :=
    ∀ (len : Nat) (s s₁ s₂ s₃ s₄ : State), Reaches k i len s s₁ →
      watch k ((s₁.core k).cR cb) (off (s₁.core k)).1 (sizeBytes z) true false s₁ = .ok () s₁ →
      (if file = .f then vtouch k s₁ = .ok () s₂ else s₂ = s₁) →
      let c := s₂.core k
      let o := off (s₁.core k)
      let dst := loadDst c file z r
      (if file = .c then needAligned (c.cR cb) o.1 16 s₂ = .ok () s₃ else s₃ = s₂) →
      issueLoad k cb (c.cR cb) o.1 (sizeBytes z) (if file = .c then 4 else 0) (loadKindOf file z) dst acquire s₃ = .ok () s₄ →
      s₄.blocked = false →
      ∃ d, exec ins s = Done k i len .seq (s₄.setCore k d) ∧
        d = { (if o.2 = 0 then s₄.core k else (s₄.core k).setC cb ((c.cR cb).withCursor ((c.cR cb).cursor + BitVec.ofInt 64 o.2))) with
              shadow := if dst = .none then none else some ⟨dst.base, c.read dst.base⟩ }
  let stores (k : CoreId) (ins : Instr) (i : Insn) (file : MFile) (z r cb : Nat) (off : CoreState → Int × Int) (release : Bool) : Prop :=
    ∀ (len : Nat) (hs : List Half) (s s₁ s₂ s₃ : State), file ≠ .c → Reaches k i len s s₁ →
      watch k ((s₁.core k).cR cb) (off (s₁.core k)).1 (sizeBytes z) false true s₁ = .ok () s₁ →
      (if file = .f then vtouch k s₁ = .ok () s₂ else s₂ = s₁) →
      let c := s₂.core k
      let o := off (s₁.core k)
      storeHalves k cb (c.cR cb) o.1 (sizeBytes z) 1 none release s₂ = .ok hs s₃ → s₃.blocked = false →
      ∃ s₄, bufferStore k hs .data (storeBytes c file z r) release s₃ = .ok () s₄ ∧
        exec ins s = Done k i len .seq
          (if o.2 = 0 then s₄ else s₄.modCore k fun d => d.setC cb ((c.cR cb).withCursor ((c.cR cb).cursor + BitVec.ofInt 64 o.2)))
  let coinStores (k : CoreId) (ins : Instr) (i : Insn) (r cb : Nat) (off : CoreState → Int × Int) (release : Bool) : Prop :=
    ∀ (len : Nat) (hs : List Half) (x : Coin) (s s₁ s₂ s₃ s₄ : State), Reaches k i len s s₁ →
      let c := s₁.core k
      let o := off c
      watch k (c.cR cb) o.1 16 false true s₁ = .ok () s₁ →
      needAligned (c.cR cb) o.1 16 s₁ = .ok () s₂ → storeHalves k cb (c.cR cb) o.1 16 5 (some (c.cR r)) release s₂ = .ok hs s₃ →
      retireM k (c.cR r) s₃ = .ok x s₄ → s₄.blocked = false →
      ∃ s₅, bufferStore k hs (.coin x.tag) (natBytes 16 x.bits.toNat) release s₄ = .ok () s₅ ∧
        exec ins s = Done k i len .seq
          (if o.2 = 0 then s₅ else s₅.modCore k fun d => d.setC cb ((c.cR cb).withCursor ((c.cR cb).cursor + BitVec.ofInt 64 o.2)))
  let imm (disp : BitVec 12) (c : CoreState) : Int × Int :=
    (match c.pfx with | some x => x.toInt * 2 ^ 12 + (disp.toNat : Int) | none => disp.toInt, 0)
  let mx (gx : BitVec 5) (mode : BitVec 3) (n : Nat) (c : CoreState) : Int × Int :=
    if mode.toNat ≤ 4 then ((c.gR gx.toNat).toInt * (2 ^ mode.toNat : Nat), 0)
    else if mode.toNat = 5 then (0, n) else (-(n : Int), -(n : Int))
  ∀ (k : CoreId) (r cb gx : BitVec 5) (size mode : BitVec 3) (disp : BitVec 12) (d15 : BitVec 15) (order file : BitVec 2) (f : MFile),
    cb.toNat < 16 →
    (sizeOk .g false size.toNat = true → loads k (.ld k r cb size disp)
      { mkInsn (encMS 0x01 r.toNat cb.toNat size.toNat disp.toNat) [cN cb] [gN r] with pfx := true, load := true }
      .g size.toNat r.toNat cb.toNat (imm disp) false) ∧
    (sizeOk .f false size.toNat = true → loads k (.ldf k r cb size disp)
      { mkInsn (encMS 0x03 r.toNat cb.toNat size.toNat disp.toNat) [cN cb] [vN r] with pfx := true, load := true }
      .f size.toNat r.toNat cb.toNat (imm disp) false) ∧
    (r.toNat < 16 → loads k (.ldc k r cb d15)
      { mkInsn (encCM 0x07 r.toNat cb.toNat d15.toNat) [cN cb] [cN r] with load := true }
      .c 7 r.toNat cb.toNat (fun _ => (d15.toInt * 16, 0)) false) ∧
    (mxLegal false r cb gx size mode file order = some f → (f = .c → r.toNat < 16) → loads k (.lx k r cb gx size mode file order)
      { mkInsn (encMX 0x05 r.toNat cb.toNat gx.toNat size.toNat mode.toNat file.toNat order.toNat) [cN cb, gN gx]
          (memReg f r :: if mode.toNat ≥ 5 then [cN cb] else []) with load := true }
      f size.toNat r.toNat cb.toNat (mx gx mode (sizeBytes size.toNat)) (order = 1)) ∧
    (sizeOk .g true size.toNat = true → stores k (.st k r cb size disp)
      { mkInsn (encMS 0x02 r.toNat cb.toNat size.toNat disp.toNat) [cN cb, gN r] [] with pfx := true }
      .g size.toNat r.toNat cb.toNat (imm disp) false) ∧
    (sizeOk .f true size.toNat = true → stores k (.stf k r cb size disp)
      { mkInsn (encMS 0x04 r.toNat cb.toNat size.toNat disp.toNat) [cN cb, vN r] [] with pfx := true }
      .f size.toNat r.toNat cb.toNat (imm disp) false) ∧
    (mxLegal true r cb gx size mode file order = some f → f ≠ .c → stores k (.sx k r cb gx size mode file order)
      (mkInsn (encMX 0x06 r.toNat cb.toNat gx.toNat size.toNat mode.toNat file.toNat order.toNat) [memReg f r, cN cb, gN gx]
        (if mode.toNat ≥ 5 then [cN cb] else []))
      f size.toNat r.toNat cb.toNat (mx gx mode (sizeBytes size.toNat)) (order = 1)) ∧
    (mxLegal true r cb gx size mode file order = some .c → r.toNat < 16 → coinStores k (.sx k r cb gx size mode file order)
      (mkInsn (encMX 0x06 r.toNat cb.toNat gx.toNat size.toNat mode.toNat file.toNat order.toNat) [cN r, cN cb, gN gx]
        (if mode.toNat ≥ 5 then [cN cb] else []))
      r.toNat cb.toNat (mx gx mode (sizeBytes size.toNat)) (order = 1)) ∧
    (r.toNat < 16 → coinStores k (.stc k r cb d15)
      (mkInsn (encCM 0x08 r.toNat cb.toNat d15.toNat) [cN cb, cN r] [])
      r.toNat cb.toNat (fun _ => (d15.toInt * 16, 0)) false)

/-- Each atomic of any order on local memory writes the new value at once and the old value, sign-extended, to gd. Rests on R114,
R132, R257. The model's choice: the accesses that the order asks for are performed in the same step (log entry 9). -/
def Obligations.AtomicResult : Prop :=
  let signed (n x : Nat) : Int := if x % 2 ^ n < 2 ^ (n - 1) then x % 2 ^ n else (x % 2 ^ n : Int) - 2 ^ n
  ∀ p ∈ ([
      (Instr.swp, 0, fun _ _ g _ => some g), (Instr.cas, 1, fun _ m g d => if m = d then some g else none),
      (Instr.fadd, 2, fun n m g _ => some ((m + g) % 2 ^ n)), (Instr.fand, 3, fun _ m g _ => some (m &&& g)),
      (Instr.fOr, 4, fun _ m g _ => some (m ||| g)), (Instr.fxor, 5, fun _ m g _ => some (m ^^^ g)),
      (Instr.fmax, 6, fun n m g _ => some (if signed n m < signed n g then g else m)),
      (Instr.fmin, 7, fun n m g _ => some (if signed n g < signed n m then g else m))] :
      List ((CoreId → BitVec 5 → BitVec 5 → BitVec 5 → Bool → BitVec 2 → Instr) × Nat × (Nat → Nat → Nat → Nat → Option Nat))),
    ∀ (k : CoreId) (d cb g : BitVec 5) (w : Bool) (order : BitVec 2) (len va pa : Nat) (mt : MType) (a home : Nat) (region : Option Nat) (bs : List Byte) (tg : Bool)
      (s s₁ s₂ s₃ s₄ s₅ s₆ s₇ : State),
      let i := mkInsn (encAT d.toNat cb.toNat g.toNat p.2.1 (if w then 1 else 0) order.toNat) [cN cb, gN g, gN d] [gN d]
      let n := if w then 8 else 4
      let c := s₁.core k
      let x := c.cR cb.toNat
      let h : Half := ⟨pa, n, mt⟩
      let ordered := if order.toNat ≥ 2 then (s₄.loadFences k).performAll k else s₄.orderBefore k (order.toNat % 2 = 1)
      let new := p.2.2 (8 * n) (bytesNat bs) ((c.gR g.toNat).toNat % 2 ^ (8 * n)) ((c.gR d.toNat).toNat % 2 ^ (8 * n))
      Reaches k i len s s₁ → cb.toNat < 16 → watch k x 0 n true true s₁ = .ok () s₂ → needAligned x 0 n s₂ = .ok () s₃ →
      coinCheck k cb.toNat x 0 n 2 none 0 s₃ = .ok va s₄ → xlate k va (xKind 2 false) c.ring 0 ordered = .ok (pa, mt) s₅ →
      s₅.target pa = .local a home region → readNow k va h false 0 s₅ = .ok (bs, tg) s₆ → bytesNat bs < 2 ^ (8 * n) →
      (match new with
        | some v => writeNow k h .data (natBytes n (v % 2 ^ (8 * n))) s₆ = .ok () s₇
        | none => s₇ = s₆) →
      let t := s₇.modCore k fun c =>
        c.setG d.toNat (if w then BitVec.ofNat 64 (bytesNat bs) else (BitVec.ofNat 32 (bytesNat bs)).signExtend 64)
      let u := if order.toNat % 2 = 1 then t.returnAll k else t
      u.blocked = false → exec (p.1 k d cb g w order) s = Done k i len .seq u

/-- A block repeat with a count of 0 only completes; otherwise each whole element moves its cursors by one element and counts down
by one. Rests on R123, R124, R125. The model's choice: how many elements go before an interruption may be seen is an operand of the
command (log entry 21). -/
def Obligations.BlockRepeatResult : Prop :=
  let runs (k : CoreId) (ins : Nat → Instr) (i : Insn) (cs : List (BitVec 5)) (n : BitVec 5) (e : Nat) (desc : Bool) (elem : CM Bool) : Prop :=
    ∀ (len upto : Nat) (s s₁ s₂ : State), Reaches k i len s s₁ → (s₁.core k).step = false →
      ((s₁.core k).gR n.toNat = 0 → exec (ins upto) s = Done k i len .seq s₁) ∧
      ((s₁.core k).gR n.toNat ≠ 0 → 1 ≤ upto → elem s₁ = .ok true s₂ → s₂.blocked = false → exec (ins upto) s = Done k i len .seq s₂) ∧
      ((s₁.core k).gR n.toNat ≠ 0 → elem s₁ = .ok false s₂ → s₂.blocked = false →
        let t := s₂.modCore k (bkAdvance (cs.map (·.toNat)) n.toNat e desc)
        exec (ins 1) s = Done k i len (if (t.core k).gR n.toNat = 0 then .seq else .again) t)
  ∀ (k : CoreId) (a b n : BitVec 5) (z : BitVec 3) (desc neg : Bool), a.toNat < 16 →
    let e := 2 ^ z.toNat
    (b.toNat < 16 → a ≠ b → z.toNat ≤ 4 →
      runs k (fun u => .bmov k a b n z desc u) (bkInsn 0 a b n z desc false true) [a, b] n e desc
        (do
          bkWatch k b.toNat e desc true false
          bkWatch k a.toNat e desc false true
          let (r, w) ← bothChecks (bkCheck k b.toNat e desc false) (bkCheck k a.toNat e desc true)
          let hr ← bkXlate k r e false
          let hw ← bkXlate k w e true
          let v ← bkRead k r e hr
          bufferStore k hw .data (natBytes e v) false
          pure false) ∧
      runs k (fun u => .bcmp k a b n z desc u) (bkInsn 2 a b n z desc false true) [a, b] n e desc
        (do
          bkWatch k a.toNat e desc true false
          bkWatch k b.toNat e desc true false
          let (p, q) ← bothChecks (bkCheck k a.toNat e desc false) (bkCheck k b.toNat e desc false)
          let hp ← bkXlate k p e false
          let hq ← bkXlate k q e false
          let x ← bkRead k p e hp
          let y ← bkRead k q e hq
          pure (x != y)) ∧
      ∀ (c : CoreState), n ≠ 0 → ∀ cs ∈ [[a.toNat], [a.toNat, b.toNat]],
        let d := bkAdvance cs n.toNat e desc c
        d.gR n.toNat = c.gR n.toNat - 1 ∧
          ∀ j ∈ cs, d.cR j = (c.cR j).withCursor ((c.cR j).cursor + BitVec.ofInt 64 (if desc then -(e : Int) else e))) ∧
    (z.toNat ≤ 3 →
      runs k (fun u => .bfill k a b n z desc u) (bkInsn 1 a b n z desc false false) [a] n e desc
        (do
          bkWatch k a.toNat e desc false true
          let w ← bkCheck k a.toNat e desc true
          let hw ← bkXlate k w e true
          let c ← getC k
          bufferStore k hw .data (natBytes e ((c.gR b.toNat).toNat % 2 ^ (8 * e))) false
          pure false) ∧
      runs k (fun u => .bscan k a b n z desc neg u) (bkInsn 3 a b n z desc neg false) [a] n e desc
        (do
          bkWatch k a.toNat e desc true false
          let c ← getC k
          let p ← bkCheck k a.toNat e desc false
          let hp ← bkXlate k p e false
          let x ← bkRead k p e hp
          pure ((x == (c.gR b.toNat).toNat % 2 ^ (8 * e)) != neg)))

/-- MINT from a coin that passes its checks takes a free entry, writes the new LIVE entry there and gives a tagged coin to it with
status 0. Rests on R79, R80, R81, R83. -/
def Obligations.MintResult : Prop :=
  ∀ (k : CoreId) (d a b : BitVec 5) (len va : Nat) (p : Purse) (s s₁ s₂ : State),
    let i := mkInsn (encRR 0x28 d.toNat a.toNat b.toNat 0 0x10) [cN a, gN b, fun c => c.gDst (b.toNat + 1)] [cN d, gN b]
    let c := s₁.core k
    let x := c.cR a.toNat
    let n := (c.gR b.toNat).toNat
    let ctl := c.gR (b.toNat + 1)
    let r := (s₂.finishCorePurseWrs k.val).mintTake k
    let s₃ := r.2.modCore k fun c => { c with refill := c.csF R.CS_FREEHEAD F.CS_FREEHEAD_EN == 1 }
    Reaches k i len s s₁ → d.toNat < 16 → a.toNat < 16 → b.toNat % 2 = 0 → b ≠ 0 →
    coinCheckP k a.toNat x 0 0 13 none 0 (fun p => mintFault p x n ctl c.ring) s₁ = .ok (va, p) s₂ →
    (∀ j e, r.1 = .entry j → s₃.purseRead j = .ok e →
      let new := mintEntry e x.purse c.asid x.cursor.toNat n ctl
      let s₄ := s₃.writeMinted j new k
      let s₅ := s₄.modCore k fun c => { c with pcache := capTo 512 s₄.free ((j, new) :: c.pcache.filter fun q => q.1 != j) }
      let s₆ := s₅.setDir j (s₅.dirOf j ||| BitVec.ofNat 16 (2 ^ (k.val / 8)))
      s₆.blocked = false →
      exec (.mint k d a b) s = Done k i len .seq (s₆.modCore k fun c =>
        (c.setC d.toNat (Coin.make x.cursor j e.issue (ctl.extractLsb' 0 12) true)).setG b.toNat 0)) ∧
    (r.1 = .empty → s₃.blocked = false →
      exec (.mint k d a b) s = Done k i len .seq (s₃.modCore k fun c => (c.setC d.toNat Coin.zero).setG b.toNat 1)) ∧
    (r.1 = .badlist → s₃.blocked = false →
      exec (.mint k d a b) s = Done k i len .seq (s₃.modCore k fun c => (c.setC d.toNat Coin.zero).setG b.toNat 2))

/-- A recall hands its request to the home slice and waits; its status is written when it ends. Rests on R85, R86, R87. The model's
choices: which issue RECALLI and RECALLIF compare where the entry cannot be read (log entry 133), and what is left of a coin whose
recall fails (log entry 44). -/
def Obligations.RecallSendsAndCompletes : Prop :=
  (∀ (k : CoreId) (d a b : BitVec 5) (len va : Nat) (p : Purse) (s s₁ s₂ : State),
      let i := mkInsn (encRR 0x28 d.toNat a.toNat b.toNat 0 0x11) [cN a] [cN d, gN b]
      let x := (s₁.core k).cR a.toNat
      Reaches k i len s s₁ → a.toNat < 16 → d.toNat < 16 →
      coinCheckP k a.toNat x 0 0 14 none 0 (fun p => if p.sealld then some .rights else none) s₁ = .ok (va, p) s₂ → s₂.blocked = false →
      exec (.recall k d a b) s = .next (s₂.modCore k fun c =>
        { c with recallW := some ⟨x.purse, x.issue, false, some (d.toNat, x), b.toNat, some x.cursor, none, 0⟩ })) ∧
  (∀ (k : CoreId) (a b : BitVec 5) (len va : Nat) (p : Purse) (s s₁ s₂ : State),
      let i := mkInsn (encRR 0x28 0 a.toNat b.toNat 0 0x12) [cN a] [gN b]
      let x := (s₁.core k).cR a.toNat
      Reaches k i len s s₁ → a.toNat < 16 → (s₁.core k).ring = 0 →
      coinCheckP k a.toNat x 0 0 14 none 0 (fun p => if p.sealld then some .rights else none) s₁ = .ok (va, p) s₂ → s₂.blocked = false →
      exec (.recallf k 0 a b) s = .next (s₂.modCore k fun c =>
        { c with recallW := some ⟨x.purse, x.issue, true, none, b.toNat, some x.cursor, none, 0⟩ })) ∧
  (∀ q ∈ ([(Instr.recalli, 0x13, false), (Instr.recallif, 0x14, true)] :
      List ((CoreId → BitVec 5 → BitVec 5 → Instr) × Nat × Bool)),
    ∀ (k : CoreId) (d a : BitVec 5) (len : Nat) (s s₁ : State),
      let i := mkInsn (encRR 0x28 d.toNat a.toNat 0 0 q.2.1) [gN a] [gN d]
      let n := ((s₁.core k).gR a.toNat).toNat % 2 ^ 32
      let r := s₁.purseCached k n
      Reaches k i len s s₁ → (s₁.core k).ring = 0 →
      (s₁.ptbCount ≤ n → exec (q.1 k d a) s = Done k i len .seq (s₁.modCore k fun c => c.setG d.toNat 5)) ∧
      (n < s₁.ptbCount → r.2.blocked = false → ∃ issue, (∀ p, r.1 = .ok p → issue = p.issue) ∧
        exec (q.1 k d a) s = .next (r.2.modCore k fun c =>
          { c with recallW := some ⟨n, issue, q.2.2, none, d.toNat, none, none, 0⟩ }))) ∧
  (∀ (k : CoreId) (w : RecallWait) (code : Nat) (s : State), (s.core k).recallW = some w → w.arrived = some (.status code) →
      s.recallEnd k = (s.modCore k fun c =>
        { ((match w.cd with
            | some (d, x) => c.setC d (if code = 0 then x.withIssue (w.issue + 1) else { x with tag := false })
            | none => c).setG w.gd (BitVec.ofNat 64 code)) with recallW := none }).complete k false 4 .seq)

/-- The integer and packed decimal arithmetic instructions deliver their results and conditions. Rests on R135, R136, R137, R138,
R139, R140, R141. -/
def Obligations.ScalarArithmeticResult : Prop :=
  ((∀ p ∈ ([
        (Instr.adc, 0x00, fun x y c => ((x + y + c) % 2 ^ 64, (x + y + c) / 2 ^ 64)),
        (Instr.sbc, 0x01, fun x y c => ((x + 2 * 2 ^ 64 - y - c) % 2 ^ 64, if x < y + c then 1 else 0))] :
        List ((CoreId → BitVec 5 → BitVec 5 → BitVec 5 → BitVec 3 → Instr) × Nat × (Nat → Nat → Nat → Nat × Nat))),
      ∀ (k : CoreId) (d a b : BitVec 5) (f3 : BitVec 3) (len : Nat) (s s₁ : State),
        let w := encRR 0x14 d.toNat a.toNat b.toNat f3.toNat p.2.1
        let gc := 24 + f3.toNat
        let i := mkInsn w [gN a, gN b, fun c => c.gDst gc] [gN d, fun c => c.gDst gc]
        let c := s₁.core k
        let r := p.2.2 (c.gR a.toNat).toNat (c.gR b.toNat).toNat ((c.gR gc).toNat % 2)
        Reaches k i len s s₁ → d.toNat ≠ gc →
        exec (p.1 k d a b f3) s = Done k i len .seq (s₁.setCore k (c.deliver false w
          [(c.gDst d.toNat, .w (BitVec.ofNat 64 r.1)), (c.gDst gc, .w (BitVec.ofNat 64 r.2))] 0))) ∧
    (∀ p ∈ ([
        (Instr.mul, 0x02, fun x y => (x * y, 0)),
        (Instr.div, 0x05, fun x y => if y = 0 then (0, fIDIV) else if x = 0x8000000000000000 ∧ y = -1 then (0x8000000000000000, fIDIV)
          else (BitVec.ofInt 64 (x.toInt.tdiv y.toInt), 0)),
        (Instr.divu, 0x06, fun x y => if y = 0 then (0, fIDIV) else (x / y, 0)),
        (Instr.rem, 0x07, fun x y => if y = 0 then (x, fIDIV) else if x = 0x8000000000000000 ∧ y = -1 then (0, fIDIV)
          else (BitVec.ofInt 64 (x.toInt.tmod y.toInt), 0)),
        (Instr.remu, 0x08, fun x y => if y = 0 then (x, fIDIV) else (x % y, 0))] :
        List ((CoreId → BitVec 5 → BitVec 5 → BitVec 5 → Instr) × Nat × (Word → Word → Word × Flags8))),
      ∀ (k : CoreId) (d a b : BitVec 5) (len : Nat) (s s₁ : State),
        let w := encRR 0x14 d.toNat a.toNat b.toNat 0 p.2.1
        let i := mkInsn w [gN a, gN b] [gN d]
        let c := s₁.core k
        let r := p.2.2 (c.gR a.toNat) (c.gR b.toNat)
        Reaches k i len s s₁ →
        exec (p.1 k d a b) s = Done k i len .seq (s₁.setCore k (c.deliver true w [(c.gDst d.toNat, .w r.1)] r.2))) ∧
    (∀ p ∈ ([
        (Instr.mulw, 0x03, fun x y => BitVec.ofInt 128 (x.toInt * y.toInt)),
        (Instr.mulwu, 0x04, fun x y => BitVec.ofNat 128 (x.toNat * y.toNat))] :
        List ((CoreId → BitVec 5 → BitVec 5 → BitVec 5 → Instr) × Nat × (Word → Word → BitVec 128))),
      ∀ (k : CoreId) (d a b : BitVec 5) (len : Nat) (s s₁ : State),
        let w := encRR 0x14 d.toNat a.toNat b.toNat 0 p.2.1
        let i := mkInsn w [gN a, gN b] [gN d, fun c => c.gDst (d.toNat + 1)]
        let c := s₁.core k
        let r := p.2.2 (c.gR a.toNat) (c.gR b.toNat)
        Reaches k i len s s₁ → d.toNat % 2 = 0 → d ≠ 0 →
        exec (p.1 k d a b) s = Done k i len .seq (s₁.setCore k (c.deliver true w
          [(c.gDst d.toNat, .w (r.extractLsb' 0 64)), (c.gDst (d.toNat + 1), .w (r.extractLsb' 64 64))] 0)))) ∧
  ((∀ p ∈ ([(Instr.daddu, 0x00, dadduFn), (Instr.dsubu, 0x01, dsubuFn), (Instr.dadj, 0x06, dadjFn)] :
        List ((CoreId → BitVec 5 → BitVec 5 → BitVec 5 → BitVec 3 → Instr) × Nat × (CoreState → Nat → Nat → Nat → Nat × Nat × Flags8))),
      ∀ (k : CoreId) (d a b : BitVec 5) (f3 : BitVec 3) (len : Nat) (s s₁ : State),
        let w := encRR 0x20 d.toNat a.toNat b.toNat f3.toNat p.2.1
        let gc := 24 + f3.toNat
        let i := mkInsn w [gN a, gN b, fun c => c.gDst gc] [gN d, fun c => c.gDst gc]
        let c := s₁.core k
        let r := p.2.2 c (c.gR a.toNat).toNat (c.gR b.toNat).toNat ((c.gR gc).toNat % 2)
        Reaches k i len s s₁ → d.toNat ≠ gc →
        exec (p.1 k d a b f3) s = Done k i len .seq (s₁.setCore k (c.deliver false w
          [(c.gDst d.toNat, .w (BitVec.ofNat 64 r.1)), (c.gDst gc, .w (BitVec.ofNat 64 r.2.1))] r.2.2))) ∧
    (∀ p ∈ ([
        (fun k d a b _ => Instr.dadd k d a b, 0x02, 0, false, fun _ => dsumFn (· + ·)),
        (fun k d a b _ => Instr.dsub k d a b, 0x03, 0, false, fun _ => dsumFn (· - ·)),
        (Instr.dshl, 0x08, 1, false, dshlFn), (Instr.dshr, 0x09, 3, false, dshrFn), (Instr.dcmp, 0x0A, 5, false, dcmpFn),
        (fun k d a b _ => Instr.dpack k d a b, 0x0C, 0, true, fun _ => dpackFn),
        (fun k d a b _ => Instr.dunpk k d a b, 0x0D, 0, true, fun _ => dunpkFn)] :
        List ((CoreId → BitVec 5 → BitVec 5 → BitVec 5 → BitVec 3 → Instr) × Nat × Nat × Bool × (Nat → Word → Word → Word × Flags8))),
      ∀ (k : CoreId) (d a b : BitVec 5) (f3 : BitVec 3) (len : Nat) (s s₁ : State),
        let w := encRR 0x20 d.toNat a.toNat b.toNat f3.toNat p.2.1
        let i := mkInsn w [gN a, gN b] [gN d]
        let c := s₁.core k
        let r := p.2.2.2.2 f3.toNat (c.gR a.toNat) (c.gR b.toNat)
        Reaches k i len s s₁ → f3.toNat ≤ p.2.2.1 →
        exec (p.1 k d a b f3) s = Done k i len .seq (s₁.setCore k (c.deliver p.2.2.2.1 w [(c.gDst d.toNat, .w r.1)] r.2))) ∧
    (∀ p ∈ ([(Instr.dcvtb, 0x0E, dcvtbFn), (Instr.dcvtd, 0x0F, dcvtdFn)] :
        List ((CoreId → BitVec 5 → BitVec 5 → BitVec 3 → Instr) × Nat × (Nat → Word → Word × Flags8))),
      ∀ (k : CoreId) (d a : BitVec 5) (f3 : BitVec 3) (len : Nat) (s s₁ : State),
        let w := encRR 0x20 d.toNat a.toNat 0 f3.toNat p.2.1
        let i := mkInsn w [gN a] [gN d]
        let c := s₁.core k
        let r := p.2.2 f3.toNat (c.gR a.toNat)
        Reaches k i len s s₁ → f3.toNat ≤ 1 →
        exec (p.1 k d a f3) s = Done k i len .seq (s₁.setCore k (c.deliver true w [(c.gDst d.toNat, .w r.1)] r.2))) ∧
    (∀ p ∈ ([(Instr.daddq, 0x04, fun u v => u + v), (Instr.dsubq, 0x05, fun u v => u - v)] :
        List ((CoreId → BitVec 5 → BitVec 5 → BitVec 5 → Instr) × Nat × (Int → Int → Int))),
      ∀ (k : CoreId) (d a b : BitVec 5) (len : Nat) (s s₁ : State),
        let w := encRR 0x20 d.toNat a.toNat b.toNat 0 p.2.1
        let i := mkInsn w [gN a, gN1 a, gN b, gN1 b] [gN d, gN1 d]
        let c := s₁.core k
        let r := match qVal (c.gR a.toNat) (c.gR (a.toNat + 1)), qVal (c.gR b.toNat) (c.gR (b.toNat + 1)) with
          | some u, some v => qEnc (p.2.2 u v)
          | _, _ => (allOnes, allOnes, fDIGIT)
        Reaches k i len s s₁ → d.toNat % 2 = 0 → d ≠ 0 → a.toNat % 2 = 0 → b.toNat % 2 = 0 →
        exec (p.1 k d a b) s = Done k i len .seq (s₁.setCore k (c.deliver true w
          [(c.gDst d.toNat, .w r.1), (c.gDst (d.toNat + 1), .w r.2.1)] r.2.2))) ∧
    (∀ (k : CoreId) (d a b : BitVec 5) (f3 : BitVec 3) (len : Nat) (s s₁ : State),
        let w := encRR 0x20 d.toNat a.toNat b.toNat f3.toNat 0x07
        let i := mkInsn w [gN a, gN b] [gN d, gN1 d]
        let c := s₁.core k
        let r := dmulwFn f3.toNat (c.gR a.toNat) (c.gR b.toNat)
        Reaches k i len s s₁ → f3.toNat ≤ 1 → d.toNat % 2 = 0 → d ≠ 0 →
        exec (.dmulw k d a b f3) s = Done k i len .seq (s₁.setCore k (c.deliver true w
          [(c.gDst d.toNat, .w r.1), (c.gDst (d.toNat + 1), .w r.2.1)] r.2.2))) ∧
    (∀ (k : CoreId) (d a b : BitVec 5) (f3 : BitVec 3) (len : Nat) (s s₁ : State),
        let w := encRR 0x20 d.toNat a.toNat b.toNat f3.toNat 0x0B
        let i := mkInsn w [gN a, gN1 a, gN b, gN1 b] [gN d]
        let c := s₁.core k
        let r := relRes f3.toNat (qVal (c.gR a.toNat) (c.gR (a.toNat + 1))) (qVal (c.gR b.toNat) (c.gR (b.toNat + 1)))
        Reaches k i len s s₁ → f3.toNat ≤ 3 → a.toNat % 2 = 0 → b.toNat % 2 = 0 →
        exec (.dcmpq k d a b f3) s = Done k i len .seq (s₁.setCore k (c.deliver true w [(c.gDst d.toNat, .w r.1)] r.2))) ∧
    (∀ (k : CoreId) (d a : BitVec 5) (f3 : BitVec 3) (len : Nat) (s s₁ : State),
        let w := encRR 0x20 d.toNat a.toNat 0 f3.toNat 0x10
        let i := mkInsn w [gN a, if f3 = 2 then gN1 a else gN a] [gN d]
        let c := s₁.core k
        let ok := if f3 = 0 then (uVal (c.gR a.toNat)).isSome else if f3 = 1 then (sVal (c.gR a.toNat)).isSome
          else (qVal (c.gR a.toNat) (c.gR (a.toNat + 1))).isSome
        Reaches k i len s s₁ → f3.toNat ≤ 2 → (f3 = 2 → a.toNat % 2 = 0) →
        exec (.dchk k d a f3) s = Done k i len .seq (s₁.setCore k (c.deliver false w [(c.gDst d.toNat, .w (if ok then 1 else 0))] 0))))

/-- Packed decimal addition of valid words is addition of the numbers they stand for. Rests on R137, R138, R139. -/
def Obligations.PackedDecimalValues : Prop :=
  ∀ (st : CoreState) (x y : Word) (c : Nat), c ≤ 1 →
    (∀ u v, uVal x = some u → uVal y = some v →
      u < 10 ^ 16 ∧ v < 10 ^ 16 ∧
      (∃ w : Word, dadduFn st x.toNat y.toNat c = (w.toNat, (u + v + c) / 10 ^ 16, 0) ∧ uVal w = some ((u + v + c) % 10 ^ 16)) ∧
      (∃ w : Word, dsubuFn st x.toNat y.toNat c = (w.toNat, if u < v + c then 1 else 0, 0) ∧
        uVal w = some ((u + 2 * 10 ^ 16 - v - c) % 10 ^ 16))) ∧
    ((uVal x = none ∨ uVal y = none) →
      dadduFn st x.toNat y.toNat c = (2 ^ 64 - 1, 0, fDIGIT) ∧ dsubuFn st x.toNat y.toNat c = (2 ^ 64 - 1, 0, fDIGIT))

/-- An arithmetic result is written at once, or waits as a long operation and is written when that completes, with its flags and its
enabled exception. Rests on R133, R152, R153, R156. The model's readings: results and conditions are decided at issue and written
when the operation completes (log entry 90); the return address of the exception that follows is log entry 124's choice. -/
def Obligations.LongOperationDelivers : Prop :=
  (∀ (c : CoreState) (long : Bool) (word : Nat) (ws : List (Dst × DVal)) (fl : Flags8),
      let d := c.deliver long word ws fl
      let written : CoreState := ws.foldl (fun c w => c.write w.1 w.2) c
      ((long = false ∨ c.csF R.CS_STATUS F.CS_STATUS_PA = 1) →
        d.g = written.g ∧ d.v = written.v ∧ d.m = written.m ∧ d.longs = c.longs ∧
        d.csGet R.CS_FPFLAGS = c.csGet R.CS_FPFLAGS ||| fl.zeroExtend 64 ∧
        (fl &&& (c.csGet R.CS_FPCTL).extractLsb' 8 8 = 0 → d.ax = c.ax) ∧
        (fl &&& (c.csGet R.CS_FPCTL).extractLsb' 8 8 ≠ 0 → ∃ r, d.ax = c.ax ++ [r] ∧ r.pc = c.pcc.cursor ∧ r.opc = word % 128)) ∧
      (long = true → c.csF R.CS_STATUS F.CS_STATUS_PA = 0 →
        d.g = c.g ∧ d.v = c.v ∧ d.m = c.m ∧ d.cs = c.cs ∧ d.ax = c.ax ∧ ∃ l, d.longs = c.longs ++ [l] ∧ l.writes = ws ∧ l.flags = fl)) ∧
  (∀ (k : CoreId) (n : Nat) (s : State),
      ((s.core k).longs[n]? = none → exec (.longOpComplete k n) s = .next s) ∧
      (∀ l, (s.core k).longs[n]? = some l → ∃ t, exec (.longOpComplete k n) s = .next t ∧
        let c := s.core k
        let d := t.core k
        let written : CoreState := l.writes.foldl (fun c w => c.write w.1 w.2) c
        d.longs = c.longs.eraseIdx n ∧ d.g = written.g ∧ d.gg = written.gg ∧ d.v = written.v ∧ d.m = written.m ∧
        d.csGet R.CS_FPFLAGS = c.csGet R.CS_FPFLAGS ||| l.flags.zeroExtend 64 ∧ d.ax = c.ax ++ l.ax.toList ∧
        d.c = c.c ∧ d.pcc = c.pcc ∧ t.mem = s.mem ∧ ∀ j, j ≠ k → t.core j = s.core j))

/-- Every floating-point instruction of a legal format and rounding code delivers its result and conditions and completes. Rests on
R142, R144, R146, R147, R180. The model's readings: log entries 27 and 28 (corners of R145 to R150), 90 (long operations); taken
from outside the spec: IEEE 754-2019's tables (log entry 86); free: which of two equal decimals a minimum or maximum gives (log
entry 19). -/
def Obligations.FloatingResult : Prop :=
  let runs (k : CoreId) (ins : Instr) (i : Insn) (f : Option Fmt) (rm : Option (Nat × Bool))
      (g : Fmt → RMode → CoreState → List (Dst × DVal) × Flags8) : Prop :=
    ∀ (len : Nat) (fm : Fmt) (m : RMode) (s s₁ s₂ : State), Reaches k i len s s₁ → f = some fm →
      (match rm with | some (code, dec) => (s₁.core k).rmode code dec = some m | none => m = .rne) →
      vtouch k s₁ = .ok () s₂ → s₂.blocked = false →
      exec ins s = Done k i len .seq (s₂.modCore k fun c => c.deliver true i.word (g fm m c).1 (g fm m c).2)
  let toF (f : Fmt) (d : BitVec 5) (r : FpRes) : List (Dst × DVal) × Flags8 := ([fpDst f d.toNat (f.encode r.v)], r.fl)
  let toG (c : CoreState) (d : BitVec 5) (x : Word) (fl : Flags8) : List (Dst × DVal) × Flags8 := ([(c.gDst d.toNat, .w x)], fl)
  let bit (b : Bool) : Word := if b then 1 else 0
  ∀ (k : CoreId) (dec : Bool) (fmt : BitVec 2) (d a b : BitVec 5) (f3 : BitVec 3),
    let word (dec : Bool) (op a' b' f : Nat) := encFp dec fmt op d.toNat a' b' f
    (∀ p ∈ ([(Instr.fpAdd, 0, fpAdd), (Instr.fpSub, 1, fpSub), (Instr.fpMul, 2, fpMul), (Instr.fpDiv, 3, fpDiv)] :
        List ((CoreId → Bool → BitVec 2 → BitVec 5 → BitVec 5 → BitVec 5 → BitVec 3 → Instr) × Nat × (Fmt → RMode → FpVal → FpVal → FpRes))),
      runs k (p.1 k dec fmt d a b f3) (mkInsn (word dec p.2.1 a.toNat b.toNat f3.toNat) [vN a, vN b] [vN d]) (fpFmt dec fmt)
        (some (f3.toNat, dec)) fun f m c => toF f d (p.2.2 f m (c.fpR f a.toNat) (c.fpR f b.toNat))) ∧
    (∀ p ∈ ([(Instr.fpMin, 5, fun f => fpMinMax f false), (Instr.fpMax, 6, fun f => fpMinMax f true)] :
        List ((CoreId → Bool → BitVec 2 → BitVec 5 → BitVec 5 → BitVec 5 → Instr) × Nat × (Fmt → FpVal → FpVal → FpRes))),
      runs k (p.1 k dec fmt d a b) (mkInsn (word dec p.2.1 a.toNat b.toNat 0) [vN a, vN b] [vN d]) (fpFmt dec fmt) none
        fun f _ c => toF f d (p.2.2 f (c.fpR f a.toNat) (c.fpR f b.toNat))) ∧
    (∀ p ∈ ([
        (Instr.fpCeq, 7, fun f => fpRel f false (· == 0)), (Instr.fpClt, 8, fun f => fpRel f true (decide <| · < 0)),
        (Instr.fpCle, 9, fun f => fpRel f true (decide <| · ≤ 0)),
        (Instr.fpCun, 10, fun _ x y => (x.isNaN || y.isNaN, flagIf (x.isSNaN || y.isSNaN) fNV))] :
        List ((CoreId → Bool → BitVec 2 → BitVec 5 → BitVec 5 → BitVec 5 → Instr) × Nat × (Fmt → FpVal → FpVal → Bool × Flags8))),
      runs k (p.1 k dec fmt d a b) (mkInsn (word dec p.2.1 a.toNat b.toNat 0) [vN a, vN b] [gN d]) (fpFmt dec fmt) none
        fun f _ c => let r := p.2.2 f (c.fpR f a.toNat) (c.fpR f b.toNat); toG c d (bit r.1) r.2) ∧
    (∀ p ∈ ([(Instr.fpSqrt, 4, fpSqrt), (Instr.fpRint, 16, fpRint)] :
        List ((CoreId → Bool → BitVec 2 → BitVec 5 → BitVec 5 → BitVec 3 → Instr) × Nat × (Fmt → RMode → FpVal → FpRes))),
      runs k (p.1 k dec fmt d a f3) (mkInsn (word dec p.2.1 a.toNat 0 f3.toNat) [vN a] [vN d]) (fpFmt dec fmt) (some (f3.toNat, dec))
        fun f m c => toF f d (p.2.2 f m (c.fpR f a.toNat))) ∧
    runs k (.fpClass k dec fmt d a) (mkInsn (word dec 11 a.toNat 0 0) [vN a] [gN d]) (fpFmt dec fmt) none
      (fun f _ c => toG c d (BitVec.ofNat 64 (2 ^ fpClass f (c.fpR f a.toNat))) 0) ∧
    runs k (.fpCvtw k dec fmt d a f3) (mkInsn (word dec 12 a.toNat 0 f3.toNat) [vN a] [vN d]) (fpFmt dec fmt) (some (f3.toNat, dec))
      (fun f m c => toF (otherWidth f) d (fpCvtw f (otherWidth f) m (c.fpR f a.toNat))) ∧
    (∀ sel : BitVec 5, sel.toNat ≤ 1 → ∀ to_, fpFmt (!dec) (sel.extractLsb' 0 2) = some to_ →
      runs k (.fpCvtx k dec fmt d a sel f3) (mkInsn (word dec 13 a.toNat sel.toNat f3.toNat) [vN a] [vN d]) (fpFmt dec fmt)
        (some (f3.toNat, !dec)) (fun f m c => toF to_ d (fpCvtx f to_ m (c.fpR f a.toNat)))) ∧
    runs k (.fpCvti k dec fmt d a f3) (mkInsn (word dec 14 a.toNat 0 f3.toNat) [vN a] [gN d]) (fpFmt dec fmt) (some (f3.toNat, dec))
      (fun f m c => let r := fpCvti f m (c.fpR f a.toNat); toG c d r.1 r.2) ∧
    runs k (.fpCvtfi k dec fmt d a f3) (mkInsn (word dec 15 a.toNat 0 f3.toNat) [gN a] [vN d]) (fpFmt dec fmt) (some (f3.toNat, dec))
      (fun f m c => toF f d (fpCvtfi f m (c.gR a.toNat))) ∧
    runs k (.fpQuantize k fmt d a b f3) (mkInsn (word true 17 a.toNat b.toNat f3.toNat) [vN a, vN b] [vN d]) (fpFmt true fmt)
      (some (f3.toNat, true)) (fun f m c => toF f d (fpQuantize f m (c.fpR f a.toNat) (c.fpR f b.toNat))) ∧
    runs k (.fpSameq k fmt d a b) (mkInsn (word true 18 a.toNat b.toNat 0) [vN a, vN b] [gN d]) (fpFmt true fmt) none
      (fun f _ c => toG c d (bit (fpSameq (c.fpR f a.toNat) (c.fpR f b.toNat))) 0) ∧
    (f3.toNat ≤ 3 → runs k (.fpSgn k dec fmt d a b f3) (mkInsn (word dec 19 a.toNat b.toNat f3.toNat) [vN a, vN b] [vN d]) (fpFmt dec fmt) none
      (fun f _ c => ([fpDst f d.toNat (sgnBits f.width f3.toNat (c.fpBits f a.toNat) (c.fpBits f b.toNat))], 0))) ∧
    (pairBad dec fmt d true = false → runs k (.fpMvg k dec fmt d a)
      (mkInsn (word dec 20 a.toNat 0 0) [vN a] [gN d, if dec && fmt.toNat == 1 then gN1 d else gN d]) (fpFmt dec fmt) none
      (fun f _ c => if f.width = 128 then (pairWrites c d (c.fpBits f a.toNat), 0) else toG c d (BitVec.ofNat 64 (c.fpBits f a.toNat)) 0)) ∧
    (pairBad dec fmt a false = false → runs k (.fpMvf k dec fmt d a)
      (mkInsn (word dec 21 a.toNat 0 0) [gN a, if dec && fmt.toNat == 1 then gN1 a else gN a] [vN d]) (fpFmt dec fmt) none
      (fun f _ c => ([fpDst f d.toNat (if f.width = 128 then (c.gR a.toNat).toNat + 2 ^ 64 * (c.gR (a.toNat + 1)).toNat
        else (c.gR a.toNat).toNat % 2 ^ f.width)], 0))) ∧
    (d.toNat % 2 = 0 → d ≠ 0 → runs k (.fpTopack k fmt d a b f3)
      (mkInsn (word true 22 a.toNat b.toNat f3.toNat) [vN a, gN b] [gN d, gN1 d]) (fpFmt true fmt) (some (f3.toNat, true))
      (fun f m c => let r := topackFn f m (c.fpR f a.toNat) (c.gR b.toNat).toInt; (wordsTo c d r.1 r.2.1, r.2.2))) ∧
    (a.toNat % 2 = 0 → runs k (.fpFrompack k fmt d a b f3)
      (mkInsn (word true 23 a.toNat b.toNat f3.toNat) [gN a, gN1 a, gN b] [vN d]) (fpFmt true fmt) (some (f3.toNat, true))
      (fun f m c => toF f d (frompackFn f m (qVal (c.gR a.toNat) (c.gR (a.toNat + 1))) (c.gR b.toNat).toInt))) ∧
    (∀ p ∈ ([(Instr.fmadd, 0, false, false), (Instr.fmsub, 1, false, true), (Instr.fnmsub, 2, true, false), (Instr.fnmadd, 3, true, true)] :
        List ((CoreId → BitVec 2 → BitVec 5 → BitVec 5 → BitVec 5 → BitVec 3 → Instr) × Nat × Bool × Bool)),
      runs k (p.1 k fmt d a b f3)
        (mkInsn (encRR 0x23 d.toNat a.toNat b.toNat f3.toNat (fmt.toNat * 32 + p.2.1)) [vN a, vN b, vN d] [vN d])
        (some (fmaFmt fmt)) (some (f3.toNat, (fmaFmt fmt).dec))
        fun f m c =>
          let x := c.fpR f a.toNat
          let z := c.fpR f d.toNat
          toF f d (fpFma f m (if p.2.2.1 && !x.isNaN then x.flip else x) (c.fpR f b.toNat) (if p.2.2.2 && !z.isNaN then z.flip else z)))

/-- Integer vector instructions write their results element by element, merging or zeroing the inactive elements. Rests on R159,
R160, R161, R162, R163, R164, R166, R175, R180. The model's readings and choices: legal element sizes and the merging of reductions
and VDOT4 (log entries 29, 30), long operations (log entry 90), and no wait for earlier vector instructions where no fill is due
(log entry 106). -/
def Obligations.VectorIntegerAndMergeResult : Prop :=
  (let runs (k : CoreId) (ins : Instr) (i : Insn) (ok : CoreState → Bool) (g : CoreState → List (Dst × DVal)) : Prop :=
      ∀ (len : Nat) (s s₁ s₂ : State), Reaches k i len s s₁ → ok (s₁.core k) = true → vtouch k s₁ = .ok () s₂ → s₂.blocked = false →
        exec ins s = Done k i len .seq (s₂.modCore k fun c => c.deliver true i.word (g c) 0)
    let sg (e x : Nat) : Int := toSigned (8 * e) x
    let wrap (e : Nat) (x : Int) : Nat := (x % (2 ^ (8 * e) : Nat)).toNat
    ∀ (k : CoreId) (d a b : BitVec 5) (mask : BitVec 3),
      let word (f : Nat) := encVR f d.toNat a.toNat b.toNat mask.toNat
      let elem (c : CoreState) (n : BitVec 5) (j : Nat) : Nat := elemAt c.vE (c.vR n.toNat) j
      (∀ p ∈ ([
          (Instr.vadd, 0x20, 4, fun _ x y => x + y), (Instr.vsub, 0x21, 4, fun e x y => wrap e ((x : Int) - y)),
          (Instr.vmul, 0x22, 3, fun _ x y => x * y), (Instr.vand, 0x28, 4, fun _ x y => x &&& y),
          (Instr.vor, 0x29, 4, fun _ x y => x ||| y), (Instr.vxor, 0x2A, 4, fun _ x y => x ^^^ y),
          (Instr.vshl, 0x2B, 3, fun e x y => x * 2 ^ (y % (8 * e))), (Instr.vshr, 0x2C, 3, fun e x y => x / 2 ^ (y % (8 * e))),
          (Instr.vsar, 0x2D, 3, fun e x y => wrap e (sg e x / (2 ^ (y % (8 * e)) : Nat))),
          (Instr.vmin, 0x2E, 3, fun e x y => if sg e x ≤ sg e y then x else y),
          (Instr.vmax, 0x2F, 3, fun e x y => if sg e y ≤ sg e x then x else y),
          (Instr.vminu, 0x30, 3, fun _ x y => min x y), (Instr.vmaxu, 0x31, 3, fun _ x y => max x y),
          (Instr.vaddsat, 0x32, 3, fun e x y => wrap e (max (-(2 ^ (8 * e - 1) : Nat)) (min ((2 ^ (8 * e - 1) : Nat) - 1) (sg e x + sg e y))))] :
          List ((CoreId → BitVec 5 → BitVec 5 → BitVec 5 → BitVec 3 → Instr) × Nat × Nat × (Nat → Nat → Nat → Nat))),
        runs k (p.1 k d a b mask) (mkInsn (word p.2.1) [vN a, vN b, mkN mask] [vN d]) (fun c => c.sew ≤ p.2.2.1) fun c =>
          [(.v d.toNat, .vec (c.vMerge mask c.vE c.vN d.toNat fun j => p.2.2.2 c.vE (elem c a j) (elem c b j)))]) ∧
      (∀ p ∈ ([
          (Instr.vcmpeq, 0x33, fun _ x y => x == y), (Instr.vcmplt, 0x34, fun e x y => decide (sg e x < sg e y)),
          (Instr.vcmpltu, 0x35, fun _ x y => decide (x < y))] :
          List ((CoreId → BitVec 5 → BitVec 5 → BitVec 5 → BitVec 3 → Instr) × Nat × (Nat → Nat → Nat → Bool))),
        runs k (p.1 k d a b mask) (mkInsn (word p.2.1) [vN a, vN b, mkN mask] [mF d]) (fun c => c.sew ≤ 3 && d.toNat < 8) fun c =>
          [(.m d.toNat, .mask (c.mMerge mask c.vN d.toNat fun j => p.2.2 c.vE (elem c a j) (elem c b j)))]) ∧
      (∀ p ∈ ([
          (Instr.vredadd, 0x36, fun _ x y => x + y), (Instr.vredmax, 0x37, fun e x y => if sg e y ≤ sg e x then x else y)] :
          List ((CoreId → BitVec 5 → BitVec 5 → BitVec 5 → BitVec 3 → Instr) × Nat × (Nat → Nat → Nat → Nat))),
        runs k (p.1 k d a b mask) (mkInsn (word p.2.1) [vN a, vN b, mkN mask] [vN d]) (fun c => c.sew ≤ 3) fun c =>
          [(.v d.toNat, .vec (elemPut c.vE (c.read (.v d.toNat)).vecOf 0
            (((List.range c.vN).filter (c.vSel mask)).foldl (fun x j => p.2.2 c.vE x (elem c a j)) (elem c b 0))))]) ∧
      (∀ p ∈ ([
          (Instr.vmulwl, 0x23, false, true), (Instr.vmulwh, 0x24, true, true), (Instr.vmulwlu, 0x25, false, false),
          (Instr.vmulwhu, 0x26, true, false)] :
          List ((CoreId → BitVec 5 → BitVec 5 → BitVec 5 → BitVec 3 → Instr) × Nat × Bool × Bool)),
        runs k (p.1 k d a b mask) (mkInsn (word p.2.1) [vN a, vN b, mkN mask] [vN d]) (fun c => c.sew ≤ 3) fun c =>
          let n := c.vL / (2 * c.vE)
          let at_ (j : Nat) := if p.2.2.1 then n + j else j
          [(.v d.toNat, .vec (c.vMerge mask (2 * c.vE) n d.toNat fun j =>
            if p.2.2.2 then wrap (2 * c.vE) (sg c.vE (elem c a (at_ j)) * sg c.vE (elem c b (at_ j))) else elem c a (at_ j) * elem c b (at_ j)))]) ∧
      runs k (.vdot4 k d a b mask) (mkInsn (word 0x27) [vN a, vN b, vN d, mkN mask] [vN d]) (fun c => c.sew = 0) (fun c =>
        let t (j i : Nat) : Int := sg 1 (elemAt 1 (c.vR a.toNat) (4 * j + i)) * sg 1 (elemAt 1 (c.vR b.toNat) (4 * j + i))
        [(.v d.toNat, .vec (c.vMerge mask 4 (c.vL / 4) d.toNat fun j =>
          wrap 4 (sg 4 (elemAt 4 (c.vR d.toNat) j) + t j 0 + t j 1 + t j 2 + t j 3)))])) ∧
  ((∀ (c : CoreState) (mask : BitVec 3) (e n d : Nat) (f : Nat → Nat), 0 < e → n * e ≤ 512 →
        let old := (c.read (.v d)).vecOf
        let v := c.vMerge mask e n d f
        let active (j : Nat) : Bool := mask == 0 || bitB (c.mR mask.toNat) j
        (∀ j, j < n → elemAt e v j = if active j then f j % 2 ^ (8 * e) else if c.csF R.CS_VCTL F.CS_VCTL_ZM = 1 then 0 else elemAt e old j) ∧
        (∀ j, n ≤ j → elemAt e v j = elemAt e old j)) ∧
    (∀ (c : CoreState) (mask : BitVec 3) (n d : Nat) (f : Nat → Bool), n ≤ 512 →
        let old := (c.read (.m d)).maskOf
        let m := c.mMerge mask n d f
        let active (j : Nat) : Bool := mask == 0 || bitB (c.mR mask.toNat) j
        (∀ j, j < n → bitB m j = (active j && f j)) ∧ (∀ j, n ≤ j → bitB m j = bitB old j)))

/-- Every binary and decimal floating-point vector instruction of a legal element size delivers its elements and conditions and
completes. Rests on R159, R161, R163, R166, R167, R175, R180. The model's readings: log entries 27 and 29 (corners of the
operations), 30 (the order of traps), 90 (long operations), 106 (no wait where no fill is due); taken from outside the spec: log
entry 86. -/
def Obligations.VectorFloatingResult : Prop :=
  let runs (k : CoreId) (ins : Instr) (i : Insn) (ok : CoreState → Bool) (g : CoreState → List (Dst × DVal) × Flags8) : Prop :=
    ∀ (len : Nat) (s s₁ s₂ : State), Reaches k i len s s₁ → ok (s₁.core k) = true → vtouch k s₁ = .ok () s₂ → s₂.blocked = false →
      exec ins s = Done k i len .seq (s₂.modCore k fun c => c.deliver true i.word (g c).1 (g c).2)
  let fmt (dec : Bool) (c : CoreState) : Fmt :=
    if dec then (if c.sew = 3 then decimal64 else decimal128) else if c.sew = 1 then binary16 else if c.sew = 2 then binary32 else binary64
  let mode (dec : Bool) (c : CoreState) : RMode :=
    RMode.ofCode (if dec then c.csF R.CS_FPCTL F.CS_FPCTL_DRM else c.csF R.CS_FPCTL F.CS_FPCTL_BRM)
  let elems (c : CoreState) (mask : BitVec 3) (d e n : Nat) (r : Nat → Nat × Flags8) : List (Dst × DVal) × Flags8 :=
    ([(.v d, .vec (c.vMerge mask e n d fun j => (r j).1))], c.vFlags mask n fun j => (r j).2)
  ∀ (k : CoreId) (d a b : BitVec 5) (mask : BitVec 3),
    let word (f : Nat) := encVR f d.toNat a.toNat b.toNat mask.toNat
    let val (f : Fmt) (c : CoreState) (n : BitVec 5) (j : Nat) : FpVal := f.decode (elemAt c.vE (c.vR n.toNat) j)
    (∀ p ∈ ([
        (Instr.vfadd, 0x40, false, false, fun f m x y _ => fpAdd f m x y), (Instr.vfsub, 0x41, false, false, fun f m x y _ => fpSub f m x y),
        (Instr.vfmul, 0x42, false, false, fun f m x y _ => fpMul f m x y), (Instr.vfmadd, 0x43, false, true, fun f m x y z => fpFma f m x y z),
        (Instr.vfmin, 0x44, false, false, fun f _ x y _ => fpMinMax f false x y),
        (Instr.vfmax, 0x45, false, false, fun f _ x y _ => fpMinMax f true x y),
        (Instr.vdadd, 0x60, true, false, fun f m x y _ => fpAdd f m x y), (Instr.vdsub, 0x61, true, false, fun f m x y _ => fpSub f m x y),
        (Instr.vdmul, 0x62, true, false, fun f m x y _ => fpMul f m x y), (Instr.vdfma, 0x63, true, true, fun f m x y z => fpFma f m x y z),
        (Instr.vdquant, 0x64, true, false, fun f m x y _ => fpQuantize f m x y)] :
        List ((CoreId → BitVec 5 → BitVec 5 → BitVec 5 → BitVec 3 → Instr) × Nat × Bool × Bool ×
          (Fmt → RMode → FpVal → FpVal → FpVal → FpRes))),
      runs k (p.1 k d a b mask) (mkInsn (word p.2.1) ([vN a, vN b, mkN mask] ++ if p.2.2.2.1 then [vN d] else []) [vN d])
        (fun c => if p.2.2.1 then 3 ≤ c.sew && c.sew ≤ 4 else 1 ≤ c.sew && c.sew ≤ 3) fun c =>
        let f := fmt p.2.2.1 c
        elems c mask d.toNat c.vE c.vN fun j =>
          let r := p.2.2.2.2 f (mode p.2.2.1 c) (val f c a j) (val f c b j) (val f c d j)
          (f.encode r.v, r.fl)) ∧
    (∀ p ∈ ([
        (Instr.vfcmpeq, 0x46, false, fun f x y => fpRel f false (· == 0) x y),
        (Instr.vfcmplt, 0x47, false, fun f x y => fpRel f true (decide <| · < 0) x y),
        (Instr.vdcmpeq, 0x65, true, fun f x y => fpRel f false (· == 0) x y),
        (Instr.vdcmplt, 0x66, true, fun f x y => fpRel f true (decide <| · < 0) x y)] :
        List ((CoreId → BitVec 5 → BitVec 5 → BitVec 5 → BitVec 3 → Instr) × Nat × Bool × (Fmt → FpVal → FpVal → Bool × Flags8))),
      runs k (p.1 k d a b mask) (mkInsn (word p.2.1) [vN a, vN b, mkN mask] [mF d])
        (fun c => (if p.2.2.1 then 3 ≤ c.sew && c.sew ≤ 4 else 1 ≤ c.sew && c.sew ≤ 3) && d.toNat < 8) fun c =>
        let f := fmt p.2.2.1 c
        let r (j : Nat) := p.2.2.2 f (val f c a j) (val f c b j)
        ([(.m d.toNat, .mask (c.mMerge mask c.vN d.toNat fun j => (r j).1))], c.vFlags mask c.vN fun j => (r j).2)) ∧
    runs k (.vdot2h k d a b mask) (mkInsn (word 0x48) [vN a, vN b, vN d, mkN mask] [vN d]) (fun c => c.sew = 1) (fun c =>
      let h (n : BitVec 5) (j : Nat) := binary16.decode (elemAt 2 (c.vR n.toNat) j)
      elems c mask d.toNat 4 (c.vL / 4) fun j =>
        let r := fpDot2 (mode false c) (binary32.decode (elemAt 4 (c.vR d.toNat) j)) (h a (2 * j)) (h b (2 * j)) (h a (2 * j + 1)) (h b (2 * j + 1))
        (binary32.encode r.v, r.fl)) ∧
    (b.toNat ≤ 1 → runs k (.vfwiden k d a b mask) (mkInsn (word 0x49) [vN a, mkN mask] [vN d]) (fun c => 1 ≤ c.sew && c.sew ≤ 2) fun c =>
      let src := fmt false c
      let dst := binOf (c.sew + 1)
      let n := c.vL / (2 * c.vE)
      elems c mask d.toNat (2 * c.vE) n fun j =>
        let r := fpCvtw src dst .rne (val src c a (b.toNat * n + j))
        (dst.encode r.v, r.fl)) ∧
    (∀ p ∈ ([
        (Instr.vfcvti, 0x4C, 2, 3, fun c e x => fpCvtiN (8 * e) (fmt false c) (mode false c) ((fmt false c).decode x)),
        (Instr.vfcvtfi, 0x4D, 2, 3, fun c e x => vFromInt (fmt false c) (mode false c) e x),
        (Instr.vdfromi, 0x67, 3, 4, fun c e x => vFromInt (fmt true c) (mode true c) e x)] :
        List ((CoreId → BitVec 5 → BitVec 5 → BitVec 3 → Instr) × Nat × Nat × Nat × (CoreState → Nat → Nat → Nat × Flags8))),
      runs k (p.1 k d a mask) (mkInsn (encVR p.2.1 d.toNat a.toNat 0 mask.toNat) [vN a, mkN mask] [vN d])
        (fun c => p.2.2.1 ≤ c.sew && c.sew ≤ p.2.2.2.1) fun c =>
        elems c mask d.toNat c.vE c.vN fun j => p.2.2.2.2 c c.vE (elemAt c.vE (c.vR a.toNat) j))

/-- The vector moves, slides, mask instructions, VSETVL and VRELEASE complete with their results. Rests on R161, R162, R163, R164,
R165, R180, R183. The model's readings: VINS and VSPLAT (log entry 29), the order of traps (log entry 30), VRELEASE lets what is
under way land first (log entry 32), long operations (log entry 90), no wait where no fill is due (log entry 106). -/
def Obligations.VectorMoveResult : Prop :=
  let runs (k : CoreId) (ins : Instr) (i : Insn) (ok : CoreState → Bool) (g : CoreState → List (Dst × DVal)) : Prop :=
    ∀ (len : Nat) (s s₁ s₂ : State), Reaches k i len s s₁ → ok (s₁.core k) = true → vtouch k s₁ = .ok () s₂ → s₂.blocked = false →
      exec ins s = Done k i len .seq (s₂.modCore k fun c => c.deliver true i.word (g c) 0)
  ∀ (k : CoreId) (d a b : BitVec 5) (mask : BitVec 3),
    let word (f : Nat) (b' m : Nat) := encVR f d.toNat a.toNat b' m
    let old (c : CoreState) := (c.read (.v d.toNat)).vecOf
    let src (c : CoreState) (j : Nat) : Nat := elemAt c.vE (c.vR a.toNat) j
    let gb (c : CoreState) : Nat := (c.gR b.toNat).toNat
    runs k (.vsplat k d a mask) (mkInsn (word 0x11 0 mask.toNat) [gN a, gPair4 a, mkN mask] [vN d])
      (fun c => c.sew ≤ 4 && (c.sew != 4 || (a.toNat % 2 == 0 && a.toNat != 0))) (fun c =>
      [(.v d.toNat, .vec (c.vMerge mask c.vE c.vN d.toNat fun _ =>
        if c.sew = 4 then (c.gR a.toNat).toNat + 2 ^ 64 * (c.gR (a.toNat + 1)).toNat else (c.gR a.toNat).toNat))]) ∧
    runs k (.vins k d a b mask) (mkInsn (word 0x12 b.toNat mask.toNat) [gN a, gN b, mkN mask] [vN d]) (fun c => c.sew ≤ 3) (fun c =>
      [(.v d.toNat, .vec (if gb c < c.vN then
          elemPut c.vE (old c) (gb c) (elemAt c.vE (c.vMerge mask c.vE c.vN d.toNat fun _ => (c.gR a.toNat).toNat) (gb c))
        else old c))]) ∧
    runs k (.vext k d a b) (mkInsn (word 0x13 b.toNat 0) [vN a, gN b] [gN d, gPair4 d])
      (fun c => c.sew ≤ 4 && (c.sew != 4 || (d.toNat % 2 == 0 && d.toNat != 0))) (fun c =>
      let x := if gb c < c.vN then src c (gb c) else 0
      if c.sew = 4 then [(c.gDst d.toNat, .w (BitVec.ofNat 64 x)), (c.gDst (d.toNat + 1), .w (BitVec.ofNat 64 (x / 2 ^ 64)))]
      else [(c.gDst d.toNat, .w (BitVec.ofInt 64 (toSigned (8 * c.vE) x)))]) ∧
    runs k (.vmv k d a mask) (mkInsn (word 0x14 0 mask.toNat) [vN a, mkN mask] [vN d]) (fun c => c.sew ≤ 4) (fun c =>
      [(.v d.toNat, .vec (c.vMerge mask c.vE c.vN d.toNat (src c)))]) ∧
    runs k (.vsldn k d a b mask) (mkInsn (word 0x15 b.toNat mask.toNat) [vN a, gN b, mkN mask] [vN d]) (fun c => c.sew ≤ 4) (fun c =>
      [(.v d.toNat, .vec (c.vMerge mask c.vE c.vN d.toNat fun j => if j + gb c < c.vN then src c (j + gb c) else 0))]) ∧
    runs k (.vslup k d a b mask) (mkInsn (word 0x16 b.toNat mask.toNat) [vN a, gN b, mkN mask] [vN d]) (fun c => c.sew ≤ 4) (fun c =>
      [(.v d.toNat, .vec (c.vMerge mask c.vE c.vN d.toNat fun j =>
        if gb c ≤ j then src c (j - gb c) else elemAt c.vE (old c) j))]) ∧
    (∀ p ∈ ([(Instr.mand, 0x70, fun x y => x &&& y), (Instr.mor, 0x71, fun x y => x ||| y), (Instr.mxor, 0x72, fun x y => x ^^^ y),
        (Instr.mandn, 0x73, fun x y => x &&& ~~~y)] :
        List ((CoreId → BitVec 5 → BitVec 5 → BitVec 5 → Instr) × Nat × (BitVec 512 → BitVec 512 → BitVec 512))),
      runs k (p.1 k d a b) (mkInsn (word p.2.1 b.toNat 0) [mF a, mF b] [mF d]) (fun _ => d.toNat < 8 && a.toNat < 8 && b.toNat < 8)
        fun c => [(.m d.toNat, .mask (p.2.2 (c.mR a.toNat) (c.mR b.toNat)))]) ∧
    runs k (.mpopc k d a) (mkInsn (word 0x74 0 0) [mF a] [gN d]) (fun _ => a.toNat < 8) (fun c =>
      [(c.gDst d.toNat, .w (BitVec.ofNat 64 ((List.range c.vN).filter (bitB (c.mR a.toNat))).length))]) ∧
    runs k (.mfirst k d a) (mkInsn (word 0x75 0 0) [mF a] [gN d]) (fun _ => a.toNat < 8) (fun c =>
      [(c.gDst d.toNat, .w (match (List.range c.vN).find? (bitB (c.mR a.toNat)) with | some j => BitVec.ofNat 64 j | none => -1))]) ∧
    runs k (.mmvg k d a b) (mkInsn (word 0x76 b.toNat 0) [mF a, gN b] [gN d]) (fun _ => a.toNat < 8) (fun c =>
      [(c.gDst d.toNat, .w (if gb c ≤ 7 then (c.mR a.toNat).extractLsb' (64 * gb c) 64 else 0))]) ∧
    runs k (.mmvm k d a b) (mkInsn (word 0x77 b.toNat 0) [gN a, gN b] [mF d]) (fun _ => d.toNat < 8) (fun c =>
      let m := (c.read (.m d.toNat)).maskOf
      [(.m d.toNat, .mask (if gb c ≤ 7 then setF m ⟨64 * gb c + 63, 64 * gb c⟩ (c.gR a.toNat).toNat else m))]) ∧
    (∀ (len : Nat) (s s₁ s₂ : State),
      let i := mkInsn (word 0x10 b.toNat mask.toNat) [gN a] [gN d, mN mask.toNat]
      Reaches k i len s s₁ → b.toNat ≤ 4 → vtouch k s₁ = .ok () s₂ → s₂.blocked = false →
      let c := s₂.core k
      let e := 2 ^ b.toNat
      let n := min (c.gR a.toNat).toNat (512 / e)
      exec (.vsetvl k d a b mask) s = Done k i len .seq (s₂.setCore k
        ((((c.csSetF R.CS_VCTL F.CS_VCTL_SEW b.toNat).csSetF R.CS_VL F.CS_VL_VL (max 16 (16 * ((n * e + 15) / 16)))).setM mask.toNat
          (BitVec.ofNat 512 (2 ^ n - 1))).setG d.toNat (BitVec.ofNat 64 n)))) ∧
    (∀ (len : Nat) (s s₁ : State),
      let i := mkInsn (encVR 0x17 0 0 0 0) [] []
      let t := (s₁.modCore k CoreState.longsDone).returnAll k
      let c := t.core k
      Reaches k i len s s₁ → t.blocked = false →
      exec (.vrelease k) s = Done k i len .seq (t.setCore k
        (if c.csF R.CS_VSTATE F.CS_VSTATE_PEND = 0 ∧ c.csF R.CS_VSTATE F.CS_VSTATE_NOFRAME = 0
          then c.vZero.csSetF R.CS_VSTATE F.CS_VSTATE_USED 0 else c)))

/-- Every vector load writes vd once all its active elements are read, and every vector store enters the store buffer only after all
its elements pass. Rests on R162, R168, R169, R170, R171, R180. The model's readings: a vector load is performed element by element
at issue, a store's elements enter the buffer after the pre-check of all (log entry 31); an illegal element size comes before
vector_touch (log entry 30) and a watchpoint before every trap of the instruction (log entry 92). -/
def Obligations.VectorMemoryResult : Prop :=
  ∀ (k : CoreId) (d cb b : BitVec 5) (mask : BitVec 3), cb.toNat < 16 →
    let word (f bf m : Nat) := encVR f d.toNat cb.toNat bf m
    let unit (c : CoreState) (j : Nat) : Int := (j * c.vE : Nat)
    let stride (c : CoreState) (j : Nat) : Int := j * (c.gR b.toNat).toInt
    let index (c : CoreState) (j : Nat) : Int := toSigned (8 * min c.vE 8) (elemAt c.vE (c.vR b.toNat) j)
    let active (c : CoreState) (off : CoreState → Nat → Int) : List (Nat × Int) :=
      ((List.range c.vN).filter (c.vSel mask)).map fun j => (j, off c j)
    let moved (upd : Bool) (c : CoreState) (s : State) : State :=
      let x := c.cR cb.toNat
      if upd then s.modCore k fun y => y.setC cb.toNat (x.withCursor (x.cursor + BitVec.ofNat 64 (c.csF R.CS_VL F.CS_VL_VL))) else s
    (∀ p ∈ ([
        (Instr.vld k d cb mask, 0x00, 0, VForm.unit, false, unit, [], 0), (Instr.vldp k d cb mask, 0x01, 0, .unit, true, unit, [], 0),
        (Instr.vlds k d cb b mask, 0x02, 0, .strided, false, stride, [gN b], b.toNat),
        (Instr.vldx k d cb b mask, 0x03, 2, .indexed, false, index, [vN b], b.toNat)] :
        List (Instr × Nat × Nat × VForm × Bool × (CoreState → Nat → Int) × List (CoreState → Dst) × Nat)),
      match p with
      | (ins, f7, lo, form, upd, off, srcs, bf) =>
        ∀ (len : Nat) (data : List (Nat × List Byte)) (s s₁ s₂ s₃ : State),
          let i := mkInsn (word f7 bf mask.toNat) ([cN cb, mkN mask] ++ srcs) (vN d :: if upd then [cN cb] else [])
          let c := s₁.core k
          let get (j : Nat) : Nat := match data.find? (·.1 == j) with | some x => bytesNat x.2 | none => 0
          Reaches k i len s s₁ → lo ≤ c.sew → c.sew ≤ 4 →
          vWatch k form false (c.cR cb.toNat) c.vE (active c off) s₁ = .ok () s₁ → vtouch k s₁ = .ok () s₂ →
          vLoadAll k form cb.toNat (c.cR cb.toNat) c.vE (active c off) s₂ = .ok data s₃ → s₃.blocked = false →
          exec ins s = Done k i len .seq (moved upd c (s₃.modCore k fun x => x.setV d.toNat (x.vMerge mask x.vE x.vN d.toNat get)))) ∧
    (∀ p ∈ ([
        (Instr.vld k d cb mask, 0x00, 0, VForm.unit, false, unit, [], 0), (Instr.vldp k d cb mask, 0x01, 0, .unit, true, unit, [], 0),
        (Instr.vlds k d cb b mask, 0x02, 0, .strided, false, stride, [gN b], b.toNat),
        (Instr.vldx k d cb b mask, 0x03, 2, .indexed, false, index, [vN b], b.toNat)] :
        List (Instr × Nat × Nat × VForm × Bool × (CoreState → Nat → Int) × List (CoreState → Dst) × Nat)),
      match p with
      | (ins, f7, lo, form, upd, off, srcs, bf) =>
        ∀ (len : Nat) (rep : TrapRep) (s s₁ s₂ s₃ s₄ : State),
          let i := mkInsn (word f7 bf mask.toNat) ([cN cb, mkN mask] ++ srcs) (vN d :: if upd then [cN cb] else [])
          let c := s₁.core k
          Reaches k i len s s₁ → lo ≤ c.sew → c.sew ≤ 4 →
          vWatch k form false (c.cR cb.toNat) c.vE (active c off) s₁ = .ok () s₁ → vtouch k s₁ = .ok () s₂ →
          vLoadAll k form cb.toNat (c.cR cb.toNat) c.vE (active c off) s₂ = .error (.trap rep) s₃ →
          (s₃.core k).v = (s₂.core k).v ∧ (s₃.core k).cR cb.toNat = (s₂.core k).cR cb.toNat ∧
          (enter k rep c.pcc.cursor c.pcc.cursor id s₃ = .ok () s₄ → s₄.blocked = false →
            exec ins s = .next (s₄.modCore k CoreState.stepped))) ∧
    (∀ p ∈ ([
        (Instr.vst k d cb mask, 0x04, 0, VForm.unit, false, unit, [], 0), (Instr.vstp k d cb mask, 0x05, 0, .unit, true, unit, [], 0),
        (Instr.vsts k d cb b mask, 0x06, 0, .strided, false, stride, [gN b], b.toNat),
        (Instr.vstx k d cb b mask, 0x07, 2, .indexed, false, index, [vN b], b.toNat)] :
        List (Instr × Nat × Nat × VForm × Bool × (CoreState → Nat → Int) × List (CoreState → Dst) × Nat)),
      match p with
      | (ins, f7, lo, form, upd, off, srcs, bf) =>
        ∀ (len : Nat) (hs : List (Nat × List Half)) (s s₁ s₂ s₃ s₄ : State),
          let i := mkInsn (word f7 bf mask.toNat) ([cN cb, mkN mask, vN d] ++ srcs) (if upd then [cN cb] else [])
          let c := s₁.core k
          Reaches k i len s s₁ → lo ≤ c.sew → c.sew ≤ 4 →
          vWatch k form true (c.cR cb.toNat) c.vE (active c off) s₁ = .ok () s₁ → vtouch k s₁ = .ok () s₂ →
          vCheckAll k form cb.toNat (c.cR cb.toNat) c.vE (active c off) s₂ = .ok hs s₃ →
          vWriteAll k (fun j => natBytes c.vE (elemAt c.vE (c.vR d.toNat) j)) hs s₃ = .ok () s₄ → s₄.blocked = false →
          exec ins s = Done k i len .seq (moved upd c s₄)) ∧
    (∀ p ∈ ([
        (Instr.vst k d cb mask, 0x04, 0, VForm.unit, false, unit, [], 0), (Instr.vstp k d cb mask, 0x05, 0, .unit, true, unit, [], 0),
        (Instr.vsts k d cb b mask, 0x06, 0, .strided, false, stride, [gN b], b.toNat),
        (Instr.vstx k d cb b mask, 0x07, 2, .indexed, false, index, [vN b], b.toNat)] :
        List (Instr × Nat × Nat × VForm × Bool × (CoreState → Nat → Int) × List (CoreState → Dst) × Nat)),
      match p with
      | (ins, f7, lo, form, upd, off, srcs, bf) =>
        ∀ (len : Nat) (rep : TrapRep) (s s₁ s₂ s₃ s₄ : State),
          let i := mkInsn (word f7 bf mask.toNat) ([cN cb, mkN mask, vN d] ++ srcs) (if upd then [cN cb] else [])
          let c := s₁.core k
          Reaches k i len s s₁ → lo ≤ c.sew → c.sew ≤ 4 →
          vWatch k form true (c.cR cb.toNat) c.vE (active c off) s₁ = .ok () s₁ → vtouch k s₁ = .ok () s₂ →
          vCheckAll k form cb.toNat (c.cR cb.toNat) c.vE (active c off) s₂ = .error (.trap rep) s₃ →
          (s₃.core k).sb.length ≤ (s₂.core k).sb.length ∧ (s₃.core k).cR cb.toNat = (s₂.core k).cR cb.toNat ∧
          (enter k rep c.pcc.cursor c.pcc.cursor id s₃ = .ok () s₄ → s₄.blocked = false →
            exec ins s = .next (s₄.modCore k CoreState.stepped))) ∧
    (∀ (len : Nat) (bs : List Byte) (s s₁ s₂ s₃ : State),
      let i := mkInsn (word 0x08 0 0) [cN cb] [mF d]
      Reaches k i len s s₁ → d.toNat < 8 → vWatch k .mask false ((s₁.core k).cR cb.toNat) 64 [(0, 0)] s₁ = .ok () s₁ → vtouch k s₁ = .ok () s₂ →
      vLoadElem k .mask cb.toNat ((s₂.core k).cR cb.toNat) 0 64 0 s₂ = .ok bs s₃ → s₃.blocked = false →
      exec (.vldm k d cb) s = Done k i len .seq (s₃.modCore k fun c => c.setM d.toNat (BitVec.ofNat 512 (bytesNat bs)))) ∧
    (∀ (len : Nat) (hs : List Half) (s s₁ s₂ s₃ s₄ : State),
      let i := mkInsn (word 0x09 0 0) [cN cb, mF d] []
      let c := s₂.core k
      Reaches k i len s s₁ → d.toNat < 8 → vWatch k .mask true ((s₁.core k).cR cb.toNat) 64 [(0, 0)] s₁ = .ok () s₁ → vtouch k s₁ = .ok () s₂ →
      vCheckElem k .mask cb.toNat (c.cR cb.toNat) 0 64 0 s₂ = .ok hs s₃ →
      bufferStore k hs .data (natBytes 64 (c.mR d.toNat).toNat) false s₃ = .ok () s₄ → s₄.blocked = false →
      exec (.vstm k d cb) s = Done k i len .seq s₄)

/-- Every K16 register, immediate and data bank instruction writes its result and exactly its flags and completes. Rests on R383,
R385, R386, R390. The model's readings: unsigned MULU, SETDBR's bits and V after a valid DADC or DSBC (log entry 33). -/
def Obligations.HeritageRegisterResult : Prop :=
  let zn (r : Nat) (c v h : Option Bool) : HFlags := ⟨c, some (decide (r = 0)), some (decide (2 ^ 15 ≤ r)), v, h⟩
  let neg (x : Nat) : Bool := decide (2 ^ 15 ≤ x % 2 ^ 16)
  let add (x y : Nat) (cin : Bool) : Nat × HFlags :=
    let t := x + y + (if cin then 1 else 0)
    let r := t % 2 ^ 16
    (r, zn r (some (decide (2 ^ 16 ≤ t))) (some (neg x == neg y && neg r != neg x))
      (some (decide (16 ≤ x % 16 + y % 16 + (if cin then 1 else 0)))))
  let sub (x y : Nat) (cin : Bool) : Nat × HFlags :=
    let b := y + (if cin then 1 else 0)
    let r := (x + 2 ^ 17 - b) % 2 ^ 16
    (r, zn r (some (decide (x < b))) (some (neg x != neg y && neg r != neg x)) (some (decide (x % 16 < y % 16 + (if cin then 1 else 0)))))
  let logic (r : Nat) : Nat × HFlags := (r, zn r none (some false) none)
  let keep : HFlags := ⟨none, none, none, none, none⟩
  let ext (imm : BitVec 8) : Nat := (imm.signExtend 16).toNat
  let after (s : State) (k : CoreId) (d : BitVec 4) (wr : Bool) (r : Nat × HFlags) : State :=
    let c := s.core k
    s.setCore k ((if wr then c.setH d.toNat r.1 else c).setHFlags r.2)
  ∀ (k : CoreId) (d a : BitVec 4) (imm : BitVec 8) (s s₁ : State),
    let c := s₁.core k
    let x := c.hR d.toNat
    let y := c.hR a.toNat
    (∀ p ∈ ([
        (Instr.k16Mov, 0x0, true, fun _ _ y => (y, keep)), (Instr.k16Add, 0x1, true, fun _ x y => add x y false),
        (Instr.k16Adc, 0x2, true, fun f x y => add x y f), (Instr.k16Sub, 0x3, true, fun _ x y => sub x y false),
        (Instr.k16Sbc, 0x4, true, fun f x y => sub x y f), (Instr.k16And, 0x5, true, fun _ x y => logic (x &&& y)),
        (Instr.k16Or, 0x6, true, fun _ x y => logic (x ||| y)), (Instr.k16Xor, 0x7, true, fun _ x y => logic (x ^^^ y)),
        (Instr.k16Cmp, 0x8, false, fun _ x y => sub x y false), (Instr.k16Tst, 0x9, false, fun _ x y => logic (x &&& y)),
        (Instr.k16Shl, 0xA, true, fun _ x y => let n := y % 16; let r := x * 2 ^ n % 2 ^ 16
          (r, zn r (if n = 0 then none else some (x.testBit (16 - n))) none none)),
        (Instr.k16Shr, 0xB, true, fun _ x y => let n := y % 16; let r := x / 2 ^ n
          (r, zn r (if n = 0 then none else some (x.testBit (n - 1))) none none)),
        (Instr.k16Sar, 0xC, true, fun _ x y => let n := y % 16; let r := (toSigned 16 x / (2 ^ n : Nat) % (2 ^ 16 : Nat)).toNat
          (r, zn r (if n = 0 then none else some (x.testBit (n - 1))) none none)),
        (Instr.k16Dadc, 0xD, true, fun f x y => hDec false x y f), (Instr.k16Dsbc, 0xE, true, fun f x y => hDec true x y f)] :
        List ((CoreId → BitVec 4 → BitVec 4 → Instr) × Nat × Bool × (Bool → Nat → Nat → Nat × HFlags))),
      let i := mkInsn (encK 1 d.toNat a.toNat p.2.1) [hN d, hN a] (if p.2.2.1 then [hN d] else [])
      ReachesK16 k i s s₁ →
      exec (p.1 k d a) s = Done k i 2 .seq (after s₁ k d p.2.2.1 (p.2.2.2 (c.csF R.CS_HSTAT F.CS_HSTAT_C == 1) x y))) ∧
    (∀ p ∈ ([
        (Instr.k16Addi, 2, true, fun x i => add x (ext i) false), (Instr.k16Movi, 3, true, fun _ i => (ext i, keep)),
        (Instr.k16Movhi, 4, true, fun x i => (x % 256 + 256 * i.toNat, keep)), (Instr.k16Cmpi, 5, false, fun x i => sub x (ext i) false)] :
        List ((CoreId → BitVec 4 → BitVec 8 → Instr) × Nat × Bool × (Nat → BitVec 8 → Nat × HFlags))),
      let i := mkInsn (encK p.2.1 d.toNat (imm.toNat / 16) (imm.toNat % 16)) [hN d] (if p.2.2.1 then [hN d] else [])
      ReachesK16 k i s s₁ → exec (p.1 k d imm) s = Done k i 2 .seq (after s₁ k d p.2.2.1 (p.2.2.2 x imm))) ∧
    (let i := mkInsn (encK 1 d.toNat a.toNat 0xF) [hN d, hN a] [hN d, hN (d + 1)];
      ReachesK16 k i s s₁ → d.toNat % 2 = 0 →
      exec (.k16Mulu k d a) s = Done k i 2 .seq (s₁.setCore k
        (((c.setH d.toNat (x * y)).setH (d.toNat + 1) (x * y / 2 ^ 16)).setHFlags { keep with z := some (decide (x * y = 0)) }))) ∧
    (let i := mkInsn (encK 8 0 (imm.toNat / 16) (imm.toNat % 16)) [] [];
      ReachesK16 k i s s₁ → exec (.k16Setdb k imm) s = Done k i 2 .seq (s₁.setCore k (c.csSetF R.CS_HSTAT F.CS_HSTAT_DB imm.toNat))) ∧
    (let i := mkInsn (encK 8 1 0 a.toNat) [hN a] [];
      ReachesK16 k i s s₁ → exec (.k16Setdbr k a) s = Done k i 2 .seq (s₁.setCore k (c.csSetF R.CS_HSTAT F.CS_HSTAT_DB (y % 256)))) ∧
    (let i := mkInsn (encK 8 2 0 a.toNat) [] [hN a];
      ReachesK16 k i s s₁ → exec (.k16Getdb k a) s = Done k i 2 .seq (s₁.setCore k (c.setH a.toNat (c.csF R.CS_HSTAT F.CS_HSTAT_DB)))) ∧
    (let i := mkInsn (encK 0 0 0 0) [] [];
      ReachesK16 k i s s₁ → exec (.k16Nop k) s = Done k i 2 .seq s₁)

/-- HENTER, HEXIT, the K16 transfers, loop, loads and stores complete with their effect. Rests on R118, R379, R380, R382, R384,
R385, R386, R387, R388, R391. The model's readings: which value a stepping load or store with hd = hs keeps or stores is free (log
entry 16); the heritage fetch needs a NORMAL page and the MPU check follows the watchpoints (log entry 33). -/
def Obligations.HeritageFlowAndMemoryResult : Prop :=
  (∀ (k : CoreId) (cb : BitVec 5) (len va : Nat) (p : Purse) (s s₁ s₂ s₃ : State),
    let i := mkInsn (encRI 0x1A 0 cb.toNat 6 0) [cN cb] []
    let c := s₁.core k
    let x := c.cR cb.toNat
    Reaches k i len s s₁ → cb.toNat < 16 → c.gecko = false → x.cursor.toNat % 2 = 0 →
    coinCheckP k cb.toNat x 0 2 0 none 0 (henterTest x) s₁ = .ok (va, p) s₂ →
    push1 k (s₂.core k).retCoin s₂ = .ok () s₃ → s₃.blocked = false →
    let t := s₃.modCore k fun c =>
      let c := (c.csSet R.CS_HORG p.w0).csSetF R.CS_STATUS F.CS_STATUS_HER 1
      if c.ring = 0 then c else c.csSetF R.CS_HSTAT F.CS_HSTAT_SUP 0
    exec (.henter k cb) s = Done k i len (.coin x) t) ∧
  (∀ (x : Coin) (p : Purse), henterTest x p = none ↔
    (x.cursor - p.w0).toNat < 2 ^ 25 ∧ p.type = 6 ∧ p.base % 2 = 0 ∧ bitB x.rights 2 = true) ∧
  (∀ (k : CoreId) (x r : Coin) (s s₁ s₂ : State),
    let i := mkInsn (encK 0 1 0 0) [] []
    let t := s₂.modCore k fun c => (c.ccSet (R.CS_RSTK c.ring) r).csSetF R.CS_STATUS F.CS_STATUS_HER 0
    ReachesK16 k i s s₁ → pop1 k s₁ = .ok (x, r) s₂ → (x.tag = true ∨ bitB x.bits 127 = false) → s₂.blocked = false →
    exec (.hexit k) s = Done k i 2 (.coin x) t) ∧
  (∀ (k : CoreId) (a b cond disp4 : BitVec 4) (disp len8 : BitVec 8) (disp12 : BitVec 12) (s s₁ : State),
    let c := s₁.core k
    let jump (i : Insn) (w : Nat) (s' : State) : Res := Done k i 2 (.jump (c.csGet R.CS_HORG + BitVec.ofNat 64 (2 * w))) s'
    let near (n : Int) : Nat := c.hPc / 2 ^ 16 * 2 ^ 16 + (((c.hPc : Int) + n) % (2 ^ 16 : Nat)).toNat
    let linked : State := s₁.setCore k ((c.setH 14 (near 1 % 2 ^ 16)).setH 15 (near 1 / 2 ^ 16 % 256))
    (let i := mkInsn (encK 9 cond.toNat (disp.toNat / 16) (disp.toNat % 16)) [] [];
      ReachesK16 k i s s₁ → cond.toNat ≠ 15 →
      exec (.k16Bcc k cond disp) s = if c.hCond cond.toNat then jump i (near (1 + disp.toInt)) s₁ else Done k i 2 .seq s₁) ∧
    (let i := mkInsn (0xB * 2 ^ 12 + disp12.toNat) [] [];
      ReachesK16 k i s s₁ → exec (.k16Jmp k disp12) s = jump i (near (1 + disp12.toInt)) s₁) ∧
    (let i := mkInsn (0xA * 2 ^ 12 + disp12.toNat) [] [hN 14, hN 15];
      ReachesK16 k i s s₁ → exec (.k16Call k disp12) s = jump i (near (1 + disp12.toInt)) linked) ∧
    (let far := c.hR (b.toNat + 1) % 256 * 2 ^ 16 + c.hR b.toNat;
      (let i := mkInsn (encK 8 3 0 b.toNat) [hN b, hN (b + 1)] [];
        ReachesK16 k i s s₁ → b.toNat % 2 = 0 → exec (.k16Jmpf k b) s = jump i far s₁) ∧
      (let i := mkInsn (encK 8 4 0 b.toNat) [hN b, hN (b + 1)] [hN 14, hN 15];
        ReachesK16 k i s s₁ → b.toNat % 2 = 0 → exec (.k16Callf k b) s = jump i far linked)) ∧
    (let i := mkInsn (encK 0xC a.toNat (len8.toNat / 16) (len8.toNat % 16)) [hN a] [];
      let start := c.hAddr c.hPc + 2
      let last := start + BitVec.ofNat 64 (2 * (len8.toNat - 1))
      ReachesK16 k i s s₁ → len8 ≠ 0 → c.hPc % 2 ^ 16 + len8.toNat ≤ 0xFFFF →
      (c.hR a.toNat = 0 → exec (.k16Loop k a len8) s = Done k i 2 (.jump (last + 2)) s₁) ∧
      (c.hR a.toNat ≠ 0 → c.csF R.CS_LDEPTH F.CS_LDEPTH_DEPTH ≠ 3 →
        exec (.k16Loop k a len8) s = Done k i 2 .seq (s₁.setCore k (c.pushLoop start last (BitVec.ofNat 64 (c.hR a.toNat))))))) ∧
  (∀ (k : CoreId) (d a disp : BitVec 4) (s s₁ s₂ : State),
    let c := s₁.core k
    let wLd := encK 6 d.toNat a.toNat disp.toNat
    let wSt := encK 7 d.toNat a.toNat disp.toNat
    (let i := { mkInsn wLd [hN a] [hN d] with load := true };
      ReachesK16 k i s s₁ → hLoad k wLd (c.hR a.toNat + disp.toNat) d.toNat true s₁ = .ok () s₂ → s₂.blocked = false →
      exec (.k16Ld k d a disp) s = Done k i 2 .seq s₂) ∧
    (let i := mkInsn wSt [hN a, hN d] [];
      ReachesK16 k i s s₁ → hStore k wSt (c.hR a.toNat + disp.toNat) (c.hR d.toNat) s₁ = .ok () s₂ → s₂.blocked = false →
      exec (.k16St k d a disp) s = Done k i 2 .seq s₂)) ∧
  (∀ p ∈ ([(Instr.k16LdPostinc, 0, false), (Instr.k16LdPredec, 2, true)] : List ((CoreId → BitVec 4 → BitVec 4 → Instr) × Nat × Bool)),
    ∀ (k : CoreId) (d a : BitVec 4) (s s₁ s₂ : State),
      let w := encK 0xD d.toNat a.toNat p.2.1
      let i := { mkInsn w [hN a] [hN d, hN a] with load := true }
      let x := (s₁.core k).hR a.toNat
      let x' := (if p.2.2 then x + 2 ^ 16 - 1 else x + 1) % 2 ^ 16
      ReachesK16 k i s s₁ → hLoad k w (if p.2.2 then x' else x) d.toNat (d != a || Config.freeBool s₁.free) s₁.bumpFree = .ok () s₂ →
      s₂.blocked = false →
      exec (p.1 k d a) s = Done k i 2 .seq (s₂.modCore k fun c => c.setH a.toNat x')) ∧
  (∀ p ∈ ([(Instr.k16StPostinc, 1, false), (Instr.k16StPredec, 3, true)] : List ((CoreId → BitVec 4 → BitVec 4 → Instr) × Nat × Bool)),
    ∀ (k : CoreId) (d a : BitVec 4) (s s₁ s₂ : State),
      let w := encK 0xD d.toNat a.toNat p.2.1
      let i := mkInsn w [hN a, hN d] [hN a]
      let x := (s₁.core k).hR a.toNat
      let x' := (if p.2.2 then x + 2 ^ 16 - 1 else x + 1) % 2 ^ 16
      let v := if d = a ∧ p.2.2 = true ∧ Config.freeBool s₁.free = true then x' else (s₁.core k).hR d.toNat
      ReachesK16 k i s s₁ → hStore k w (if p.2.2 then x' else x) v s₁.bumpFree = .ok () s₂ →
      s₂.blocked = false →
      exec (p.1 k d a) s = Done k i 2 .seq (s₂.modCore k fun c => c.setH a.toNat x'))

/-- An arriving load writes its destination, and a store leaving its buffer writes its bytes and tags. Rests on R112, R133, R142,
R197, R253, R57, R254, R259, R473. The model's readings and choices: a command whose precondition does not hold changes nothing (log
entry 5), waiting and re-issue (8), accesses performed in the same step (9), when a line enters an L2 (53), the order of store
performance (88), loads that return later and those performed at issue (89). The model's readings and choices: what a refused purse
write keeps (log entry 93), and whether a merge clears poison (119). -/
def Obligations.LoadAndStorePerformedResult : Prop :=
  (∀ (k : CoreId) (n : Nat) (s : State), s.blocked = false →
      ((s.core k).loads[n]? = none → exec (.loadDataReturn k n) s = .next s) ∧
      (∀ l, (s.core k).loads[n]? = some l →
        (s.loadHeld l = true → exec (.loadDataReturn k n) s = .next s) ∧
        (s.loadHeld l = false →
          let c := s.core k
          let both : Bool := decide (2 ≤ (l.parts.filter fun p => p.got.isNone).length)
          let t := (if both then s.bumpFree else s).loadReturn k n
          let d := t.core k
          let r := (s.sampleLoad l).data
          let same (u : State) : Prop := (u.core k).pcc = c.pcc ∧ (u.core k).cs = c.cs ∧ (u.core k).sb = c.sb ∧
            u.mem = s.mem ∧ u.tags = s.tags ∧ u.poison = s.poison ∧ ∀ j, j ≠ k → u.core j = s.core j
          let holds (x : DVal) : Prop := d.g = (c.write l.dst x).g ∧ d.gg = (c.write l.dst x).gg ∧ d.c = (c.write l.dst x).c ∧
            d.gc = (c.write l.dst x).gc ∧ d.v = (c.write l.dst x).v ∧ d.h = (c.write l.dst x).h
          ((both = false ∨ Config.freeNat s.free % 3 = 0) →
            (l.kind ≠ .coin ∨ r.2 = false →
              exec (.loadDataReturn k n) s = .next t ∧ d.loads.length + 1 = c.loads.length ∧ holds (loadValue l.kind r.1 r.2) ∧ same t) ∧
            (l.kind = .coin → t.blocked = false →
              exec (.loadDataReturn k n) s = .next t ∧ d.loads.length + 1 = c.loads.length ∧
                (∃ tag, (tag = true → r.2 = true) ∧ holds (.coin ⟨BitVec.ofNat 128 (bytesNat r.1), tag⟩)) ∧ same t)) ∧
          (both = true → Config.freeNat s.free % 3 ≠ 0 → ∃ u, exec (.loadDataReturn k n) s = .next u ∧
            (u.core k).loads.length = c.loads.length ∧ (u.core k).g = c.g ∧ (u.core k).gg = c.gg ∧ (u.core k).c = c.c ∧
            (u.core k).gc = c.gc ∧ (u.core k).v = c.v ∧ (u.core k).h = c.h ∧ same u)))) ∧
  (∀ (k : CoreId) (n : Nat) (s : State), s.blocked = false →
      let c := s.core k
      ((s.sbMayLeave c.sb n = false ∨ s.storesHeld k = true ∨ ∃ e, c.sb[n]? = some e ∧ e.wait ≠ .none) →
        exec (.storeBufferDrain k n) s = .next s) ∧
      (∀ e, c.sb[n]? = some e → e.wait = .none → s.sbMayLeave c.sb n = true → s.storesHeld k = false → s.poisoned (s.canon e.pa) = true →
        s.mergeSet k n ≠ [] → Config.freeBool s.free = true → (∀ l ∈ c.loads, s.loadHeld l = false) →
        ∃ t, exec (.storeBufferDrain k n) s = .next t ∧ t.poisoned (s.canon e.pa) = false ∧
          (t.core k).sb = (s.mergeSet k n).foldr (fun j sb => sbErase sb j) c.sb) ∧
      (∀ (e : SbEntry) (a h : Nat) (r : Option Nat), c.sb[n]? = some e → e.wait = .none → s.sbMayLeave c.sb n = true → s.storesHeld k = false →
        (s.poisoned (s.canon e.pa) = false ∨ s.mergeSet k n = [] ∨ Config.freeBool s.free = false) →
        (e.kind = .data ∨ ∃ t, e.kind = .coin t) → e.bytes ≠ [] → s.target e.pa = .local a h r →
        s.entriesIn a e.bytes.length = [] → s.writeHeld a e.bytes.length = false → (∀ l ∈ c.loads, s.loadHeld l = false) →
        (∀ w ∈ s.purseWrs, w.id ≠ s.nextId) →
        ∃ t, exec (.storeBufferDrain k n) s = .next t ∧ (t.core k).sb = sbErase c.sb n ∧
          (∀ j, j < e.bytes.length → t.memB (a + j) = e.bytes.getD j 0) ∧
          (∀ x, x < a ∨ a + e.bytes.length ≤ x → t.memB x = s.memB x) ∧
          (∀ x, t.tagAt x = if a / 16 ≤ x / 16 ∧ x / 16 ≤ (a + e.bytes.length - 1) / 16 then decide (e.kind = .coin true) else s.tagAt x) ∧
          (t.core k).g = c.g ∧ (t.core k).c = c.c ∧ (t.core k).pcc = c.pcc ∧ (t.core k).cs = c.cs ∧
          ∀ j, j ≠ k → t.core j = s.core j))

/-- Control stores, register writes, notices, entry marks and due events have their effect, and POST hands its lines to the home
teller. Rests on R6, R7, R27, R36, R195, R201, R244, R473, R47, R297. The model's readings and choices: a command whose precondition
does not hold changes nothing (log entry 5), reads of trap descriptors wait for locked lines (47), the answer of an access that
fails and posted accesses of debug and the eft (49, 83). The model's readings and choices: stores to control space (log entry 87)
and the unit INIT of a write notice (105). -/
def Obligations.PipelineEventAndPostResult : Prop :=
  ((∀ (place : RegPlace) (w : Word) (k : CoreId) (n : Nat) (b : Bool) (word : Option (BitVec 32)) (s : State),
      ∀ i ∈ ([Instr.registerWrite place w, .controlStoreAccept k n, .writeNotice k, .pteMark n b, .trapEntry k word,
          .postReply k n] : List Instr), ∃ t, exec i s = .next t) ∧
    ((∀ (k : CoreId) (n : Nat) (e : SbEntry) (s t : State) (key : Nat) (v : Word), s.blocked = false →
        let c := s.core k
        let s' := if e.release then s.sampleAll k else s.sampleOverlapping k e.pa e.bytes.length
        c.sb[n]? = some e → e.wait = .none → s.target e.pa = .control key → s.sbMayLeave c.sb n = true → s.storesHeld k = false →
        e.kind = .data → s'.blocked = false →
        s'.ctlWrite k.val key e.bytes.length (BitVec.ofNat 64 (bytesNat e.bytes)) = (.ok v, t) → t.blocked = false →
        exec (.controlStoreAccept k n) s = .next (t.modCore k fun c => { c with sb := sbErase c.sb n })) ∧
    (∀ (init key len : Nat) (v : Word) (s : State), s.inReset = false → s.blocked = false →
        (unitExists (key / 0x1000000) = false → exec (.registerWrite (.ctl init key len) v) s = .next { s with answer := ⟨1, []⟩ }) ∧
        (¬ (key = R.DBG_MCTL ∧ len = 8) → unitExists (key / 0x1000000) = true →
          (regHit key len = .clash → exec (.registerWrite (.ctl init key len) v) s = .next { s with answer := ⟨1, []⟩ }) ∧
          (regHit key len = .hole → exec (.registerWrite (.ctl init key len) v) s = .next s) ∧
          (∀ r x t, regHit key len = .exact r → r.name ≠ .IMG_APPLY → r.name ≠ .DBG_CSEL →
            s.regWrite false init key r (lowBytes len v) = (.ok x, t) → t.blocked = false →
            exec (.registerWrite (.ctl init key len) v) s = .next t)) ∧
        (∀ x t, s.mctlWrite v = (.ok x, t) → t.blocked = false → exec (.registerWrite (.ctl init R.DBG_MCTL 8) v) s = .next t) ∧
        (∀ (k : CoreId) (i : Nat) (r : CsRule), csRule ((s.core k).csF R.CS_BANKWIN F.CS_BANKWIN_BANK) i = some r → r.coin = false →
          exec (.registerWrite (.core k i) v) s = .next (s.dbgCsWrite k i (v.zeroExtend 128)).unblock)) ∧
    (∀ (k : CoreId) (s : State),
        let c := s.core k
        (c.refused = [] → exec (.writeNotice k) s = .next s) ∧
        (∀ n r, c.refused = n :: r → c.csF R.CS_DBCTL F.CS_DBCTL_WNDB ≠ 1 →
          exec (.writeNotice k) s = .next (s.setCore k { c with refused := r, notices := c.notices ++ [n] })) ∧
        (∀ n r, c.refused = n :: r → c.csF R.CS_DBCTL F.CS_DBCTL_WNDB = 1 →
          let s' := s.setCore k { c with refused := r }
          let w := s.reg (R.DBH_WNADDR k.val)
          exec (.writeNotice k) s = .next ((s'.setReg (R.DBH_WNADDR k.val)
            (if getF w F.DBH_WNADDR_VALID = 1 then setF w F.DBH_WNADDR_OVF 1
             else setF (setF (setF w F.DBH_WNADDR_ADDR n.pa) F.DBH_WNADDR_INIT n.init) F.DBH_WNADDR_VALID 1)).firePriv k.val 0x28))) ∧
    (∀ (ea a : Nat) (write : Bool) (s : State), s.localOf (ea / 8 * 8) = some a → s.writeHeld a 8 = false → s.entriesIn a 8 = [] →
        ∃ t, exec (.pteMark ea write) s = .next t ∧
          t.word64 a = (if pteV (s.word64 a) then
              (let e := setF (s.word64 a) ⟨6, 6⟩ 1;
               if write && pteWR (s.word64 a) then setF e ⟨7, 7⟩ 1 else e)
            else s.word64 a) ∧
          ∀ x, x < a ∨ a + 8 ≤ x → t.memB x = s.memB x) ∧
    (∀ (k : CoreId) (s : State), s.canIssue k (s.core k).her = true → (s.core k).pfx = none →
        ((s.core k).flight ≠ none → exec (.trapEntry k none) s = .next s) ∧
        ((s.core k).due = none → exec (.trapEntry k none) s = .next s) ∧
        (∀ e t, (s.core k).flight = none → (s.core k).due = some e → takeEvent k e s = .ok () t → t.blocked = false → exec (.trapEntry k none) s = .next t)) ∧
    (∀ (k : CoreId) (w : BitVec 32) (len : Nat) (s s₁ s₂ : State),
        let pc := (s₁.core k).pcc.cursor
        legalWord w = false → (s.core k).her = false → Reaches k { mkInsn w.toNat [] [] with pfx := true } len s s₁ →
        enter k ⟨0x00, 0, []⟩ pc pc id s₁ = .ok () s₂ → s₂.blocked = false →
        exec (.trapEntry k (some w)) s = .next (s₂.modCore k CoreState.stepped)) ∧
    (∀ (k : CoreId) (id code : Nat) (d : Dst) (s : State),
        let c := s.core k
        (c.posts.find? (·.id == id)) = some ⟨id, d, some code⟩ →
        exec (.postReply k id) s = .next (s.setCore k { c.write d (.w (BitVec.ofNat 64 code)) with posts := c.posts.filter (·.id != id) })))) ∧
  (∀ (k : CoreId) (d a : BitVec 5) (len va pa : Nat) (h : Half) (hdr : List Byte) (tags : List Bool) (s s₁ s₃ s₄ s₅ : State),
      let i := mkInsn (encRR 0x2A d.toNat a.toNat 0 0 0) [cN a] [gN d]
      let x := (s₁.core k).cR a.toNat
      let size := 64 + 32 * legCount hdr
      let handsOver (v : State) (bs : List Byte) (ts : List Bool) (pa : Nat) : Prop :=
        let u := (v.drainAll k).finishCorePurseWrs k.val
        let c := u.core k
        let mode := c.csF R.CS_PTMODE F.CS_PTMODE_MODE
        let root := c.csF R.CS_PTMODE F.CS_PTMODE_ROOT * 4096
        let waits (t : State) : State := t.modCore k fun c => { c with posts := c.posts ++ [⟨u.nextId, c.gDst d.toNat, none⟩] }
        ((∃ l b r, u.target pa = .local l b r) →
          let t := u.newPosting (.post k.val) ((u.homeTeller pa).getD 0) bs ts c.ring c.asid mode root .sent
          t.blocked = false → exec (.post k d a 0 0 0) s = Done k i len .seq (waits t)) ∧
        (∀ so la p, u.target pa = .window so la → u.portOf so = some p →
          let tx := u.nextId % 65536
          let t := ({ u with nextId := u.nextId + 1, peerTx := u.peerTx ++ [⟨tx, p, 0x25, pa, k.val, none⟩] } : State).sendPost p tx k.val la bs ts
            (pfwContext c.ring c.asid mode root)
          t.blocked = false → exec (.post k d a 0 0 0) s = Done k i len .seq (waits t))
      Reaches k i len s s₁ → a.toNat < 16 → x.cursor.toNat % 64 = 0 →
      watch k x 0 64 true false s₁ = .ok () s₁ → coinCheck k a.toNat x 0 64 8 none 0 s₁ = .ok va s₃ →
      postLines k va 1 (s₃.orderBefore k false) = .ok [h] s₄ → h.pa = pa → readLines k va [h] s₄ = .ok (hdr, tags) s₅ →
      (legCount hdr = 0 → handsOver s₅ (hdr.take 64) tags pa) ∧
      (legCount hdr ≠ 0 → ∀ (va' : Nat) (hs : List Half) (bs : List Byte) (ts : List Bool) (s₆ s₇ s₈ : State),
        watch k x 0 size true false s₅ = .ok () s₅ → coinCheck k a.toNat x 0 size 8 none 0 s₅ = .ok va' s₆ →
        postLines k va' (lineCount size) s₆ = .ok hs s₇ → readLines k va' hs s₇ = .ok (bs, ts) s₈ →
        handsOver s₈ (bs.take size) ts ((hs.map (·.pa)).headD 0)))

/-- The board's power, reset and clock events take the device into and out of reset and into DRAIN as the spec says. Rests on R25,
R30, R394, R395, R454, R455, R456, R459. The model's readings and choices: values the text gives no reset for (log entry 3), a
command whose precondition does not hold changes nothing (log entry 5), a short PWR_FAIL (18), power failure in start-up (61), data
of a CXL device without PERSIST (64). -/
def Obligations.ResetAndPowerResult : Prop :=
  (∀ s : State, exec .pwrGoodRise s = .next (if s.pins.pwrGood then s else { s with pins := { s.pins with pwrGood := true }, time := 0 })) ∧
  (∀ (ns : Nat) (s : State), (ns < 50 ∨ s.pins.pwrGood = false) → exec (.pwrGoodFall ns) s = .next s) ∧
  (∀ (ins : Instr) (s : State),
      (∃ ns, ins = .pwrGoodFall ns ∧ 50 ≤ ns ∧ s.pins.pwrGood = true) ∨ (∃ r, ins = .supplyInvalid r) →
      ∃ t, exec ins s = .next t ∧ t.inReset = true ∧ t.mode = .load ∧ t.cores = State.reset.cores ∧ t.mem = [] ∧ t.tags = [] ∧ t.poison = [] ∧
        t.seq = State.reset.seq ∧ t.postings = [] ∧ t.staging = [] ∧ t.sram = [] ∧ t.boot = State.reset.boot ∧
        t.csr = s.csr.filter (fun e => isFuse e.1) ∧ t.pending = s.pending ∧ t.time = s.time ∧ t.flashSize = s.flashSize ∧
        (s.flashOp = none → t.flash = s.flash) ∧ t.pins.refclk = s.pins.refclk) ∧
  (∀ (r : Fin 10) (s : State), exec (.supplyValid r) s =
      .next { s with pins := { s.pins with rails := setF s.pins.rails ⟨r.val, r.val⟩ 1 } }) ∧
  (∀ (low : Bool) (s : State),
      let ready : Bool := s.inReset && s.pins.pwrGood && s.pins.rails == 0x3FF && s.pins.refclk
      (ready = false → exec (.deviceResetExit low) s = .next s) ∧
      (ready = true → ∃ t, exec (.deviceResetExit low) s = .next t ∧ t.inReset = false ∧ t.mode = .load ∧
        t.rf R.IMG_STATUS F.IMG_STATUS_STAGE = 1 ∧ (t.boot.stop = .no ↔ low = false) ∧ t.cores = s.cores ∧ t.mem = s.mem ∧ t.seq = s.seq)) ∧
  (∀ (ns : Nat) (s : State),
      ((s.inReset = true ∨ ns < 10) → exec (.pwrFail ns) s = .next s) ∧
      (s.inReset = false → 30 ≤ ns →
        (s.mode = .drain → exec (.pwrFail ns) s = .next s) ∧
        (s.mode = .load → s.boot.stop = .no → exec (.pwrFail ns) s = .next { s with boot := { s.boot with stop := .atEnd } }) ∧
        (s.mode ≠ .drain → s.mode ≠ .load → s.held = [] → ∃ t, exec (.pwrFail ns) s = .next t ∧ t.mode = .drain ∧ t.fences = [] ∧
          t.seq.isOpen = false))) ∧
  (∀ s : State,
      (s.inReset = true ∨ s.pins.refclk = false → exec .refclkLoss s = .next { s with pins := { s.pins with refclk := false } }) ∧
      (s.inReset = false → s.pins.refclk = true → s.mode ≠ .load → s.held = [] → ∃ t, exec .refclkLoss s = .next t ∧ t.mode = .drain ∧
        t.pins.refclk = false)) ∧
  (∀ s : State, exec .refclkReturn s = .next { s with pins := { s.pins with refclk := true } })

/-- Thermal readings, power evaluations, wake edges and the time pulse set their registers and act on the clocks. Rests on R231,
R435, R436, R462, R463, R464. The model's readings and choices: a command whose precondition does not hold changes nothing (log
entry 5), free quantities (18), the trim of RATE and one correction per 1,000 ns (66), CUR, equal readings and which clusters an
evaluation counts (72). -/
def Obligations.ThermalPowerAndTimeResult : Prop :=
  (∀ (temps : List (Nat × Int)) (s : State), s.inReset = false →
      let ts := temps.filter fun x => hasDiode x.1
      (ts = [] → exec (.thermalRead temps) s = .next s) ∧
      (∀ u q, hottest ts = some (u, q) → q < 460 → -2048 ≤ q → u < 512 → ∃ t, exec (.thermalRead temps) s = .next t ∧
        t.rf R.MGMT_THERM F.MGMT_THERM_TEMP = (q % 4096).toNat ∧ t.rf R.MGMT_THERM F.MGMT_THERM_HOTUNIT = u ∧
        (t.rf R.MGMT_THERM F.MGMT_THERM_THROT = 1 ↔ ∃ x ∈ ts, (4 * s.rf R.MGMT_THERM F.MGMT_THERM_TJMAX : Int) - 12 ≤ x.2) ∧
        t.pins = { s.pins with thermN := decide (∃ x ∈ ts, (4 * s.rf R.MGMT_THERM F.MGMT_THERM_TJMAX : Int) - 12 ≤ x.2) } ∧
        (∀ c, c < 16 → t.clkCur c =
          if c ∈ s.clocked ∧ 16 < s.clkCur c ∧
              ∃ x ∈ ts, (4 * s.rf R.MGMT_THERM F.MGMT_THERM_TJMAX : Int) - 12 ≤ x.2 ∧ (x.1 = 0x80 + c ∨ 0x100 ≤ x.1)
          then s.clkCur c - 1 else s.clkCur c) ∧ t.mode = s.mode ∧ t.mem = s.mem ∧ t.cores = s.cores) ∧
      (∀ u q, hottest ts = some (u, q) → 460 ≤ q → s.mode = .load → ∃ t, exec (.thermalRead temps) s = .next t ∧ t.pins.trip = true ∧
        t.pins.thermtrip = true ∧ t.pins.tripAt = (if s.pins.trip then s.pins.tripAt else s.time)) ∧
      (∀ u q, hottest ts = some (u, q) → 460 ≤ q → s.mode ≠ .load → s.held = [] → ∃ t, exec (.thermalRead temps) s = .next t ∧
        t.mode = .drain ∧ t.pins.trip = true ∧ t.pins.tripAt = (if s.pins.trip then s.pins.tripAt else s.time))) ∧
  (∀ s : State, s.inReset = false → exec .thermtripAssert s =
      .next (if s.pins.trip = true ∧ (s.pins.tripAt.toNat + 1000000 ≤ s.time.toNat ∨ (s.mode = .drain ∧ s.drainDone = true))
        then { s with pins := { s.pins with thermtrip := true } } else s)) ∧
  (∀ (pwr : Nat) (s : State), s.inReset = false →
      let tdp := s.rf R.MGMT_PWR F.MGMT_PWR_TDP
      ∃ t, exec (.powerEvaluation pwr) s = .next t ∧ t.rf R.MGMT_PWR F.MGMT_PWR_PWR = min 1023 pwr ∧ t.rf R.MGMT_PWR F.MGMT_PWR_TDP = tdp ∧
        t.pwrLow = (if tdp < pwr then 0 else if 100 * pwr < 98 * tdp then s.pwrLow + 1 else 0) ∧
        (tdp < pwr → ∀ c, c < 16 → t.clkCur c =
          if c ∈ s.clocked ∧ 16 < s.clkCur c ∧ (∀ d ∈ s.clocked, s.clkCur d ≤ s.clkCur c) then s.clkCur c - 1 else s.clkCur c) ∧
        (pwr ≤ tdp → ∀ c, c < 16 → t.clkCur c = s.clkCur c ∨
          (10 ≤ t.pwrLow ∧ c ∈ s.clocked ∧ s.clkCur c < s.clkFreq c ∧ t.clkCur c = s.clkCur c + 1 ∧
            ∀ d ∈ s.clocked, s.clkCur d < s.clkFreq d → bitB s.hot d = false → s.clkCur c ≤ s.clkCur d)) ∧
        t.mode = s.mode ∧ t.pins = s.pins ∧ t.mem = s.mem ∧ t.cores = s.cores) ∧
  (∀ (latch : Fin 33) (rising : Bool) (s : State), s.inReset = false →
      let k := R.DBH_WAKE latch.val
      let e := s.rf k F.DBH_WAKE_EDGE
      (edgeSel e rising = false → exec (.wakeLatchEdge latch rising) s = .next s) ∧
      (edgeSel e rising = true → exec (.wakeLatchEdge latch rising) s =
        .next ((s.setRf k F.DBH_WAKE_HIT 1).ring (s.rf k F.DBH_WAKE_SOURCE)))) ∧
  (∀ s : State, s.inReset = false → ∃ t, exec .timePpsEdge s = .next t ∧ t.rf R.TIME_PPSCTL F.TIME_PPSCTL_SEEN = 1 ∧
      ((t.reg R.TIME_PPSCAP - s.time).toInt.natAbs ≤ 2) ∧ t.time = s.time ∧
      (s.rf R.TIME_PPSCTL F.TIME_PPSCTL_EN = 0 → t.reg R.TIME_ADJ = s.reg R.TIME_ADJ) ∧
      (s.rf R.TIME_PPSCTL F.TIME_PPSCTL_EN = 1 → (toSigned 32 (t.rf R.TIME_ADJ F.TIME_ADJ_RATE)).natAbs ≤ 500000)) ∧
  (∀ s : State, exec .ppsTimeout s = .next s) ∧
  (∀ (v : Word) (s : State), s.inReset = false →
      let steered : Bool := s.followsPeer || s.rf R.TIME_PPSCTL F.TIME_PPSCTL_EN == 1
      (steered = true → exec (.timeAdjWrite v) s = .next s) ∧
      (steered = false → ∃ t, exec (.timeAdjWrite v) s = .next t ∧
        toSigned 32 (t.rf R.TIME_ADJ F.TIME_ADJ_RATE) = max (-500000) (min 500000 (toSigned 32 (getF v F.TIME_ADJ_RATE))) ∧
        t.rf R.TIME_ADJ F.TIME_ADJ_PHASE = getF v F.TIME_ADJ_PHASE ∧ ∀ key, key ≠ R.TIME_ADJ → t.reg key = s.reg key))

/-- Each start-up stage runs only in its turn, notes its time, hands on to the next stage, and on a failure falls back to the other
slot or leaves the device FAILED. Rests on R272, R395, R396, R398, R399, R405, R407, R409, R411, R412, R413, R414. The model's
readings and choices: observed facts are operands (log entry 1), a command whose precondition does not hold changes nothing (log
entry 5), failures and power in start-up (61), readings of the image's checks (62), the DIMM reference and units not released (81),
what ends stage LANES (149). -/
def Obligations.StartUpStageResult : Prop :=
  (∀ (b1 b2 : Bool) (n : Nat) (found : List ChanFind) (s : State),
    ∀ i ∈ ([Instr.stageFlash b1 b2 n, .stageVerify, .stageApply b1, .stageMemtrain found, .stageTagclear, .stageLanes, .stageBootspan,
        .stageEft, .stageRelease] : List Instr), ∃ t, exec i s = .next t) ∧
  (let k := R.IMG_STATUS
  let next (s t : State) (n : Nat) : Prop := t.reg (R.IMG_STAGET (n - 1)) = s.time ∧ t.time = s.time ∧
    (s.boot.stop = .no → t.rf k F.IMG_STATUS_STAGE = n + 1) ∧
    (s.boot.stop ≠ .no → t.rf k F.IMG_STATUS_STAGE = n ∧ t.boot.stop = .stopped)
  let failed (s t : State) (e : BootErr) : Prop :=
    (s.rf k F.IMG_STATUS_FALLBACK = 0 → t.rf k F.IMG_STATUS_STAGE = 2 ∧ t.rf k F.IMG_STATUS_FALLBACK = 1 ∧
      t.rf k F.IMG_STATUS_SLOT = 1 - s.rf k F.IMG_STATUS_SLOT ∧ t.rf R.IMG_ERR0 F.IMG_ERR0_CODE = e.code % 256) ∧
    (s.rf k F.IMG_STATUS_FALLBACK = 1 → t.rf k F.IMG_STATUS_STAGE = 15 ∧ t.rf R.IMG_ERR1 F.IMG_ERR0_CODE = e.code % 256)
  ∀ s : State, s.inReset = false →
    (∀ p ∈ ([(1, Instr.stageFlash true true 0x4000000), (2, .stageVerify), (3, .stageApply true), (4, .stageMemtrain []), (5, .stageTagclear),
        (6, .stageLanes), (7, .stageBootspan), (9, .stageRelease)] : List (Nat × Instr)),
      s.stageReady p.1 = false → exec p.2 s = .next s) ∧
    (∀ (answers octal : Bool) (size : Nat), s.stageReady 1 = true →
      let good : Bool := answers && octal && decide (0x4000000 ≤ size) && isPow2 size
      (good = false → ∃ t, exec (.stageFlash answers octal size) s = .next t ∧ t.rf k F.IMG_STATUS_STAGE = 15 ∧
        t.rf R.IMG_ERR0 F.IMG_ERR0_CODE = (if s.rf k F.IMG_STATUS_FALLBACK = 0 then 1 else s.rf R.IMG_ERR0 F.IMG_ERR0_CODE)) ∧
      (good = true → ∃ t, exec (.stageFlash answers octal size) s = .next t ∧ next s t 1 ∧
        t.flashSize = min size 0x20000000 ∧ t.flash = s.flash ∧ t.pins.ddrPwren = 0xFF)) ∧
    (s.stageReady 2 = true →
      (∀ e, s.slotErr s.curSlot = some e → ∃ t, exec .stageVerify s = .next t ∧ failed s t e ∧
        t.rf k F.IMG_STATUS_OPEN = (if s.openPart then 1 else 0)) ∧
      (s.slotErr s.curSlot = none → ∃ t, exec .stageVerify s = .next t ∧ next s t 2 ∧
        t.rf k F.IMG_STATUS_OPEN = (if s.openPart then 1 else 0))) ∧
    (∀ ok, s.stageReady 3 = true →
      (∀ e, s.applyCheck s.curSlot = .error e → ∃ t, exec (.stageApply ok) s = .next t ∧ failed s t e) ∧
      (∀ rs, s.applyCheck s.curSlot = .ok rs →
        let s' := if s.calOk ok = true then s else (s.setRf k F.IMG_STATUS_CALBAD 1).setRf R.MGMT_THERM F.MGMT_THERM_TJMAX 95
        exec (.stageApply ok) s = .next ((rs.foldl State.bootRec (s'.applySeq rs)).stageEnd 3))) ∧
    (∀ found, s.stageReady 4 = true → ∃ t, exec (.stageMemtrain found) s = .next t ∧ next s t 4 ∧
      (∀ r, commonKind found = some r → r.cap ≤ 256 → ∀ n, n < 16 → t.rf (R.VLT_ILV (hs n)) F.VLT_ILV_DDRTOP = r.cap * 127 / 2)) ∧
    (s.stageReady 5 = true → ∃ t, exec .stageTagclear s = .next t ∧ next s t 5 ∧ t.mem = s.mem ∧
      ∀ n, n < 16 → s.chanReady n = true → ∀ e ∈ t.tags, ¬ (e.1 * 16 < s.ddrTop ∧ s.home (e.1 * 16) = n)) ∧
    (s.stageReady 6 = true →
      (∃ t, exec (.stageLanes true) s = .next t ∧ next s t 6) ∧
      (∃ t, exec (.stageLanes false) s = .next t ∧ t.rf k F.IMG_STATUS_STAGE = 6 ∧ t.boot.lanesOn = true ∧ t.time = s.time ∧
        (s.boot.lanesOn = true → t = s))) ∧
    (s.stageReady 7 = true →
      ((s.boot.top ≠ 0 ∧ ∃ n, n < 16 ∧ s.chanReady n = false) → ∃ t, exec .stageBootspan s = .next t ∧ t.rf k F.IMG_STATUS_STAGE = 15 ∧
        t.mode = s.mode ∧ (s.boot.stop ≠ .no → t.boot.stop = .stopped)) ∧
      (s.boot.top = 0 → ∃ t, exec .stageBootspan s = .next t ∧ next s t 7 ∧ t.mem = s.mem ∧
        (s.boot.stop = .no → t.mode = .run ∨ t.mode = .degraded) ∧ (s.boot.stop ≠ .no → t.mode = s.mode)) ∧
      (s.boot.top ≠ 0 → (∀ n, n < 16 → s.chanReady n = true) → s.boot.stop = .no →
        exec .stageBootspan s = .next ((s.bootFill.stageEnd 7).setMode (s.bootFill.stageEnd 7).runMode))) ∧
    (s.stageReady 8 = true → ∃ t, exec .stageEft s = .next t ∧ next s t 8 ∧ t.boot.eftRunning = true ∧ t.boot.kicked = s.time) ∧
    (s.stageReady 9 = true → ∃ t, exec .stageRelease s = .next t ∧ next s t 9 ∧
      ∀ c : CoreId, ((s.entryRec s.curSlot c.val).any (·.release) && s.unitUp (0x80 + c.val / 8)) = true → (t.core c).run = .running))

/-- Flash commands, IMG_APPLY, the eft's watchdog, kick and swap, and its MCTP and PLDM answers do what the spec says. Rests on
R414, R415, R416, R417, R418, R434. The model's readings and choices: a command whose precondition does not hold changes nothing
(log entry 5), image records on MGMT_UCTL (60), reads beyond the flash (64), the order of IMG_APPLY's checks (73), the watchdog
(74), PLDM layouts (82). -/
def Obligations.FlashAndEftResult : Prop :=
  (∀ (w : Word) (b : Bool) (sensor : PldmSensor) (bytes : List Byte) (eid : BitVec 8) (s : State),
    ∀ i ∈ ([Instr.imgApplyGo w, .flashErase w, .flashProgram w, .flashCommandDone b, .eftWatchdogExpiry, .eftKick, .eftSwap,
        .pldmDiscovery, .pldmPlatform sensor, .pldmFru, .pldmFirmwareUpdate b bytes,
        .mctpControlMessage eid] : List Instr), ∃ t, exec i s = .next t) ∧
  (∀ s : State, s.inReset = false →
    (∀ p ∈ ([(1, 65536, Instr.flashErase), (2, 256, Instr.flashProgram)] : List (Nat × Nat × (Word → Instr))), ∀ v : Word,
      let a := getF v F.IMG_FCMD_ADDR
      (s.flashOp.isSome = true → exec (p.2.2 v) s = .next s) ∧
      (s.flashOp = none → (a % p.2.1 ≠ 0 ∨ s.flashSize ≤ a) → exec (p.2.2 v) s = .next (s.setRf R.IMG_FSTAT F.IMG_FSTAT_ERR 1)) ∧
      (s.flashOp = none → a % p.2.1 = 0 → a < s.flashSize → ∃ t, exec (p.2.2 v) s = .next t ∧
        t.rf R.IMG_FSTAT F.IMG_FSTAT_BUSY = 1 ∧ t.rf R.IMG_FSTAT F.IMG_FSTAT_ERR = 0 ∧ (∃ o, t.flashOp = some o ∧ o.op = p.1 ∧ o.addr = a) ∧
        t.flash = s.flash)) ∧
    (s.flashOp = none → ∀ ok, exec (.flashCommandDone ok) s = .next s) ∧
    (∀ o, s.flashOp = some o → ∃ t, exec (.flashCommandDone true) s = .next t ∧ t.flashOp = none ∧ t.rf R.IMG_FSTAT F.IMG_FSTAT_BUSY = 0 ∧
      (o.op = 1 → ∀ j, o.addr ≤ j → j < o.addr + 65536 → t.flB j = 0xFF) ∧
      (o.op ≠ 1 → ∀ j, j < o.data.length → t.flB (o.addr + j) = o.data.getD j 0xFF)) ∧
    (∀ o, s.flashOp = some o → ∃ t, exec (.flashCommandDone false) s = .next t ∧ t.flashOp = none ∧ t.rf R.IMG_FSTAT F.IMG_FSTAT_ERR = 1) ∧
    (∀ v : Word, s.unitState (getF v F.IMG_APPLY_UNIT) ≠ 2 → ∃ t, exec (.imgApplyGo v) s = .next t ∧ t.rf R.IMG_APPLY F.IMG_APPLY_RESULT = 1 ∧
      ∀ key, key ≠ R.IMG_APPLY → t.reg key = s.reg key) ∧
    (∀ v : Word,
      let u := getF v F.IMG_APPLY_UNIT
      let g := getF v F.IMG_APPLY_SEG
      let gs := (s.segsOf s.curSlot 1).filter fun x => g == 0xFF || x.idx == g
      let named := (s.setRf R.IMG_APPLY F.IMG_APPLY_UNIT u).setRf R.IMG_APPLY F.IMG_APPLY_SEG g
      unitExists u = true → s.unitState u = 2 →
      (gs = [] → exec (.imgApplyGo v) s = .next (named.setRf R.IMG_APPLY F.IMG_APPLY_RESULT 3)) ∧
      (gs ≠ [] → (∃ x ∈ gs, s.segCrcOk s.curSlot x = false) → exec (.imgApplyGo v) s = .next (named.setRf R.IMG_APPLY F.IMG_APPLY_RESULT 2)) ∧
      (∀ recs : List (List ParRec), gs ≠ [] → (∀ x ∈ gs, s.segCrcOk s.curSlot x = true) →
        gs.map (s.segRecs s.curSlot) = recs.map Except.ok →
        exec (.imgApplyGo v) s = .next
          ((recs.flatten.foldl (fun t r => t.applyRec (· == u) r) named).setRf R.IMG_APPLY F.IMG_APPLY_RESULT 0))) ∧
    (let w := s.rf R.MGMT_EFT F.MGMT_EFT_WDT
     let due : Bool := s.boot.eftRunning && w != 0 && decide (s.boot.kicked.toNat + w * 1000000 ≤ s.time.toNat)
     (due = false → exec .eftWatchdogExpiry s = .next s) ∧
     (due = true → ∃ t, exec .eftWatchdogExpiry s = .next t ∧ t.boot.kicked = s.time ∧ t.boot.eftRunning = true)) ∧
    exec .eftKick s = .next { s with boot := { s.boot with kicked := s.time } } ∧
    (let other := 1 - s.rf R.IMG_STATUS F.IMG_STATUS_SLOT
     (s.slotErr other ≠ none → exec .eftSwap s = .next (s.setRf R.MGMT_EFT F.MGMT_EFT_SWAPERR 1)) ∧
     (s.slotErr other = none → ∃ t, exec .eftSwap s = .next t ∧ t.rf R.IMG_STATUS F.IMG_STATUS_SLOT = other ∧
       t.rf R.MGMT_EFT F.MGMT_EFT_SWAPERR = 0 ∧ t.boot.kicked = s.time ∧ t.flash = s.flash)) ∧
    (s.boot.eftRunning = true →
      exec .pldmDiscovery s = .next { s with answer := ⟨0, [0, 2, 4, 5]⟩ } ∧
      (∀ x, exec (.pldmPlatform x) s = .next { s with answer := ⟨0, s.sensor x⟩ }) ∧
      exec .pldmFru s = .next { s with answer := ⟨0, natBytes 2 0x9128 ++ natBytes 1 1 ++ natBytes 8 (s.reg R.IMG_FDIEID).toNat⟩ } ∧
      (∀ eid, exec (.mctpControlMessage eid) s = .next { s with boot := { s.boot with eid := eid } }) ∧
      (∀ slot image, (if slot then 1 else 0) = s.curSlot → exec (.pldmFirmwareUpdate slot image) s = .next { s with answer := ⟨1, []⟩ }) ∧
      (∀ slot image, (if slot then 1 else 0) ≠ s.curSlot → ∃ t, exec (.pldmFirmwareUpdate slot image) s = .next t ∧ t.answer = ⟨0, []⟩ ∧
        ∀ j, j < s.slotSize → t.flB (s.slotOff (if slot then 1 else 0) + j) = (image.take s.slotSize).getD j 0xFF)) ∧
    (s.boot.eftRunning = false → ∀ i ∈ ([Instr.pldmDiscovery, .pldmFru, .mctpControlMessage 0] : List Instr), exec i s = .next s))

/-- Mode requests are accepted, busy or refused, and a brumation quiesces, changes, and leaves or is undone, as the spec says. Rests
on R28, R29, R31, R426, R427, R428. The model's readings and choices: a command whose precondition does not hold changes nothing
(log entry 5), when a brumation's change is made (71), its image and undo (80). -/
def Obligations.ModeRequestResult : Prop :=
  (∀ (chg : BitVec 2) (s : State),
    ∀ i ∈ ([Instr.modeReqBrumation chg, .modeReqDiagnostic, .modeReqLeave, .brumationQuiesced, .brumationQuiesceTimeout,
        .brumationChangeComplete, .brumationTimeout] : List Instr), ∃ t, exec i s = .next t) ∧
  (let k := R.MGMT_MODE
  let res (t : State) : Nat := t.rf k F.MGMT_MODE_RESULT
  ∀ s : State, s.inReset = false →
    let live := s.mode = .run ∨ s.mode = .degraded
    (s.rf k F.MGMT_MODE_BUSY = 1 → ∀ i ∈ ([Instr.modeReqBrumation 1, .modeReqDiagnostic, .modeReqLeave] : List Instr),
      ∃ t, exec i s = .next t ∧ res t = 2 ∧ t.mode = s.mode ∧ t.brum = s.brum) ∧
    (s.rf k F.MGMT_MODE_BUSY = 0 →
      (∀ chg : BitVec 2, live → chg ≠ 0 → ∃ t, exec (.modeReqBrumation chg) s = .next t ∧ t.rf k F.MGMT_MODE_BUSY = 1 ∧
        t.rf k F.MGMT_MODE_CHG = chg.toNat ∧ t.mode = s.mode ∧ ∃ b, t.brum = some b ∧ b.chg = chg.toNat) ∧
      (∀ chg : BitVec 2, (¬ live ∨ chg = 0) → ∃ t, exec (.modeReqBrumation chg) s = .next t ∧ res t = 1 ∧ t.mode = s.mode ∧ t.brum = s.brum) ∧
      (live → ∃ t, exec .modeReqDiagnostic s = .next t ∧ t.mode = .diagnostic ∧ res t = 0) ∧
      (¬ live → ∃ t, exec .modeReqDiagnostic s = .next t ∧ t.mode = s.mode ∧ res t = 1) ∧
      (s.mode = .diagnostic → ∃ t, exec .modeReqLeave s = .next t ∧ (t.mode = .run ∨ t.mode = .degraded) ∧ res t = 0) ∧
      (s.mode ≠ .diagnostic → ∃ t, exec .modeReqLeave s = .next t ∧ t.mode = s.mode ∧ res t = 1)) ∧
    (s.brum = none → ∀ i ∈ ([Instr.brumationQuiesced, .brumationQuiesceTimeout, .brumationChangeComplete, .brumationTimeout] : List Instr),
      exec i s = .next s) ∧
    (∀ b, s.brum = some b →
      (¬ (live ∧ s.quiet = true) → exec .brumationQuiesced s = .next s) ∧
      (∀ t, live → s.quiet = true → (s.settleCores.setMode .brumation).makeChange b = t → t.blocked = false →
        exec .brumationQuiesced s = .next t ∧ t.mode = .brumation) ∧
      (s.mode ≠ .brumation → ∃ t, exec .brumationQuiesceTimeout s = .next t ∧ t.brum = none ∧ t.mode = s.mode ∧ res t = 3 ∧
        t.rf k F.MGMT_MODE_BUSY = 0 ∧ t.mem = s.mem ∧ t.seq = s.seq) ∧
      (s.mode = .brumation → s.held = [] → ∃ t, exec .brumationChangeComplete s = .next t ∧ t.brum = none ∧ (t.mode = .run ∨ t.mode = .degraded) ∧
        res t = (if b.failed then 4 else 0) ∧ ((∀ r ∈ s.staging, r.mirrorOf = none) → t.mem = s.mem ∧ t.seq = s.seq)) ∧
      (s.mode = .brumation → s.held = [] → ∃ t, exec .brumationTimeout s = .next t ∧ t.brum = none ∧ (t.mode = .run ∨ t.mode = .degraded) ∧
        res t = 4 ∧ (b.failed = true → (∀ r ∈ s.staging, r.mirrorOf = none) → t.mem = s.mem ∧ t.seq = s.seq))))

/-- A steward operation is answered BUSY, MODE, NOTSUP or REFUSED in that order or accepted, and acts when it completes; cluster
clocks are set and stopped. Rests on R287, R420, R421, R422, R429, R431, R432, R462. The model's readings and choices: a command
whose precondition does not hold changes nothing (log entry 5), what is performed in the same step (9), fencing a cluster (59, 76),
handover (69), when a steward operation has its effect (70), CUR at ONLINE (72). -/
def Obligations.UnitOperationResult : Prop :=
  (∀ (n1 n2 : Nat) (found : List ChanFind) (x : Idx16) (w : Word) (s : State),
    ∀ i ∈ ([Instr.unitFence n1, .unitUnfence n1, .unitOffline n1, .unitOnline n1, .unitRetire n1, .unitHandover n1 n2, .unitRecal n1,
        .unitOpComplete n1 found, .handoverMapAck x, .mgmtClkWrite x w, .clusterClockStop x,
        .clusterClockRestart x] : List Instr), ∃ t, exec i s = .next t) ∧
  (∀ s : State, s.inReset = false →
    (∀ p ∈ ([
        ((fun u _ => Instr.unitFence u), 1), ((fun u _ => Instr.unitUnfence u), 2), ((fun u _ => Instr.unitOffline u), 3),
        ((fun u _ => Instr.unitOnline u), 4), ((fun u _ => Instr.unitRetire u), 5), (Instr.unitHandover, 6), ((fun u _ => Instr.unitRecal u), 7)] :
        List ((Nat → Nat → Instr) × Nat)),
      ∀ u arg : Nat, unitExists u = true →
        let op := p.2
        let arg' := if op = 6 then arg else 0
        let answer (n : Nat) : Prop := exec (p.1 u arg) s = .next (s.setRf (R.MGMT_USTAT u) F.MGMT_USTAT_RESULT n)
        let busy : Bool := s.rf (R.MGMT_USTAT u) F.MGMT_USTAT_BUSY == 1
        let off := s.mode = .load ∨ s.mode = .drain
        (busy = true → answer 1) ∧
        (busy = false → off → answer 2) ∧
        (busy = false → ¬ off → s.opAdmitted u op = false → answer 5) ∧
        (busy = false → ¬ off → s.opAdmitted u op = true → s.opRefused u op arg' = true → answer 3) ∧
        (busy = false → ¬ off → s.opAdmitted u op = true → s.opRefused u op arg' = false → ∃ t, exec (p.1 u arg) s = .next t ∧
          t.rf (R.MGMT_USTAT u) F.MGMT_USTAT_BUSY = 1 ∧ t.unitOps = s.unitOps ++ [⟨u, op, arg'⟩] ∧
          (op = 1 → t.unitState u = 1) ∧ (op ≠ 1 → op ≠ 3 → t.unitState u = s.unitState u) ∧ t.mem = s.mem ∧ t.cores = s.cores)) ∧
    (∀ (u : Nat) (found : List ChanFind),
      (s.opFirst u = none → exec (.unitOpComplete u found) s = .next s) ∧
      (s.mode = .drain → exec (.unitOpComplete u found) s = .next s) ∧
      (∀ o, s.mode ≠ .drain → s.opFirst u = some o → exec (.unitOpComplete u found) s = .next (s.opRun o found)) ∧
      (∀ o, s.mode ≠ .drain → s.opFirst u = some o → o.op = 7 → ∃ t, exec (.unitOpComplete u found) s = .next t ∧ t.unitOps = s.unitOps.erase o ∧
        t.rf (R.MGMT_USTAT u) F.MGMT_USTAT_BUSY = 0 ∧ t.rf (R.MGMT_USTAT u) F.MGMT_USTAT_RESULT = 0 ∧ t.unitState u = s.unitState u) ∧
      (∀ o, s.mode ≠ .drain → s.opFirst u = some o → o.op = 1 → unitKind u = .slice → s.blocked = false → ∃ t, exec (.unitOpComplete u found) s = .next t ∧
        t.unitState u = 2 ∧ t.rf (R.MGMT_USTAT u) F.MGMT_USTAT_BUSY = 0 ∧ t.rf (R.MGMT_USTAT u) F.MGMT_USTAT_RESULT = 0 ∧
        (s.mode = .run → t.mode = .degraded) ∧ t.mem = s.mem)) ∧
    (∀ n : Idx16,
      let u := 0x100 + n.val
      (s.unitOps.find? (·.unit == u) = none → exec (.handoverMapAck n) s = .next s) ∧
      (∀ o, s.unitOps.find? (·.unit == u) = some o → o.op = 6 → s.unitState u = 0 →
        let holds : Bool := s.postings.any (fun p => p.lead == n.val && p.placed) || s.staged n.val != 0 ||
          s.flushes.any (fun f => f.covers.any (·.1 == n.val))
        (holds = true → exec (.handoverMapAck n) s = .next s) ∧
        (holds = false → s.lockWaits = [] → ∃ t, exec (.handoverMapAck n) s = .next t ∧ t.unitState u = 7 ∧
          t.rf (R.MGMT_USTAT u) F.MGMT_USTAT_SIB = o.arg % 16))) ∧
    (∀ (n : Idx16) (v : Word),
      let c := R.MGMT_CLK (0x80 + n.val)
      let f := getF v F.MGMT_CLK_FREQ
      ∃ t, exec (.mgmtClkWrite n v) s = .next t ∧ t.rf c F.MGMT_CLK_STOPIDLE = getF v F.MGMT_CLK_STOPIDLE ∧
        t.rf c F.MGMT_CLK_FREQ = (if 16 ≤ f ∧ f ≤ 68 then f else s.rf c F.MGMT_CLK_FREQ) ∧
        (let held : Bool := (bitB s.pwrHeld n.val && decide (s.clkCur n.val < s.clkFreq n.val)) || bitB s.hot n.val
         16 ≤ f → f ≤ 68 → t.clkCur n.val = (if held = true ∧ s.clkCur n.val < f then s.clkCur n.val else f)) ∧
        (f < 16 ∨ 68 < f → t.clkCur n.val = s.clkCur n.val) ∧
        ∀ key, key ≠ c → t.reg key = s.reg key) ∧
    (∀ n : Idx16,
      let idle : Bool := (List.range 8).all fun j => (s.core (coreOf (8 * n.val + j))).run == .waiting
      let stop : Bool := s.rf (R.MGMT_CLK (0x80 + n.val)) F.MGMT_CLK_STOPIDLE == 1
      ((stop = false ∨ idle = false) → exec (.clusterClockStop n) s = .next s) ∧
      (let s' := s.quietCluster n.val;
        stop = true → idle = true → s.unitUp (0x80 + n.val) = true → s'.blocked = false →
        exec (.clusterClockStop n) s = .next { s' with clkStopped := setF s.clkStopped ⟨n.val, n.val⟩ 1 }) ∧
      ((s.dbMsgs.any (fun m => m.core / 8 == n.val) || !stop || !idle) = true →
        exec (.clusterClockRestart n) s = .next { s with clkStopped := setF s.clkStopped ⟨n.val, n.val⟩ 0 }) ∧
      (stop = true → idle = true → s.dbMsgs.any (fun m => m.core / 8 == n.val) = false → exec (.clusterClockRestart n) s = .next s)))

/-- Detected errors are recorded, injections armed and fired, counters wrap and snapshots latch as the spec says. Rests on R29,
R283, R423, R437, R438, R439, R440, R442, R443, R444, R445, R446. The model's readings and choices: observed facts are operands (log
entry 1), a command whose precondition does not hold changes nothing (log entry 5), which rings telemetry counts (67), ERRINJ's
judgement and periods (75), snapshots in DRAIN (79). -/
def Obligations.ErrorAndInjectionResult : Prop :=
  ∀ s : State, s.inReset = false →
    (∀ (u d : Nat) (sev : ErrSev) (addr : Option Nat) (syn : Word) (detail : List Byte),
      ((unitExists u = false ∨ s.unitState u = 3 ∨ (detClasses u d).contains (sevClass sev) = false) →
        exec (.errorDetect u d sev false addr syn detail) s = .next s) ∧
      (unitExists u = true → s.unitState u ≠ 3 → (detClasses u d).contains .corrected = true → sev = .corrected → s.blocked = false →
        let k := R.MGMT_EPTR (s.steward u)
        let prod := s.rf k F.MGMT_EPTR_PROD
        let full : Bool := (prod + 65536 - s.rf k F.MGMT_EPTR_CONS) % 65536 == 64
        ∃ t, exec (.errorDetect u d sev false addr syn detail) s = .next t ∧ t.mem = s.mem ∧ t.tags = s.tags ∧ t.poison = s.poison ∧
          t.rf k F.MGMT_EPTR_PROD = (if full then prod else (prod + 1) % 65536) ∧ t.mode = s.mode ∧ t.unitState u = s.unitState u)) ∧
    (∀ p ∈ ([(Instr.errinjOneshot, 1), (Instr.errinjPeriodic, 2)] : List ((Nat → Nat → Bool → Instr) × Nat)), ∀ (u d : Nat) (severe : Bool),
      let k := R.ERRINJ_CTL u d
      let has : Bool := unitExists u && !(detClasses u d).isEmpty && !(decide (u < 0x80) && d == 4)
      let may : Bool := s.mode == .diagnostic || ((s.mode == .run || s.mode == .degraded) && !severe && (detClasses u d).contains .corrected)
      (has = true → may = true → ∃ t, exec (p.1 u d severe) s = .next t ∧ t.rf k F.ERRINJ_CTL_MODE = p.2 ∧
        t.rf k F.ERRINJ_CTL_KIND = (if severe then 1 else 0) ∧
        SMap.get zeroNat t.injNext k = s.time.toNat + 1000 * max 1 (s.rf (R.ERRINJ_PER u d) F.ERRINJ_PER_PERIOD) ∧ ∀ key, key ≠ k → t.reg key = s.reg key) ∧
      (has = true → may = false → exec (p.1 u d severe) s = .next s)) ∧
    (∀ u d : Nat,
      let k := R.ERRINJ_CTL u d
      let due := SMap.get zeroNat s.injNext k
      (s.rf k F.ERRINJ_CTL_MODE = 2 → due ≤ s.time.toNat →
        exec (.errinjPeriodExpiry u d) s = .next
          { s with injDue := if (u, d) ∈ s.injDue then s.injDue else s.injDue ++ [(u, d)],
                   injNext := SMap.set zeroNat s.injNext k (due + 1000 * max 1 (s.rf (R.ERRINJ_PER u d) F.ERRINJ_PER_PERIOD)) }) ∧
      ((s.rf k F.ERRINJ_CTL_MODE ≠ 2 ∨ s.time.toNat < due) → exec (.errinjPeriodExpiry u d) s = .next s)) ∧
    (∀ (u : Nat) (n : Idx16),
      let k := R.TEL_EVSEL u n.val
      let c := s.rf (k + 8) F.TEL_CTR_COUNT
      ((evListed u n.val (s.rf k F.TEL_EVSEL_EVENT) = false ∨ c ≠ 2 ^ 48 - 1) → exec (.telCounterWrap u n) s = .next s) ∧
      (unitExists u = true → evListed u n.val (s.rf k F.TEL_EVSEL_EVENT) = true → c = 2 ^ 48 - 1 → s.rf k F.TEL_EVSEL_OVFINT = 0 → 0x80 ≤ u →
        ∃ t, exec (.telCounterWrap u n) s = .next t ∧ t.rf (k + 8) F.TEL_CTR_COUNT = 0 ∧ t.mem = s.mem)) ∧
    (∀ v : Word,
      let at_ := (s.reg R.SNAP_AT).toNat
      let soon : Bool := decide (at_ < s.time.toNat + 2000)
      (soon = true ∨ s.snapAt ≠ none →
        exec (.snapshotArm v) s = .next (s.setRf R.SNAP_CTL F.SNAP_CTL_RESULT (if soon then 1 else 2))) ∧
      (soon = false → s.snapAt = none → ∃ t, exec (.snapshotArm v) s = .next t ∧ t.snapAt = some (s.reg R.SNAP_AT) ∧
        t.rf R.SNAP_CTL F.SNAP_CTL_ID = getF v F.SNAP_CTL_ID ∧ t.rf R.SNAP_CTL F.SNAP_CTL_DBSRC = getF v F.SNAP_CTL_DBSRC ∧
        t.rf R.SNAP_CTL F.SNAP_CTL_RESULT = 0 ∧ t.rf R.SNAP_DONE F.SNAP_DONE_ID = getF v F.SNAP_CTL_ID ∧
        t.rf R.SNAP_DONE F.SNAP_DONE_DONE = 0)) ∧
    ((s.snapAt = none ∨ (∃ x, s.snapAt = some x ∧ s.time.toNat < x.toNat)) → exec .snapshotLatch s = .next s) ∧
    (∀ x, s.snapAt = some x → x.toNat ≤ s.time.toNat → ∃ t, exec .snapshotLatch s = .next t ∧ t.snapAt = none ∧
      t.rf R.SNAP_DONE F.SNAP_DONE_DONE = 1 ∧ t.mem = s.mem ∧ t.cores = s.cores)

/-- Debug unlocks only with a passing attempt, and its halts, accesses, trace and TAP act only at the level they need. Rests on
R447, R448, R449, R450, R451, R452, R455. The model's readings and choices: a command whose precondition does not hold changes
nothing (log entry 5), the field answer (49), debug's corners (65), posted debug writes (83), the request bits of DBG_CCTL (116),
the TAP's instructions (150). -/
def Obligations.DebugAccessResult : Prop :=
  (∀ (w : Word) (k : CoreId) (b : Bool) (n1 n2 : Nat) (s : State),
    ∀ i ∈ ([Instr.dbgUnlockGo w, .dbgLock, .dbgMemoryAccess w, .dbgHalt k, .dbgResume k, .dbgStep k, .dbgRegisterAccess w, .traceEnable w,
        .tapControlAccess b n1 n2 w, .tapExtest n1 n2, .tapReset] : List Instr), ∃ t, exec i s = .next t) ∧
  (∀ s : State,
    exec .tapReset s = .next { s with tap := ⟨none, 0⟩ } ∧
    (s.inReset = false →
      let lv := s.rf R.DBG_CTL F.DBG_CTL_LEVEL
      (∀ v : Word,
        let want := getF v F.DBG_UNLOCK_LEVEL
        let r := s.unlockVerdict want (getF v F.DBG_UNLOCK_KEYIDX)
        ∃ t, exec (.dbgUnlockGo v) s = .next t ∧
          t.rf R.DBG_CTL F.DBG_CTL_LEVEL = (if r = 1 then max lv want else lv) ∧
          (r = 1 ∨ r = 4 ∨ r = 5 → t.rf R.DBG_UNLOCK F.DBG_UNLOCK_RESULT = r ∧ t.dbgFailAt = s.dbgFailAt) ∧
          (r = 2 ∨ r = 3 → t.dbgFailAt = some s.time ∧ t.rf R.DBG_UNLOCK F.DBG_UNLOCK_FAILS = s.rf R.DBG_UNLOCK F.DBG_UNLOCK_FAILS + 1) ∧
          t.mem = s.mem ∧ t.cores = s.cores) ∧
      (∃ t, exec .dbgLock s = .next t ∧ t.rf R.DBG_CTL F.DBG_CTL_LEVEL = 0 ∧ t.tap = { s.tap with extest := none } ∧ t.cores = s.cores ∧ t.mem = s.mem) ∧
      (lv < 2 → (∀ k : CoreId, ∀ i ∈ ([Instr.dbgHalt k, .dbgResume k, .dbgStep k] : List Instr), exec i s = .next s) ∧
        ∀ v, exec (.traceEnable v) s = .next s) ∧
      (2 ≤ lv → ∀ k : CoreId,
        let c := s.core k
        let asked (b : Nat) : State := s.setRf (R.DBG_CCTL k.val) ⟨2, 0⟩ b
        exec (.dbgHalt k) s = .next ((asked 1).setCore k (if c.run = .running ∨ c.run = .waiting then { c with run := .halted, step := false } else c)) ∧
        exec (.dbgResume k) s = .next ((asked 2).setCore k (if c.run = .halted then { c with run := .running, step := false } else c)) ∧
        exec (.dbgStep k) s = .next ((asked 4).setCore k (if c.run = .halted then { c with run := .running, step := true } else c))) ∧
      (2 ≤ lv → ∀ v : Word, ∃ t, exec (.traceEnable v) s = .next t ∧
        t.rf R.DBG_TRCTL F.DBG_TRCTL_WRAP = getF v F.DBG_TRCTL_WRAP ∧ t.rf R.DBG_TRCTL F.DBG_TRCTL_TYPES = getF v F.DBG_TRCTL_TYPES ∧
        (s.traceBufOk = true → s.rf R.DBG_TRCTL F.DBG_TRCTL_EN = 0 → t.rf R.DBG_TRCTL F.DBG_TRCTL_EN = 1 ∧ t.reg R.DBG_TRPTR = 0) ∧
        (s.traceBufOk = false → s.rf R.DBG_TRCTL F.DBG_TRCTL_EN = 0 → t.rf R.DBG_TRCTL F.DBG_TRCTL_EN = 0)) ∧
      (∀ v : Word, s.dbgSealed (s.rf R.DBG_MADDR F.DBG_MADDR_ADDR * 8) = true → s.blocked = false → ∃ t, exec (.dbgMemoryAccess v) s = .next t ∧
        t.rf R.DBG_MCTL F.DBG_MCTL_RESULT = 1 ∧ t.mem = s.mem ∧ t.tags = s.tags ∧ t.reg R.DBG_MDATA = s.reg R.DBG_MDATA) ∧
      (∀ v : Word, lv < 2 → s.blocked = false → ∃ t, exec (.dbgRegisterAccess v) s = .next t ∧ t.cores = s.cores ∧ t.mem = s.mem) ∧
      (∀ (v : Word) (bs : List Byte) (po : BitVec 4) (s₁ : State),
        let a := s.rf R.DBG_MADDR F.DBG_MADDR_ADDR * 8
        2 ≤ lv → getF v F.DBG_MCTL_WRITE = 0 → (s.setRf R.DBG_MCTL F.DBG_MCTL_WRITE 0).dbgSealed a = false → a < 0x900000000000 →
        (s.setRf R.DBG_MCTL F.DBG_MCTL_WRITE 0).dbgGuard a false = (none, s₁) → s₁.physRead a 8 = .ok bs po →
        ∃ t, exec (.dbgMemoryAccess v) s = .next t ∧ t.reg R.DBG_MDATA = BitVec.ofNat 64 (bytesNat bs) ∧ t.rf R.DBG_MCTL F.DBG_MCTL_RESULT = 0) ∧
      (∀ (v : Word),
        let k := coreOf (getF v F.DBG_CSEL_CORE)
        let n := getF v F.DBG_CSEL_INDEX
        let c := s.core k
        2 ≤ lv → s.coreHalted k = true → getF v F.DBG_CSEL_FILE = 0 → n < 32 → getF v F.DBG_CSEL_WRITE = 0 → c.loads = [] → c.longs = [] →
        ∃ t, exec (.dbgRegisterAccess v) s = .next t ∧ t.reg (R.DBG_CDATA 0) = (c.read (c.gDst n)).word ∧ t.reg (R.DBG_CDATA 2) = 0 ∧
          (t.core k).g = c.g ∧ t.mem = s.mem) ∧
      (∀ (key len : Nat) (v x : Word) (s₁ : State), dbgNeeds key false ≤ lv → s.ctlRead 0x170 key len = (.ok x, s₁) →
        exec (.tapControlAccess false key len v) s = .next { s₁ with blocked := false, answer := ⟨0, natBytes (min len 8) x.toNat⟩ }) ∧
      (∀ (key len : Nat) (v : Word), lv < dbgNeeds key true → exec (.tapControlAccess true key len v) s = .next { s with answer := ⟨1, []⟩ }) ∧
      (∀ (key len : Nat) (v : Word), lv < dbgNeeds key false → exec (.tapControlAccess false key len v) s = .next { s with answer := ⟨1, []⟩ }) ∧
      (∀ drive lands : Nat,
        (lv < 3 → exec (.tapExtest drive lands) s = .next { s with answer := ⟨1, []⟩ }) ∧
        (3 ≤ lv → exec (.tapExtest drive lands) s = .next { s with tap := ⟨some drive, drive⟩, answer := ⟨0, natBytes 752 lands⟩ }) ∧
        exec (.tapExtest drive lands .samplePreload) s = .next { s with tap := ⟨none, drive⟩, answer := ⟨0, natBytes 752 lands⟩ } ∧
        (∃ w : BitVec 32, getF w ⟨27, 12⟩ = 0x9128 ∧ exec (.tapExtest drive lands .idcode) s =
          .next { s with tap := { s.tap with extest := none }, answer := ⟨0, natBytes 4 w.toNat⟩ }) ∧
        exec (.tapExtest drive lands .bypass) s = .next { s with tap := { s.tap with extest := none }, answer := ⟨0, [0]⟩ })))

/-- Rings, pends, settings, timers, claims, DONE and line changes act on the doorbell sources as the spec says. Rests on R213, R214,
R216, R222, R223, R232, R217, R218, R219, R220, R229, R230. The model's readings and choices: a command whose precondition does not
hold changes nothing (log entry 5), launches within 48 ns of a change (12), the field answer (49). The model's readings and choices:
a claim ends its source's older setting (log entry 12), which rings are counted (67). -/
def Obligations.DoorbellResult : Prop :=
  (∀ s : State, s.inReset = false →
      let fired (t : State) (x : Nat) : Prop := t.rf (R.DBH_SRC x) F.DBH_SRC_P = 1 ∧ t.dbCntOf x = 0
      let now := s.time.toNat
      (∀ v : Word,
        let x := v.toNat % 65536
        let n := min 255 (s.dbCntOf x + 1)
        let tm := s.rf (R.DBH_SRC x) F.DBH_SRC_TIME
        let due := if n = 1 then (if tm = 0 then now else (now + tm * 32 + 31) / 32 * 32) else s.dbDueOf x
        let full := max (s.rf (R.DBH_SRC x) F.DBH_SRC_COUNT) 1 ≤ n ∨ due ≤ now
        (v.toNat / 65536 % 65536 ≠ 0 → exec (.dbhRing v) s = .next (s.incRf R.DBH_STAT F.DBH_STAT_BADRING)) ∧
        (v.toNat / 65536 % 65536 = 0 → ∃ t, exec (.dbhRing v) s = .next (t.count 0x140 0x10 1) ∧ t.mem = s.mem ∧ t.mode = s.mode ∧
          (full → fired t x) ∧ (¬ full → t.dbCntOf x = n ∧ t.reg (R.DBH_SRC x) = s.reg (R.DBH_SRC x)))) ∧
      (∀ x : Nat, x < 65536 →
        let due : Bool := decide (1 ≤ s.dbCntOf x) && decide (s.dbDueOf x ≤ now / 32 * 32)
        (due = false → exec (.dbhTickFire x) s = .next s) ∧ (due = true → ∃ t, exec (.dbhTickFire x) s = .next t ∧ fired t x)) ∧
      (∀ v : Word,
        let x := v.toNat % 65536
        (∃ t, exec (.dbhPend v) s = .next t ∧ fired t x) ∧
        (∃ t, exec (.dbhUnpend v) s = .next t ∧ t.rf (R.DBH_SRC x) F.DBH_SRC_P = 0 ∧ t.rf (R.DBH_SRC x) F.DBH_SRC_L = 0 ∧ t.dbCntOf x = 0 ∧
          t.rf (R.DBH_SRC x) F.DBH_SRC_A = s.rf (R.DBH_SRC x) F.DBH_SRC_A)) ∧
      (∀ (k : CoreId) (v : Word), ∃ t, exec (.dbhPpendWrite k v) s = .next t ∧ (SMap.wf zeroNat s.dbPriv = true →
        ∀ j, j < 64 → privP (t.privOf k.val j) = (privP (s.privOf k.val j) || (bitB v j && !privReserved j)))) ∧
      (∀ v : Word,
        let c := getF v F.DBH_IPI_CORE
        let n := getF v F.DBH_IPI_INDEX
        let here : Bool := getF v F.DBH_IPI_REMOTE == 0 || getF v F.DBH_IPI_SOCKET == s.socket.toNat
        (here = true → ∃ t, exec (.dbhIpi v) s = .next t ∧ privP (t.privOf c (0x20 + n)) = true) ∧
        (here = false → ∀ p, s.portTo (getF v F.DBH_IPI_SOCKET) = some p →
          exec (.dbhIpi v) s = .next { s with peerOut := s.peerOut ++ [⟨p, 0x30, [], false, 0, 0, 0x140, c + n * 128, 0⟩] }) ∧
        (here = false → s.portTo (getF v F.DBH_IPI_SOCKET) = none →
          exec (.dbhIpi v) s = .next (s.incRf R.DBH_STAT F.DBH_STAT_BADRING))) ∧
      (∀ (x : Nat) (v : Word), x < 65536 → ∃ t, exec (.dbhSrcWrite x v) s = .next t ∧
        (∀ f ∈ [F.DBH_SRC_TARGET, F.DBH_SRC_GECKO, F.DBH_SRC_MASK, F.DBH_SRC_COUNT, F.DBH_SRC_TIME], t.rf (R.DBH_SRC x) f = getF v f) ∧
        (∀ f ∈ [F.DBH_SRC_P, F.DBH_SRC_A], t.rf (R.DBH_SRC x) f = s.rf (R.DBH_SRC x) f) ∧ t.dbCntOf x = s.dbCntOf x) ∧
      (∀ v : Word, ∃ t, exec (.dbhHoldWrite v) s = .next t ∧ t.rf R.DBH_HOLD F.DBH_HOLD_NORMAL = getF v F.DBH_HOLD_NORMAL ∧
        t.rf R.DBH_HOLD F.DBH_HOLD_GECKO = getF v F.DBH_HOLD_GECKO) ∧
      (∀ (k : CoreId) (n : Fin 2),
        let armed : Bool := s.rf (R.DBH_TCTL k.val) (timerEn n.val) == 1 && decide ((s.reg (timerCmp k.val n.val)).toNat ≤ now)
        (armed = false → exec (.dbhTimerFire k n) s = .next s) ∧
        (armed = true → ∃ t, exec (.dbhTimerFire k n) s = .next t ∧ t.rf (R.DBH_TCTL k.val) (timerEn n.val) = 0 ∧
          privP (t.privOf k.val n.val) = true)) ∧
      (∀ (k : CoreId) (v : Word), now < (s.reg (R.DBH_TCMP0 k.val)).toNat → now < (s.reg (R.DBH_TCMP1 k.val)).toNat →
        ∃ t, exec (.dbhTctlWrite k v) s = .next t ∧ t.rf (R.DBH_TCTL k.val) F.DBH_TCTL_EN0 = getF v F.DBH_TCTL_EN0 ∧
          t.rf (R.DBH_TCTL k.val) F.DBH_TCTL_EN1 = getF v F.DBH_TCTL_EN1)) ∧
  (∀ (k : CoreId) (s : State), s.inReset = false →
      (∀ p ∈ ([(Instr.dbhClaim, [true, false]), (Instr.dbhClaimg, [true]), (Instr.dbhClaimn, [false])] : List ((CoreId → Instr) × List Bool)),
        (s.claimPeek k.val p.2 = none → exec (p.1 k) s = .next { s with answer := ⟨0, natBytes 4 0xFFFFFFFF⟩ }) ∧
        (∀ x, s.claimPeek k.val p.2 = some x → ∃ t, exec (p.1 k) s = .next t ∧ t.answer = ⟨0, natBytes 4 x⟩ ∧
          (x < 65536 → t.rf (R.DBH_SRC x) F.DBH_SRC_A = 1 ∧ t.rf (R.DBH_SRC x) F.DBH_SRC_LCORE = k.val) ∧ t.mem = s.mem ∧ t.mode = s.mode)) ∧
      exec (.dbhPeek k) s = .next { s with answer := ⟨0, natBytes 4 ((s.claimPeek k.val [true, false]).getD 0xFFFFFFFF)⟩ } ∧
      (∀ v : Word,
        let x := v.toNat % 2 ^ 32
        let mine : Bool :=
          if x < 0x10000 then s.rf (R.DBH_SRC x) F.DBH_SRC_A == 1 && s.rf (R.DBH_SRC x) F.DBH_SRC_LCORE == k.val
          else decide (x < 0x10040) && privA (s.privOf k.val (x - 0x10000))
        (mine = false → exec (.dbhDone k v) s = .next (s.incRf R.DBH_STAT F.DBH_STAT_BADDONE)) ∧
        (mine = true → x < 0x10000 → ∃ t, exec (.dbhDone k v) s = .next t ∧ t.rf (R.DBH_SRC x) F.DBH_SRC_A = 0 ∧
          t.rf (R.DBH_SRC x) F.DBH_SRC_P = s.rf (R.DBH_SRC x) F.DBH_SRC_P) ∧
        (mine = true → 0x10000 ≤ x → ∃ t, exec (.dbhDone k v) s = .next t ∧ privA (t.privOf k.val (x - 0x10000)) = false)) ∧
      ((s.clockStopped (k.val / 8) = true ∨ s.dbMsgs.find? (fun m => m.core == k.val) = none) → exec (.interruptLineChange k) s = .next s) ∧
      (∀ m, s.clockStopped (k.val / 8) = false → s.dbMsgs.find? (fun m => m.core == k.val) = some m →
        let c := s.core k
        let d := if m.gecko then { c with lineG := m.level } else { c with lineN := m.level }
        exec (.interruptLineChange k) s = .next ({ s with dbMsgs := s.dbMsgs.erase m }.setCore k
          (if m.level = true ∧ c.run = CoreRun.waiting then { d with run := .running } else d))))

/-- Purse writes invalidate and complete, free lists pop and push, recalls arrive and fences collect their acknowledgements. Rests
on R47, R65, R66, R67, R76, R77, R79, R87, R88, R90, R91. The model's readings and choices: a command whose precondition does not
hold changes nothing (log entry 5), waiting and re-issue (8), refused purse writes (93), the order of messages (102), directory
evictions (108). -/
def Obligations.PurseAndFenceResult : Prop :=
  (∀ (a l : Nat) (bs : List Byte) (s : State),
      let es := s.entriesIn a bs.length
      (es = [] → exec (.purseWrite a bs) s = .next s) ∧
      (es ≠ [] → s.localOf a = some l → a % 64 + bs.length ≤ 64 → s.writeHeld a bs.length = false → (∀ i ∈ es, s.discards i a bs = false) →
        ∃ t, exec (.purseWrite a bs) s = .next t ∧ (∀ j, j < bs.length → t.memB (a + j) = bs.getD j 0) ∧
          ∀ x, x < a ∨ a + bs.length ≤ x → t.memB x = s.memB x)) ∧
  (∀ (id : Nat) (n : Idx16) (s : State), s.inReset = false →
      let dropped (is : List Nat) (t : State) : Prop :=
        (∀ k : CoreId, k.val / 8 = n.val → ∀ e ∈ (t.core k).pcache, e.1 ∉ is) ∧ ∀ i ∈ is, bitB (t.dirOf i) n.val = false
      (s.purseWrs.find? (·.id == id) = none → ∃ t, exec (.purseInvalidate id n) s = .next t ∧ dropped [id] t ∧
        (∀ k : CoreId, k.val / 8 ≠ n.val → t.core k = s.core k) ∧ t.purseWrs = s.purseWrs ∧ t.mem = s.mem) ∧
      (∀ w, s.purseWrs.find? (·.id == id) = some w →
        bitB w.inval n.val = false ∨ s.wrFirst id (fun x => bitB x.inval n.val) = false → exec (.purseInvalidate id n) s = .next s) ∧
      (∀ w, s.purseWrs.find? (·.id == id) = some w → bitB w.inval n.val = true → s.wrFirst id (fun x => bitB x.inval n.val) = true →
        ∃ t, exec (.purseInvalidate id n) s = .next t ∧ dropped w.idxs t ∧
        (∀ k : CoreId, k.val / 8 ≠ n.val → t.core k = s.core k) ∧
        (∀ e ∈ t.purseWrs, e.id = id → bitB e.inval n.val = false) ∧ t.mem = s.mem)) ∧
  (∀ (id : Nat) (n : Idx16) (s : State), s.inReset = false → ∃ t, exec (.purseInvalAck id n) s = .next t ∧ t.mem = s.mem ∧
      (∀ k : CoreId, ∃ b, t.core k = { s.core k with sb := b }) ∧
      (s.wrFirst id (fun x => bitB x.acks n.val && !bitB x.inval n.val) = false → t = s) ∧
      (∀ w, s.purseWrs = [w] → w.id = id → w.inval = 0 → w.acks = BitVec.ofNat 16 (2 ^ n.val) → t.purseWrs = [] ∧
        ∀ k : CoreId, t.core k = { s.core k with sb := sbDrop (·.wait == .purse id) false (s.core k).sb })) ∧
  (∀ (k : CoreId) (s : State),
      let c := s.core k
      let may : Bool := c.refill && s.freeEn k && decide (c.reserve.length < 2) && s.coreServes k.val
      (may = false → exec (.freeListPop k) s = .next s) ∧
      (∀ i t, may = true → s.pop (s.freeHead k) none = (.entry i, t) → t.blocked = false → ∃ t', exec (.freeListPop k) s = .next t' ∧
        (t'.core k).reserve = (t.core k).reserve ++ [⟨i, s.freeHead k⟩] ∧ t'.mem = t.mem) ∧
      (∀ t, may = true → (s.pop (s.freeHead k) none = (.empty, t) ∨ s.pop (s.freeHead k) none = (.badlist, t)) → t.blocked = false →
        exec (.freeListPop k) s = .next (t.setCore k { t.core k with refill := false })) ∧
      (∀ r t, may = true → s.pop (s.freeHead k) none = (r, t) → t.blocked = true → exec (.freeListPop k) s = .next s)) ∧
  (∀ (h i : Nat) (s : State),
      (s.push h i none = none → exec (.freeListPush h i) s = .next s) ∧ (∀ t, s.push h i none = some t → exec (.freeListPush h i) s = .next (if t.blocked then s else t))) ∧
  (∀ (k : CoreId) (s : State),
      ((s.core k).recallW = none ∨ (∃ w, (s.core k).recallW = some w ∧ w.arrived ≠ none) → exec (.recallArrive k) s = .next s) ∧
      (∀ w e t, (s.core k).recallW = some w → w.arrived = none → ((s.finishCorePurseWrs k.val).takeEntry w.idx).recallChange k w = (e, t) →
          t.blocked = false → e ≠ .status 4 →
        ∃ t', exec (.recallArrive k) s = .next t' ∧ t'.fences.length = t.fences.length + 1 ∧ (t'.core k).recallW = some { w with arrived := some e, fence := t.nextId } ∧
          t'.mem = t.mem ∧ ∃ f ∈ t'.fences, f.id = t.nextId ∧ f.kind = .recallOf k.val ∧ f.purses = [w.idx] ∧ f.markers = f.acks) ∧
      (∀ w e t, (s.core k).recallW = some w → w.arrived = none → ((s.finishCorePurseWrs k.val).takeEntry w.idx).recallChange k w = (e, t) →
        (t.blocked = true → e ≠ .status 4 → exec (.recallArrive k) s = .next s) ∧
        (e = .status 4 →
          exec (.recallArrive k) s = .next (s.orWait ((t.modCore k fun c => { c with recallW := some { w with arrived := some e } }).recallEnd k))))) ∧
  (∀ (id : Nat) (agent : FenceAgent) (f : Fence) (s : State), s.fenceOf id = some f → agent ∈ f.markers →
      let first := s.fenceFirst f fun g => s.markersOut g && g.markers.contains agent
      (s.markersOut f = false ∨ first = false → exec (.fenceMarker id agent) s = .next s) ∧
      (s.markersOut f = true → first = true →
        (agent = .guards → exec (.fenceMarker id agent) s = .next ((s.guardsMarker f.purses).marked id agent s.admitted)) ∧
        (∀ n : Idx16, agent = .teller n →
          exec (.fenceMarker id agent) s = .next ((s.tellerMarker n.val).2.marked id agent (s.tellerMarker n.val).1)) ∧
        (∀ n : Idx16, agent = .cluster n → (∃ k, f.kind = .recallOf k) →
          let t := s.clusterPerform n.val
          exec (.fenceMarker id agent) s = .next (if t.blocked then s else t.marked id agent [])) ∧
        (∀ p : PortId, agent = .peer p →
          (s.portLinked p.val = false → exec (.fenceMarker id agent) s = .next (s.marked id agent [])) ∧
          (s.portLinked p.val = true → ∀ k i, f.kind = .recallOf k → f.purses = [i] → exec (.fenceMarker id agent) s =
            .next ((s.send ⟨p.val, 0x31, [], false, 0, id % 65536, 0x130 + p.val, 0, BitVec.ofNat 64 i⟩).marked id agent [0]))))) ∧
  (∀ (id : Nat) (agent : FenceAgent) (f : Fence) (s : State), s.fenceOf id = some f →
      let first := s.fenceFirst f fun g => !g.markers.contains agent && g.acks.contains agent && !s.agentWaits g agent
      (agent ∈ f.markers ∨ agent ∉ f.acks ∨ s.agentWaits f agent = true ∨ first = false → exec (.fenceAck id agent) s = .next s) ∧
      (agent ∉ f.markers → agent ∈ f.acks → s.agentWaits f agent = false → first = true →
        ∃ g, (s.modFence id fun f => { f with acks := f.acks.filter (· != agent) }).fenceOf id = some g ∧ g.acks = f.acks.filter (· != agent) ∧
          (g.acks ≠ [] → exec (.fenceAck id agent) s = .next (s.modFence id fun f => { f with acks := f.acks.filter (· != agent) })) ∧
          (g.acks = [] → exec (.fenceAck id agent) s =
            .next ((s.modFence id fun f => { f with acks := f.acks.filter (· != agent) }).fenceDone g))))

/-- The sweeper takes its list only while idle, refuses GO while busy or without a usable free list, and clears only tags of listed
purses. Rests on R94, R95, R96. The model's readings and choices: a command whose precondition does not hold changes nothing (log
entry 5), the sweeper's list and lost links (45, 55), RESULT while a sweep runs (120), an empty MACHINE sweep (121), a push that
fails at FINISH (132). -/
def Obligations.SweepResult : Prop :=
  ∀ s : State, s.inReset = false →
    (∀ v : Word,
      (s.swPhase ≠ 0 → exec (.sweepAdd v) s = .next s) ∧
      (s.swPhase = 0 → 4096 ≤ s.sweep.list.length → exec (.sweepAdd v) s = .next (s.setResult 4)) ∧
      (s.swPhase = 0 → s.sweep.list.length < 4096 → ∃ t, exec (.sweepAdd v) s = .next t ∧
        t.sweep.list = s.sweep.list ++ [getF v F.VLT_SWADD_INDEX] ∧ t.sweep.jobs = s.sweep.jobs ∧ t.mem = s.mem)) ∧
    (s.swPhase ≠ 0 → exec .sweepClear s = .next s) ∧
    (s.swPhase = 0 → ∃ t, exec .sweepClear s = .next t ∧ t.sweep.list = [] ∧ t.rf R.VLT_SWSTAT F.VLT_SWSTAT_COUNT = 0 ∧ t.mem = s.mem) ∧
    (∀ v : Word, getF v F.VLT_SWCTL_CLEAR = 0 →
      (s.swPhase ≠ 0 → ∃ t, exec (.sweepGo v) s = .next t ∧ t.rf R.VLT_SWSTAT F.VLT_SWSTAT_RESULT = 5 ∧ t.sweep = s.sweep ∧ t.mem = s.mem) ∧
      (s.swPhase = 0 → s.headUsable s.swHead = false → ∃ t, exec (.sweepGo v) s = .next t ∧ t.rf R.VLT_SWSTAT F.VLT_SWSTAT_RESULT = 6 ∧
        t.sweep = s.sweep ∧ t.mem = s.mem) ∧
      (s.swPhase = 0 → s.headUsable s.swHead = true → s.sweep.list.length ≤ 4096 → ∃ t, exec (.sweepGo v) s = .next t ∧
        t.sweep.list = s.sweep.list.filter s.isRetired ∧
        t.rf R.VLT_SWSTAT F.VLT_SWSTAT_DROPPED = s.sweep.list.length - (s.sweep.list.filter s.isRetired).length)) ∧
    (∀ u : Nat,
      (s.scanOwned u ≠ [] → ∃ t, exec (.tagEngineScanDone u) s = .next t ∧ t.mem = s.mem ∧ t.tags = s.tags ∧ t.sweep = s.sweep) ∧
      (s.scanOwned u = [] → s.sweep.jobs.find? (fun j => j.stage == .scan && j.engines.contains u) = none →
        exec (.tagEngineScanDone u) s = .next s) ∧
      (∀ j, s.scanOwned u = [] → s.sweep.jobs.find? (fun j => j.stage == .scan && j.engines.contains u) = some j → s.jobOf j.id = some j →
        let scanned := s.scanEngine u j.list
        let left := j.engines.filter (· != u)
        let v := scanned.modJob j.id fun j => { j with engines := left }
        scanned.mem = s.mem ∧ scanned.cores = s.cores ∧
        (∀ a, s.engineOf (a / 16 * 16) = some u → (s.poisoned a = true ∨ s.readNat (a / 16 * 16 + 8) 4 ∈ j.list) → scanned.tagAt a = false) ∧
        (∀ a, s.poisoned a = false → (s.engineOf (a / 16 * 16) ≠ some u ∨ s.readNat (a / 16 * 16 + 8) 4 ∉ j.list) →
          scanned.tagAt a = s.tagAt a) ∧
        (∀ a, s.poisoned a = true → (∀ x, x / 64 = a / 64 → s.engineOf x ≠ some u) → scanned.tagAt a = s.tagAt a) ∧
        ((left ≠ [] ∨ j.undone ≠ [] ∨ v.jobWaits { j with engines := left } = true) →
          exec (.tagEngineScanDone u) s = .next v ∧ v.jobOf j.id = some { j with engines := left }) ∧
        (left = [] → j.undone = [] → v.jobWaits { j with engines := left } = false →
          ∃ t, exec (.tagEngineScanDone u) s = .next t ∧ t.jobOf j.id = none ∧
            (j.origin = none → t.swPhase = 0 ∧ t.rf R.VLT_SWSTAT F.VLT_SWSTAT_RESULT =
              (if s.headUsable s.swHead = false then 7 else if s.rf R.VLT_SWSTAT F.VLT_SWSTAT_DROPPED ≠ 0 then 2 else 1)) ∧
            (∀ p tx, j.origin = some (p, tx) → ⟨p, 0x34, [], false, 0, tx, 0x100, 2, 0⟩ ∈ t.peerOut))))

/-- Memory controllers, partitions, CXL regions, copy engines and home slices change their state as the spec says. Rests on R263,
R265, R270, R271, R273, R278, R279, R283, R284, R285, R286, R280. The model's readings and choices: observed facts are operands (log
entry 1), a command whose precondition does not hold changes nothing (log entry 5), newer data over devices (36), what unwritten
memory reads (37), the order of partition and copy checks (50, 51). The model's readings and choices: SNOOP without a pending snoop
(log entry 53), evictions (118), partitions of odd shape and in RELEASING (136, 137), vault lines that are no state (147). -/
def Obligations.MemoryAndHomeSliceResult : Prop :=
  (∀ (n : Idx16) (s : State), s.inReset = false →
      let m := 0x110 + n.val
      let st := R.VLT_PSTAT (0x100 + n.val)
      let part := R.VLT_PART (0x100 + n.val)
      let copy := R.MEM_COPYCTL m
      (∀ upto : Nat,
        let from_ := s.rf (R.MEM_INIT m) F.MEM_INIT_FRONTIER * 4096
        let to_ := min (upto / 4096 * 4096) (s.chanCap n.val)
        let may : Bool := s.mode != .load && s.chanReady n.val && s.rf (R.MEM_INIT m) F.MEM_INIT_DONE != 1 && decide (from_ < to_)
        (may = false → exec (.ddrInitPass n upto) s = .next s) ∧
        (may = true → s.chanCap n.val ≤ 2 ^ 40 → ∃ t, exec (.ddrInitPass n upto) s = .next t ∧ t.rf (R.MEM_INIT m) F.MEM_INIT_FRONTIER = to_ / 4096 ∧
          (∀ a, s.inChan n.val from_ to_ a = true → t.memB a = 0) ∧ ∀ a, s.inChan n.val from_ to_ a = false → t.memB a = s.memB a)) ∧
      (∀ (a : Nat) (last : Bool),
        let on : Bool := s.rf (R.MEM_SCRUB m) F.MEM_SCRUB_EN == 1 && s.chanReady n.val && decide (a < s.ddrTop) && s.home a == n.val
        (on = false → ∀ found, exec (.patrolScrubRead n a found last) s = .next s) ∧
        (on = true → exec (.patrolScrubRead n a .clean last) s = .next (if last then s.incRf (R.MEM_SCRUB m) F.MEM_SCRUB_PASSES else s)) ∧
        (on = true → ∃ t, exec (.patrolScrubRead n a .uncorrectable last) s = .next t ∧ t.mem = s.mem ∧
          (s.cachedCopy (a / 64 * 64) = false → t.poisoned (a / 64 * 64) = true) ∧
          (s.cachedCopy (a / 64 * 64) = true → t.poison = s.poison ∧ a / 64 * 64 ∈ t.dramBad))) ∧
      (∃ t, exec (.dramRefresh n) s = .next t ∧ t.mem = s.mem ∧ t.tags = s.tags ∧ t.poison = s.poison) ∧
      (∀ v : Word, s.partEn n.val = false → getF v F.VLT_PART_WAYS ≤ 16 →
        let s' := (s.setRf part F.VLT_PART_WAYS (getF v F.VLT_PART_WAYS)).setRf part F.VLT_PART_KIND (getF v F.VLT_PART_KIND)
        let b := s'.partBase n.val
        let e := s'.partEnd n.val
        let refuse := if b % (16 * s'.gran) ≠ 0 then 1 else if s'.rangeFenced b e then 3 else if s'.rangeNoTarget b e then 2 else 0
        (refuse ≠ 0 → exec (.partitionEnable n v) s = .next (s'.setRf st F.VLT_PSTAT_REFUSE refuse)) ∧
        (refuse = 0 → ∃ t, exec (.partitionEnable n v) s = .next t ∧ t.partEn n.val = true ∧ t.rf st F.VLT_PSTAT_STATE = 1 ∧
          t.rf st F.VLT_PSTAT_FILLED = 0 ∧ t.mem = s.mem)) ∧
      (∀ v : Word, s.partEn n.val = true → ∃ t, exec (.partitionRelease n v) s = .next t ∧ t.partEn n.val = false ∧
        t.rf st F.VLT_PSTAT_STATE = 3 ∧ t.mem = s.mem) ∧
      (s.partEn n.val = true → s.rf st F.VLT_PSTAT_STATE = 1 → s.rf part F.VLT_PART_WAYS ≤ 16 → ∃ t, exec (.partitionFillDone n) s = .next t ∧
        t.rf st F.VLT_PSTAT_STATE = 2 ∧ t.rf st F.VLT_PSTAT_FILLED = 16384 * s.rf part F.VLT_PART_WAYS) ∧
      (s.rf st F.VLT_PSTAT_STATE = 3 → ∃ t, exec (.partitionReleaseDone n) s = .next t ∧ t.rf st F.VLT_PSTAT_STATE = 0 ∧ t.rf st F.VLT_PSTAT_FILLED = 0) ∧
      (∀ (r : Idx16) (v : Word),
        let k := R.VLT_CXLR (0x100 + n.val) r.val
        let o := s.reg k
        (getF o F.VLT_CXLR_EN = 1 → exec (.cxlRegionEnable n r v) s = .next s) ∧
        (getF o F.VLT_CXLR_EN = 0 → ∃ t, exec (.cxlRegionEnable n r v) s = .next t ∧ t.rf k F.VLT_CXLR_EN = 1 ∧ t.rf k F.VLT_CXLR_READY = 0 ∧
          t.rf k F.VLT_CXLR_BASE = getF v F.VLT_CXLR_BASE ∧ t.rf k F.VLT_CXLR_SIZE = getF v F.VLT_CXLR_SIZE ∧ t.mem = s.mem) ∧
        (getF o F.VLT_CXLR_EN = 1 → getF o F.VLT_CXLR_READY = 0 → ∃ t, exec (.cxlRegionDisable n r v) s = .next t ∧
          t.rf k F.VLT_CXLR_EN = 0 ∧ t.mem = s.mem) ∧
        (getF o F.VLT_CXLR_EN = 1 → getF o F.VLT_CXLR_READY = 1 → ∃ t, exec (.cxlRegionDisable n r v) s = .next t ∧
          t.rf k F.VLT_CXLR_EN = 0 ∧ t.rf k F.VLT_CXLR_READY = 0 ∧ ∀ a, s.inRegion n.val o a = true → t.memB a = 0) ∧
        (∀ cap : Nat,
         let good : Bool := decide (getF o F.VLT_CXLR_SIZE * 2 ^ 30 * 129 / 128 ≤ cap) && getF o F.VLT_CXLR_EN == 1 && getF o F.VLT_CXLR_READY == 0 &&
           s.cxlRules n.val r.val && s.cxlTrained o
         (good = false → exec (.cxlRegionReady n r cap) s = .next s) ∧
         (good = true → ∃ t, exec (.cxlRegionReady n r cap) s = .next t ∧ t.rf k F.VLT_CXLR_READY = 1))) ∧
      (∀ v : Word, getF v F.MEM_COPYCTL_ABORT = 0 → s.rf copy F.MEM_COPYCTL_STATE ≠ 1 → s.rf copy F.MEM_COPYCTL_STATE ≠ 2 →
        ∃ t, exec (.memCopyGo n v) s = .next t ∧ t.mem = s.mem ∧
          (getF v F.MEM_COPYCTL_PAGES ≠ 0 → t.rf copy F.MEM_COPYCTL_STATE = if s.sweeping then 2 else 1) ∧
          (getF v F.MEM_COPYCTL_PAGES = 0 → t.rf copy F.MEM_COPYCTL_STATE = 3)) ∧
      (∀ v : Word, getF v F.MEM_COPYCTL_GO = 0 → ∃ t, exec (.memCopyAbort n v) s = .next t ∧ t.rf copy F.MEM_COPYCTL_STATE = 0 ∧ t.mem = s.mem) ∧
      ((s.rf copy F.MEM_COPYCTL_STATE ≠ 1 ∨ s.mode = .brumation ∨ s.mode = .drain) → s.blocked = false → exec (.memCopyPageDone n) s = .next s) ∧
      (∀ src dst : Nat, s.rf copy F.MEM_COPYCTL_STATE = 1 → s.mode ≠ .brumation → s.mode ≠ .drain →
        src = s.rf (R.MEM_COPYSRC m) F.MEM_COPYSRC_ADDR * 4096 → dst = s.rf (R.MEM_COPYDST m) F.MEM_COPYDST_ADDR * 4096 →
        (∀ j, j < 4096 → s.localOf (src + j) = some (src + j) ∧ s.localOf (dst + j) = some (dst + j)) → src + 4096 ≤ dst →
        s.entriesIn dst 4096 = [] → s.readHeld src 4096 = false → s.writeHeld dst 4096 = false → s.blocked = false → 1 < s.rf copy F.MEM_COPYCTL_PAGES →
        ∃ t, exec (.memCopyPageDone n) s = .next t ∧ (∀ j, j < 4096 → t.memB (dst + j) = s.memB (src + j) ∧ t.tagAt (dst + j) = s.tagAt (src + j)) ∧
          (∀ a, a < dst ∨ dst + 4096 ≤ a → t.memB a = s.memB a) ∧
          t.rf copy F.MEM_COPYCTL_PAGES = s.rf copy F.MEM_COPYCTL_PAGES - 1)) ∧
  ((∀ (unit a : Nat) (excl : Bool) (s : State), s.inReset = false →
        (s.localOf a = none → exec (.coherentRequest unit a excl) s = .next s) ∧
        (∀ l, s.localOf a = some l → s.homeReqs = [] → s.lockWaits = [] → (∀ x ∈ s.snoops, x.line ≠ l / 64 * 64) → (∀ x ∈ s.cellLocks, x.line ≠ l / 64 * 64) →
          unit < 0x80 → s.headHeld (l / 64 * 64) = false → (excl = true → s.purseBusy l = false) → let r := HomeReq.mk unit (l / 64 * 64) excl none
          (s.needSnoops r = [] → ∃ t, exec (.coherentRequest unit a excl) s = .next t ∧
            t.clustersOf l = (if excl then ⟨BitVec.ofNat 16 (2 ^ (unit / 8)), true⟩ else ⟨(s.clustersOf l).who ||| BitVec.ofNat 16 (2 ^ (unit / 8)), false⟩) ∧
            t.homeReqs = [] ∧ t.mem = s.mem ∧ t.tags = s.tags ∧ t.poison = s.poison) ∧
          (s.needSnoops r ≠ [] → ∃ t, exec (.coherentRequest unit a excl) s = .next t ∧ t.homeReqs = [r] ∧ t.clustersOf l = s.clustersOf l ∧
            (∀ u ∈ s.needSnoops r, ∃ x ∈ t.snoops, x.line = l / 64 * 64 ∧ x.agent = u) ∧ t.mem = s.mem ∧ t.tags = s.tags ∧ t.poison = s.poison))) ∧
    (∀ (c : Idx16) (a : Nat) (s : State), s.inReset = false → s.homeReqs = [] → s.lockWaits = [] →
        (∀ x ∈ s.snoops, x.line = a / 64 * 64 → x.agent = 0x80 + c.val → x.inval = true) →
        ∃ t, exec (.snoop c a) s = .next t ∧ bitB (t.clustersOf a).who c.val = false ∧ t.mem = s.mem ∧ t.tags = s.tags ∧ t.poison = s.poison))

/-- Each event of a posting's course takes it one stage further, from intake over its locks, number and cell writes to its record.
Rests on R300, R301, R303, R304, R305, R306, R307, R308, R311, R318, R320, R331. The model's readings and choices: a command whose
precondition does not hold changes nothing (log entry 5), waiting (8), slots of a CLOSED teller (39), leads and PEERLOST (41, 43),
amounts without value and completion rings (94), the order of messages (102, 145), SLOT of CRLOST (112), TIME of a record (139). -/
def Obligations.PostingCourseResult : Prop :=
  ∀ s : State, s.inReset = false →
    (∀ (id : Nat) (p : Posting), s.postingOf id = some p →
      let order := p.order
      (s.intakeHeld = true → exec (.postingIntake id) s = .next s) ∧
      (s.intakeHeld = false → p.phase = .sent → s.tellerClosed p.intake = true →
        exec (.postingIntake id) s = .next ((s.replyPost p 2).dropPosting id)) ∧
      (s.intakeHeld = false → p.phase = .sent → s.tellerClosed p.intake = false → 64 ≤ s.queuedAt p.intake →
        exec (.postingIntake id) s = .next (((s.incRf (R.TLR_STAT (tu p.intake)) F.TLR_STAT_BUSY).replyPost p 1).dropPosting id)) ∧
      (∀ t : State, s.intakeHeld = false → p.phase = .sent → s.tellerClosed p.intake = false → s.queuedAt p.intake < 64 →
        (s.crCheck p = (.bad, t) → (∀ r i, p.origin ≠ .slot r i) → exec (.postingIntake id) s = .next ((t.replyPost p 3).dropPosting id)) ∧
        (s.crCheck p = (.bad, t) → ∀ r i, p.origin = .slot r i →
          exec (.postingIntake id) s = .next ((t.lastErr p.intake 0x31 0 p.ringNo p.slotNo).dropPosting id)) ∧
        (s.crCheck p = (.wait, t) → exec (.postingIntake id) s = .next (s.keepRequests t)) ∧
        (s.crCheck p = (.ok, t) → exec (.postingIntake id) s = .next
          (((t.modPosting id fun p => { p with phase := .queued true, diag := t.mode == .diagnostic }).replyPost p 0).intakeStep4 id))) ∧
      (p.phase ≠ .forwarded ∨ s.mode = .brumation → exec (.postingLeadArrival id) s = .next s) ∧
      (p.phase = .forwarded → s.mode ≠ .brumation → s.noPlace p (s.duty p.lead) = true →
        exec (.postingLeadArrival id) s = .next (s.waitPlace p (s.duty p.lead))) ∧
      (p.phase = .forwarded → s.mode ≠ .brumation → s.noPlace p (s.duty p.lead) = false → 0x10 ≤ p.status →
        exec (.postingLeadArrival id) s = .next ((s.modPosting id fun p => { p with lead := s.duty p.lead }).reject id p.status p.leg p.cause)) ∧
      (∀ pa leg a, p.phase = .forwarded → s.mode ≠ .brumation → s.noPlace p (s.duty p.lead) = false → p.status < 0x10 → order[0]? = some (pa, leg) → s.localOf pa = some a →
        ∃ t, exec (.postingLeadArrival id) s = .next t ∧ t.postingOf id = some { p with lead := s.duty p.lead, phase := .lockReq 0, sent := s.nextId } ∧
          t.mem = s.mem ∧ t.csr = s.csr) ∧
      (∀ i, p.phase = .lockReq i → s.inOrder p = false → s.lockWaits = [] → s.homeReqs = [] → exec (.cellLockRequest id) s = .next s) ∧
      (∀ i pa leg a, p.phase = .lockReq i → s.inOrder p = true → order[i]? = some (pa, leg) → s.localOf pa = some a → s.lockWaits = [] →
        s.homeReqs = [] →
        let l := CellLock.mk (a / 64 * 64) (.posting id)
        (s.lockable l.line = true → ∃ t, exec (.cellLockRequest id) s = .next t ∧ t.cellLocks = s.cellLocks ++ [l] ∧
          t.postingOf id = some { p with phase := .granted i, sent := s.nextId } ∧ t.mem = s.mem) ∧
        (s.cellLocks.any (·.line == l.line) = true → ∃ t, exec (.cellLockRequest id) s = .next t ∧ t.cellLocks = s.cellLocks ∧
          t.lockWaits = [l] ∧ t.postingOf id = some p ∧ t.mem = s.mem)) ∧
      (∀ i, p.phase = .granted i → s.inOrder p = false → exec (.cellLockGrant id) s = .next s) ∧
      (p.phase = .commitWait → exec (.cellLockGrant id) s = .next (s.commitStage id)) ∧
      (∀ i pa leg a pa' leg' a', p.phase = .granted i → s.inOrder p = true → order[i]? = some (pa, leg) → s.localOf pa = some a → s.poisoned a = false →
        order[i + 1]? = some (pa', leg') → s.localOf pa' = some a' →
        ∃ t q, exec (.cellLockGrant id) s = .next t ∧ t.postingOf id = some q ∧ q.phase = .lockReq (i + 1) ∧ q.lead = p.lead ∧
          (q.legs[leg]?).map (·.cell) = (p.legs[leg]?).map (fun _ => s.readBytes (a / 64 * 64) 64) ∧ t.mem = s.mem ∧ t.cellLocks = s.cellLocks) ∧
      (∀ i pa leg a, p.phase = .granted i → s.inOrder p = true → order[i]? = some (pa, leg) → s.localOf pa = some a → s.poisoned a = false →
        order[i + 1]? = none →
        exec (.cellLockGrant id) s =
          .next ((s.modPosting id fun p => p.modLeg leg fun l => { l with cell := s.readBytes (a / 64 * 64) 64 }).commitStage id)) ∧
      ((p.phase ≠ .numberReq ∨ s.inOrder p = false) → exec (.sequenceRequest id) s = .next s) ∧
      (p.phase = .numberReq → s.inOrder p = true → s.stagingRoom p.lead (64 + 32 * p.legs.length) = false → p.stalled = false →
        ∃ t, exec (.sequenceRequest id) s = .next t ∧ t.postingOf id = some { p with stalled := true } ∧ t.seq = s.seq) ∧
      (p.phase = .numberReq → s.inOrder p = true → s.stagingRoom p.lead (64 + 32 * p.legs.length) = true →
        ((s.seq.isOpen = false ∨ s.seq.exhausted = true) → exec (.sequenceRequest id) s = .next (s.reject id 0x23 15 0)) ∧
        (s.seq.isOpen = true → s.seq.exhausted = false → ∃ t, exec (.sequenceRequest id) s = .next t ∧
          t.postingOf id = some { p with phase := .numbered, seq := BitVec.ofNat 64 (s.socket.toNat * 2 ^ 60 + s.seq.next.toNat), stalled := false,
                                         sent := s.nextId } ∧
          t.seq.next = s.seq.next + 1 ∧ (t.seq.exhausted = true ↔ s.seq.next + 1 = seqEnd) ∧ (t.seq.isOpen = true ↔ s.seq.next + 1 ≠ seqEnd))) ∧
      ((p.phase ≠ .numbered ∨ s.inOrder p = false) → exec (.postingNumberReceived id) s = .next s) ∧
      (p.phase = .numbered → s.inOrder p = true → order ≠ [] → (∀ x ∈ order, s.localOf x.1 ≠ none) → ∃ t q, exec (.postingNumberReceived id) s = .next t ∧
        t.postingOf id = some q ∧ q.phase = .committing ∧ q.seq = p.seq ∧ q.commits = order.map (·.1) ∧ q.acks = [] ∧ t.sprev p.lead = p.seq) ∧
      (∀ pa : Nat, (pa ∉ p.commits ∨ s.cellInOrder p pa (·.commits) = false) → exec (.cellCommit id pa) s = .next s) ∧
      (∀ pa leg a l, pa ∈ p.commits → s.cellInOrder p pa (·.commits) = true → order.find? (·.1 == pa) = some (pa, leg) → s.localOf pa = some a → a % 64 = 0 → p.legs[leg]? = some l →
        l.cell.length = 64 → s.entriesIn a 64 = [] → p.commits.erase pa ≠ [] → s.lockWaits = [] →
        ∃ t, exec (.cellCommit id pa) s = .next t ∧ (∀ j, j < 64 → t.memB (a + j) = l.cell.getD j 0) ∧
          (∀ x, x < a ∨ a + 64 ≤ x → t.memB x = s.memB x) ∧ (∀ m ∈ t.cellLocks, ¬ (m.line = a ∧ m.owner = .posting id)) ∧
          t.postingOf id = some { p with time := s.time, commits := p.commits.erase pa, acks := if s.cellTeller a ≠ p.lead then p.acks ++ [pa] else p.acks }) ∧
      (∀ pa : Nat, (pa ∉ p.acks ∨ s.cellInOrder p pa (·.acks) = false) → exec (.commitAck id pa) s = .next s) ∧
      (∀ pa : Nat, pa ∈ p.acks → s.cellInOrder p pa (·.acks) = true → (p.commits ≠ [] ∨ p.acks.erase pa ≠ []) →
        exec (.commitAck id pa) s = .next (s.modPosting id fun p => { p with acks := p.acks.erase pa })) ∧
      (p.phase ≠ .completing → exec (.completionReserveRetry id) s = .next s) ∧
      (∀ t : State, p.phase = .completing → s.mode ≠ .drain → (s.modPosting id fun p => { p with phase := .completing }) = t →
        (∀ i, t.tryComplete p = .full i → exec (.completionReserveRetry id) s = .next (if p.covered then t.loseRecord p (some i) else t)) ∧
        (∀ u, t.tryComplete p = .written u → exec (.completionReserveRetry id) s = .next (u.dropPosting id)) ∧
        (∀ u, t.tryComplete p = .wait u → exec (.completionReserveRetry id) s = .next (t.keepRequests u)) ∧
        (∀ u i, t.tryComplete p = .lost u i → exec (.completionReserveRetry id) s = .next (u.loseRecord p i)) ∧
        (∀ u next used, t.tryComplete p = .go u next used → exec (.completionReserveRetry id) s =
          .next ((u.modPosting id fun p => { p with cr := next, crUsed := p.crUsed ++ used }).completeOn id 3)))) ∧
    (∀ (line id : Nat),
      ((∀ l ∈ s.lockRels, ¬ (l.line = line ∧ l.owner = .posting id)) → exec (.cellLockRelease line id) s = .next s) ∧
      let r := CellLock.mk line (.posting id)
      let lead (l : CellLock) : Option Nat := match l.owner with | .posting i => (s.postingOf i).map (·.lead) | .peer .. => none
      let first := s.lockRels.find? (fun x => lead x == lead r && s.cellTeller x.line == s.cellTeller line) = some r
      (¬ first → exec (.cellLockRelease line id) s = .next s) ∧
      (r ∈ s.lockRels → first → s.lockWaits = [] → ∃ t, exec (.cellLockRelease line id) s = .next t ∧
        t.cellLocks = s.cellLocks.filter (fun l => decide ¬ (l.line = line ∧ l.owner = .posting id)) ∧
        t.lockRels = s.lockRels.erase ⟨line, .posting id⟩ ∧ t.mem = s.mem)) ∧
    (∀ n : Idx16, ∃ t, exec (.durabilityWaitTimeout n) s = .next t ∧ t.mem = s.mem ∧ t.seq = s.seq ∧
      (∀ q ∈ t.postings, q ∈ s.postings ∧ ¬ (q.lead = n.val ∧ q.covered = true ∧ q.phase = .durWait)) ∧
      ((s.postings.map (·.id)).Nodup →
        ∀ q ∈ s.postings, ¬ (q.lead = n.val ∧ q.covered = true ∧ q.phase = .durWait) → q ∈ t.postings))

/-- Submission-ring writes, slot intake, TLR_INVTLB and the sequencer's registers take effect as the spec says. Rests on R251, R298,
R299, R311, R312, R314, R320. The model's readings and choices: a command whose precondition does not hold changes nothing (log
entry 5), slots that fail a check (39), reads of locked lines (47), CAUSE where none is given (138). -/
def Obligations.TellerRegisterResult : Prop :=
  ∀ s : State, s.inReset = false →
    (∀ (n : Idx16) (v : Word),
      let k := getF v ⟨3, 0⟩
      let prod := getF v ⟨47, 16⟩
      let c := R.TLR_SRCONS (tu n.val) k
      let cfg := s.reg (R.TLR_SRCFG (tu n.val) k)
      let good := getF cfg ⟨0, 0⟩ = 1 ∧ (prod + 2 ^ 32 - s.rf c ⟨31, 0⟩) % 2 ^ 32 ≤ 2 ^ getF cfg ⟨5, 1⟩
      (good → ∃ t, exec (.tlrSubmitWrite n v) s = .next t ∧ t.rf c ⟨63, 32⟩ = prod ∧ t.rf c ⟨31, 0⟩ = s.rf c ⟨31, 0⟩ ∧ t.mem = s.mem ∧
        t.postings = s.postings) ∧
      (¬ good → exec (.tlrSubmitWrite n v) s = .next (s.incRf (R.TLR_STAT (tu n.val)) F.TLR_STAT_RINGERR))) ∧
    (∀ (n k : Idx16) (v : Word),
      let key := R.TLR_SRCFG (tu n.val) k.val
      let cons := R.TLR_SRCONS (tu n.val) k.val
      let lg := getF v ⟨5, 1⟩
      (getF (s.reg key) ⟨0, 0⟩ = 1 → ∃ t, exec (.tlrSrcfgEnable n k v) s = .next t ∧ t.reg key = s.reg key ∧ t.reg cons = s.reg cons ∧ t.mem = s.mem) ∧
      (getF (s.reg key) ⟨0, 0⟩ = 0 → 4 ≤ lg → lg ≤ 16 → ∃ t, exec (.tlrSrcfgEnable n k v) s = .next t ∧ t.rf key ⟨0, 0⟩ = 1 ∧ t.rf key ⟨5, 1⟩ = lg ∧
        t.rf key ⟨7, 6⟩ = getF v ⟨7, 6⟩ ∧ t.rf key ⟨31, 16⟩ = getF v ⟨31, 16⟩ ∧ t.reg cons = 0 ∧ t.mem = s.mem) ∧
      (getF (s.reg key) ⟨0, 0⟩ = 0 → (lg < 4 ∨ 16 < lg) → ∃ t, exec (.tlrSrcfgEnable n k v) s = .next t ∧ t.rf key ⟨0, 0⟩ = 0 ∧
        t.reg cons = s.reg cons ∧ t.mem = s.mem)) ∧
    (∀ (n k : Idx16),
      let cfg := s.reg (R.TLR_SRCFG (tu n.val) k.val)
      let c := R.TLR_SRCONS (tu n.val) k.val
      let i := s.rf c ⟨31, 0⟩
      let stops := s.intakeHeld = true ∨ s.tellerClosed n.val = true ∨ getF cfg ⟨0, 0⟩ = 0 ∨ i = s.rf c ⟨63, 32⟩ ∨ 64 ≤ s.queuedAt n.val
      let slot := s.rf (R.TLR_SRBASE (tu n.val) k.val) ⟨47, 4⟩ * 16 + 16 * (i % 2 ^ getF cfg ⟨5, 1⟩)
      (stops → exec (.submissionSlotIntake n k) s = .next s) ∧
      (¬ stops → (s.localOf slot = none ∨ ∃ a, s.localOf slot = some a ∧ s.readHeld a 16 = false ∧ s.poisoned a = true) →
        ∃ t, exec (.submissionSlotIntake n k) s = .next t ∧ t.rf c ⟨31, 0⟩ = (i + 1) % 2 ^ 32 ∧ t.postings = s.postings ∧
          t.rf (R.TLR_LASTERR (tu n.val)) F.TLR_LASTERR_STATUS = 0x30 ∧ t.rf (R.TLR_LASTERR (tu n.val)) F.TLR_LASTERR_SLOT = i % 65536 ∧
          t.mem = s.mem) ∧
      (∀ a, ¬ stops → s.localOf slot = some a → s.readHeld a 16 = false → s.poisoned a = false →
        let x : Coin := ⟨BitVec.ofNat 128 (s.readNat a 16), s.tagAt a⟩
        let ring := getF cfg ⟨7, 6⟩
        let asid := getF cfg ⟨31, 16⟩
        let mode := s.rf (R.TLR_SRPT (tu n.val) k.val) ⟨1, 0⟩
        let root := s.rf (R.TLR_SRPT (tu n.val) k.val) ⟨47, 12⟩ * 4096
        let takes (u : State) (bs : List Byte) (ts : List Bool) : Prop :=
          ∃ t q, exec (.submissionSlotIntake n k) s = .next t ∧ t.postings = u.postings ++ [q] ∧ t.rf c ⟨31, 0⟩ = (i + 1) % 2 ^ 32 ∧
            t.mem = u.mem ∧ t.cores = u.cores ∧ q.origin = .slot k.val i ∧ q.intake = n.val ∧ q.phase = .queued false ∧ q.hdr = bs.take 64 ∧
            q.legs = parseLegs (legCount bs) (bs.drop 64) (ts.drop 4) ∧ q.ring = ring ∧ q.asid = asid ∧ q.mode = mode ∧ q.root = root
        s.entryHeld x = false →
        (∀ e, s.tCheck x 0 64 8 ring asid = .coin e → ∃ t, exec (.submissionSlotIntake n k) s = .next t ∧ t.postings = s.postings ∧
          t.rf c ⟨31, 0⟩ = (i + 1) % 2 ^ 32 ∧ t.rf (R.TLR_LASTERR (tu n.val)) F.TLR_LASTERR_STATUS = 0x30 ∧
          t.rf (R.TLR_LASTERR (tu n.val)) F.TLR_LASTERR_CAUSE = e.code ∧ t.mem = s.mem) ∧
        (∀ va hdr ts u, s.tCheck x 0 64 8 ring asid = .ok va → va % 64 = 0 →
          s.tReadLines (tu n.val) mode root asid ring va 1 = (.ok hdr ts, u) →
          (legCount hdr = 0 → takes u hdr ts) ∧
          (legCount hdr ≠ 0 → ∀ va' bs ts' u',
            let size := 64 + 32 * legCount hdr
            u.entryHeld x = false → u.tCheck x 0 size 8 ring asid = .ok va' → va' % 64 = 0 →
            u.tReadLines (tu n.val) mode root asid ring va' (lineCount size) = (.ok bs ts', u') → takes u' bs ts')))) ∧
    (∀ (n : Idx16) (v : Word),
      let va := s.rf (R.TLR_INVVA (tu n.val)) ⟨63, 12⟩ * 4096
      let op := getF v ⟨1, 0⟩
      let asid := getF v ⟨31, 16⟩
      ∃ t, exec (.tlrInvtlbWrite n v) s = .next t ∧ t.mem = s.mem ∧ t.csr = s.csr ∧
        (∀ e, e ∈ (t.xcacheOf (tu n.val)).tlb ↔ e ∈ (s.xcacheOf (tu n.val)).tlb ∧
          ¬ (op = 1 ∨ (op = 2 ∧ e.asid = asid ∧ pteG e.pte = false) ∨
            (op = 3 ∧ e.vbase = va / pageSize e.level ∧ (e.asid = asid ∨ pteG e.pte = true)))) ∧
        (∀ e, e ∈ (t.xcacheOf (tu n.val)).walk ↔ e ∈ (s.xcacheOf (tu n.val)).walk ∧ ¬ (op = 1 ∨ ((op = 2 ∨ op = 3) ∧ e.asid = asid))) ∧
        (∀ u, u ≠ tu n.val → t.xcacheOf u = s.xcacheOf u)) ∧
    (∀ v : Word,
      let n : BitVec 60 := v.extractLsb' 0 60
      (s.seq.isOpen = true ∨ n = 0 → exec (.seqNextWrite v) s = .next s) ∧
      (s.seq.isOpen = false → n ≠ 0 → n ≠ seqEnd → exec (.seqNextWrite v) s = .next { s with seq := { s.seq with next := n } }) ∧
      (s.seq.isOpen = false → n = seqEnd → exec (.seqNextWrite v) s = .next { s with seq := ⟨n, false, true, s.seq.last⟩ }) ∧
      exec (.seqCtlWrite v) s = .next { s with seq := { s.seq with isOpen := decide (v.toNat % 2 = 1 ∧ s.seq.exhausted = false) } })

/-- Journal writes, flushes, enables, tails and the drain change the journal state as the spec says. Rests on R325, R328, R329,
R330, R333, R334, R338, R339, R346. The model's readings and choices: a command whose precondition does not hold changes nothing
(log entry 5), mirrors (46), OPEN and SEAL records (95), LOCALERR and journal writes (140), staged mirror records and JMBASE (142),
mirror areas' devices (146). -/
def Obligations.JournalResult : Prop :=
  ∀ (n : Idx16) (s : State), s.inReset = false →
    let u := tu n.val
    let head := (s.reg (R.TLR_JHEAD u)).toNat
    let ctl := R.TLR_JCTL u
    let ready := s.jLocal n.val = true ∧ ∃ r, s.nextLocal n.val = some r ∧ s.areaRoom n.val r = true
    (∀ ok, (s.mode = .brumation ∨ s.jLocalErr n.val = true ∨ n.val ∈ s.drained ∨
        (¬ ready ∧ (s.mirrorKept n.val = false ∨ s.nextMirror n.val = none))) → exec (.journalWriteAccepted n ok) s = .next s) ∧
    (∀ r, ¬ ready → s.mirrorKept n.val = true → s.jLocalErr n.val = false → s.nextMirror n.val = some r →
      (∃ t, exec (.journalWriteAccepted n false) s = .next t ∧ t.jLocalErr n.val = true ∧ t.mem = s.mem ∧ t.staging = s.staging) ∧
      (∃ t, exec (.journalWriteAccepted n true) s = .next t ∧ t.staging = s.staging.erase r ∧
        (t.reg (R.TLR_JMHEAD u)).toNat = ((s.reg (R.TLR_JMHEAD u)).toNat + r.len) % 2 ^ 64 ∧
        ∀ p tx, r.mirrorOf = some (p, tx) → r.needMirror = true → ⟨p, 0x29, [], false, 0, tx, u, 0, r.seq⟩ ∈ t.peerOut)) ∧
    (∀ r, s.mode ≠ .brumation → s.jLocal n.val = true → s.jLocalErr n.val = false → n.val ∉ s.drained → s.nextLocal n.val = some r →
      (s.areaRoom n.val r = true → (∃ t, exec (.journalWriteAccepted n false) s = .next t ∧ t.jLocalErr n.val = true ∧ t.mem = s.mem) ∧
        (∃ t, exec (.journalWriteAccepted n true) s = .next t ∧ (t.reg (R.TLR_JHEAD u)).toNat = (head + r.len) % 2 ^ 64 ∧
          (∀ x ∈ t.staging, x = { r with written := some (head + r.len) } ∨ (x ∈ s.staging ∧ x ≠ r)) ∧
          (∀ a, head % s.jSize n.val + r.len ≤ s.jSize n.val → s.localOf (s.jBase n.val + head % s.jSize n.val) = some a → s.entriesIn a r.len = [] →
            ∀ j, j < r.len → t.memB (a + j) = r.bytes.getD j 0)))) ∧
    (∀ (g : Idx16) (p : Fin 8) (ok : Bool),
      (s.mode = .brumation → exec (.persistenceFlushComplete g p ok) s = .next s) ∧
      (∀ f, s.mode ≠ .brumation → s.postings = [] → s.flushes.find? (fun x => x.group == g.val && x.port == p.val) = some f →
        (ok = false → ∃ t, exec (.persistenceFlushComplete g p ok) s = .next t ∧ (∀ c ∈ f.covers, c.1 < 16 → t.jLocalErr c.1 = true) ∧
          (∀ m ∈ f.mirrors, m < 16 → t.jLocalErr m = true) ∧ t.mem = s.mem ∧
          t.flushes = s.flushes.filter (fun x => !(x.group == g.val && x.port == p.val))) ∧
        (ok = true → f.phase = 1 → exec (.persistenceFlushComplete g p ok) s =
          .next { s with flushes := s.flushes.map fun x => if x.group = g.val ∧ x.port = p.val then { x with phase := 2 } else x }) ∧
        (ok = true → f.phase ≠ 1 → ∀ c, f.covers = [c] → c.1 < 16 → c.2 < 2 ^ 64 → ∃ t, exec (.persistenceFlushComplete g p ok) s = .next t ∧
          (t.reg (R.TLR_JDUR (tu c.1))).toNat = c.2 ∧ t.mem = s.mem ∧
          ∀ r ∈ t.staging, r.teller = c.1 → r.mirrorOf = none → r.needLocal = true → ∀ w, r.written = some w → c.2 < w))) ∧
    (s.stagingRoom n.val 128 = false → s.jLocal n.val = false → s.jMirror n.val = false → ∀ v, exec (.journalLocalSet n v) s = .next s ∧
      exec (.journalMirrorSet n v) s = .next s) ∧
    (∀ v : Word, bitB v 1 = false → s.jMirror n.val = false → s.jLocal n.val = false → s.stagingRoom n.val 128 = true →
      let area := s.areaOk (s.jBase n.val) (s.jSize n.val)
      (area = false → ∃ t, exec (.journalLocalSet n v) s = .next t ∧ t.jLocal n.val = false ∧ t.mem = s.mem) ∧
      (area = true → ∃ t, exec (.journalLocalSet n v) s = .next t ∧ t.jLocal n.val = true ∧ t.reg (R.TLR_JHEAD u) = s.reg (R.TLR_JTAIL u) ∧
        t.reg (R.TLR_JDUR u) = s.reg (R.TLR_JTAIL u) ∧ (SMap.get zeroNat s.jMirPend n.val = 0 → t.jEpoch n.val = getF v F.TLR_JCTL_EPOCH) ∧ t.mem = s.mem)) ∧
    (∀ v : Word, bitB v 1 = false → s.jMirror n.val = false → s.jLocal n.val = true → ∃ t, exec (.journalLocalClear n v) s = .next t ∧
      t.jLocal n.val = false ∧ t.jLocalErr n.val = false ∧ t.mem = s.mem ∧
      ∀ r ∈ t.staging, r.teller = n.val → r.mirrorOf = none → r.needLocal = false) ∧
    (∀ v : Word, bitB v 0 = false → s.jLocal n.val = false → s.jMirror n.val = false → SMap.get zeroNat s.jMirPend n.val = 0 → s.stagingRoom n.val 128 = true →
      ((s.setRf ctl F.TLR_JCTL_MSOCK (getF v F.TLR_JCTL_MSOCK)).portTo (getF v F.TLR_JCTL_MSOCK) = none →
        ∃ t, exec (.journalMirrorSet n v) s = .next t ∧ t.jMirror n.val = false ∧ t.rf ctl F.TLR_JCTL_MSOCK = getF v F.TLR_JCTL_MSOCK ∧ t.staging = s.staging) ∧
      (∀ p, (s.setRf ctl F.TLR_JCTL_MSOCK (getF v F.TLR_JCTL_MSOCK)).portTo (getF v F.TLR_JCTL_MSOCK) = some p →
        ∃ t, exec (.journalMirrorSet n v) s = .next t ∧ t.jMirror n.val = false ∧ t.jSock n.val = getF v F.TLR_JCTL_MSOCK ∧
          ∃ m ∈ t.peerOut, m.port = p ∧ m.op = 0x28 ∧ m.arg = 16 + n.val * 32)) ∧
    (∀ v : Word, bitB v 0 = false → s.jLocal n.val = false → s.jMirror n.val = true → ∃ t, exec (.journalMirrorClear n v) s = .next t ∧
      t.jMirror n.val = false ∧ t.mem = s.mem ∧ ∀ r ∈ t.staging, r.teller = n.val → r.mirrorOf = none → r.needMirror = false) ∧
    (∀ v : Word,
      let bad := s.jLocal n.val = true ∧ ((s.reg (R.TLR_JDUR u)).toNat < v.toNat ∨ v.toNat < (s.reg (R.TLR_JTAIL u)).toNat)
      (bad → exec (.jtailWrite n v) s = .next s) ∧ (¬ bad → exec (.jtailWrite n v) s = .next (s.setReg (R.TLR_JTAIL u) v))) ∧
    (∀ v : Word,
      let on := s.rf (R.TLR_JMBASE u) F.TLR_JMBASE_EN = 1
      (on → ((s.reg (R.TLR_JMHEAD u)).toNat < v.toNat ∨ v.toNat < (s.reg (R.TLR_JMTAIL u)).toNat) → exec (.jmtailWrite n v) s = .next s) ∧
      (on → v.toNat ≤ (s.reg (R.TLR_JMHEAD u)).toNat → (s.reg (R.TLR_JMTAIL u)).toNat ≤ v.toNat →
        exec (.jmtailWrite n v) s = .next ((s.setReg (R.TLR_JMTAIL u) v).writeMirror n.val)) ∧
      (¬ on → exec (.jmtailWrite n v) s = .next (s.setReg (R.TLR_JMTAIL u) v))) ∧
    (∀ v : Word, s.rf (R.TLR_JMBASE u) F.TLR_JMBASE_EN = 0 → ∃ t, exec (.jmbaseEnable n v) s = .next t ∧
      t.rf (R.TLR_JMBASE u) F.TLR_JMBASE_EN = 1 ∧ t.rf (R.TLR_JMBASE u) F.TLR_JMBASE_SRCSOCK = getF v F.TLR_JMBASE_SRCSOCK ∧
      t.rf (R.TLR_JMBASE u) F.TLR_JMBASE_PERSIST = getF v F.TLR_JMBASE_PERSIST ∧ t.jmBase n.val = getF v ⟨47, 12⟩ * 4096 ∧
      t.reg (R.TLR_JMHEAD u) = s.reg (R.TLR_JMTAIL u) ∧ t.mem = s.mem) ∧
    ((s.mode ≠ .drain ∨ n.val ∈ s.drained ∨ n.val ∈ s.sealed ∨ s.sealWaits n.val = true) → exec (.sealRecordWrite n) s = .next s) ∧
    (s.mode = .drain → n.val ∉ s.drained → n.val ∉ s.sealed → s.sealWaits n.val = false → s.jLocal n.val = true → s.jLocalErr n.val = false →
      ∃ t, exec (.sealRecordWrite n) s = .next t ∧ t.sealed = s.sealed ++ [n.val] ∧
      (∃ r ∈ t.staging, r.teller = n.val ∧ r.mirrorOf = none ∧ recKind r.bytes = 7 ∧ r.bytes.length = 64 ∧ r.needLocal = true) ∧ t.mem = s.mem) ∧
    ((s.mode ≠ .drain ∨ n.val ∈ s.drained ∨ s.drainOver n.val = false) → exec (.drainComplete n) s = .next s) ∧
    (s.mode = .drain → n.val ∉ s.drained → s.drainOver n.val = true → ∃ t, exec (.drainComplete n) s = .next t ∧ t.drained = s.drained ++ [n.val] ∧ t.mem = s.mem ∧
      t.pins = { s.pins with thermtrip := s.pins.thermtrip || (s.pins.trip && t.drainDone) })

/-- Layouts, DMA, address translation services, page requests, CXL time-outs and guard commands act as the spec says. Rests on R347,
R348, R350, R351, R352, R354, R355, R357, R358, R364, R366, R376. The model's readings and choices: a command whose precondition
does not hold changes nothing (log entry 5), the field answer (49), DMA writes after admission (56), ATS and PRI corners (57), CXL
lines without answer (58), poison and directories (78), payloads over 512 bytes (113), GUARD_VADDR (114), writes that wait (127). -/
def Obligations.LaneGroupResult : Prop :=
  (∀ (n : Idx16) (s : State), s.inReset = false →
    let u := lg n.val
    let cfg := s.reg (R.LGP_CFG u)
    (s.groupRuns n.val = false → exec (.lgpApply n) s = .next s) ∧
    (s.groupRuns n.val = true → s.peersIn n.val = [] → s.sweep.jobs = [] → ∃ t, exec (.lgpApply n) s = .next t ∧
      (layoutOk cfg n.val = true → t.rf (R.LGP_CTL u) F.LGP_CTL_BADCFG = 0 ∧
        ∀ p, p < 8 → t.portSt n.val p = if getF cfg ⟨8 * p + 2, 8 * p⟩ = 0 then 0 else 1) ∧
      (layoutOk cfg n.val = false → t.rf (R.LGP_CTL u) F.LGP_CTL_BADCFG = 1 ∧
        ∀ p, p < 8 → t.portSt n.val p = if s.portSt n.val p = 0 then 0 else 3)) ∧
    (∀ (p w r : Fin 8) (f : Bool),
      let may : Bool := s.portSt n.val p.val == 1 && s.unitUp u && s.groupRuns n.val && trainsTo (s.layout u) p.val w.val r.val f
      (may = false → exec (.portTrained n p w r f) s = .next s) ∧
      (may = true → ∃ t, exec (.portTrained n p w r f) s = .next t ∧ t.portSt n.val p.val = 2 ∧
        t.rf (R.LGP_PSTAT u p.val) F.LGP_PSTAT_WIDTH = w.val ∧ t.rf (R.LGP_PSTAT u p.val) F.LGP_PSTAT_RATE = r.val ∧
        t.rf (R.LGP_PSTAT u p.val) F.LGP_PSTAT_FLIT = b2n f ∧ t.mem = s.mem)) ∧
    (s.laneHolds = true → ∀ (rid addr len op : Nat) (tr pa rd wr la po : Bool) (bs : List Byte) (g d : Word) (p : Fin 8),
      exec (.dmaRead n rid tr pa addr len) s = .next s ∧ exec (.dmaWrite n rid tr pa addr bs po) s = .next s ∧
      exec (.dmaAtomic n rid tr pa addr op len g d) s = .next s ∧ exec (.atsTranslationRequest n rid pa addr wr) s = .next s ∧
      exec (.pageRequest n p rid rd wr la op addr) s = .next s) ∧
    (s.laneHolds = false → s.laneBusy n.val = false → s.unitUp u = true → ∀ (rid addr len : Nat) (tr : Bool), rid < 65536 → addr < 2 ^ 64 → 0 < len →
      (s.guardOld = [] → s.fnOf n.val rid = none → getF (s.reg (R.GUARD_VINFO n.val)) F.GUARD_VINFO_VALID = 0 →
        ∃ t, exec (.dmaRead n rid tr false addr len) s = .next t ∧ t.answer = ⟨1, []⟩ ∧ t.mem = s.mem ∧
          t.rf (R.GUARD_VINFO n.val) F.GUARD_VINFO_REASON = 6 ∧ t.rf (R.GUARD_VINFO n.val) F.GUARD_VINFO_SRC = rid ∧
          t.rf (R.GUARD_VINFO n.val) F.GUARD_VINFO_VALID = 1) ∧
      (∀ (pa a : Nat) (t : State), t.localOf pa = some a → pa % 64 + len ≤ 64 → a % 64 = pa % 64 → t.readHeld a len = false → t.poisoned a = false →
        (s.dmaCheck ⟨n.val, rid, tr, false, addr⟩ .read len = (.ok pa, t) →
          exec (.dmaRead n rid tr false addr len) s = .next { t with answer := ⟨0, t.readBytes a len⟩ }) ∧
        (∀ bs : List Byte, bs.length = len → t.writeHeld a len = false → t.entriesIn a len = [] → pa ≠ dbhRingPa →
          s.dmaCheck ⟨n.val, rid, tr, false, addr⟩ .write len = (.ok pa, t) →
          ∃ t', exec (.dmaWrite n rid tr false addr bs false) s = .next t' ∧ (t.purseWrs.filter (fun w => t.nextId ≤ w.id) = [] → t'.answer = ⟨0, []⟩) ∧
            (∀ j, j < len → t'.memB (a + j) = bs.getD j 0) ∧ ∀ x, x < a ∨ a + len ≤ x → t'.memB x = t.memB x) ∧
        (∀ (op : Nat) (g d : Word), op ≤ 2 → (len = 4 ∨ len = 8) → pa % len = 0 → t.writeHeld a len = false → t.entriesIn a len = [] →
          s.dmaCheck ⟨n.val, rid, tr, false, addr⟩ .atomic len = (.ok pa, t) →
          ∃ t', exec (.dmaAtomic n rid tr false addr op len g d) s = .next t' ∧
            (t.purseWrs.filter (fun w => t.nextId ≤ w.id) = [] → t'.answer = ⟨0, t.readBytes a len⟩) ∧
            t'.readNat a len = ((atomFn op (8 * len) (t.readNat a len) (g.toNat % 2 ^ (8 * len)) (d.toNat % 2 ^ (8 * len))).getD (t.readNat a len)) % 2 ^ (8 * len)))) ∧
    (∀ (rid addr k : Nat) (wr : Bool), s.laneHolds = false → s.laneBusy n.val = false → rid < 65536 → addr < 2 ^ 48 → s.fnOf n.val rid = some k →
      (s.rf (R.LGP_FNCTL u k) F.LGP_FNCTL_ATS = 0 → exec (.atsTranslationRequest n rid false addr wr) s = .next { s with answer := ⟨1, []⟩ }) ∧
      (s.rf (R.LGP_FNCTL u k) F.LGP_FNCTL_ATS = 1 → s.rf (R.LGP_FNCTL u k) F.LGP_FNCTL_XLATE = 0 →
        exec (.atsTranslationRequest n rid false addr wr) s =
          .next { s with answer := ⟨0, natBytes 8 (addr / 4096 * 4096) ++ natBytes 8 4096⟩ })) ∧
    (∀ (p : Fin 8) (rid k prgi page : Nat) (rd wr la : Bool), s.laneHolds = false → s.laneBusy n.val = false → rid < 65536 → s.fnOf n.val rid = some k →
      let q := s.reg (R.LGP_PRQ u)
      let size := 2 ^ getF q F.LGP_PRQ_LOG2
      let queued := (s.prq.filter (·.group == n.val)).length
      let i := s.rf (R.LGP_PRQPROD u) F.LGP_PRQPROD_PROD
      (s.rf (R.LGP_FNCTL u k) F.LGP_FNCTL_PRI = 0 → exec (.pageRequest n p rid rd wr la prgi page) s = .next { s with answer := ⟨1, []⟩ }) ∧
      (s.rf (R.LGP_FNCTL u k) F.LGP_FNCTL_PRI = 1 → (getF q F.LGP_PRQ_EN = 0 ∨ size ≤ queued) →
        exec (.pageRequest n p rid rd wr la prgi page) s =
          .next { s.incRf (R.LGP_PSTAT u p.val) F.LGP_PSTAT_PRQDROP with answer := ⟨1, [15]⟩ }) ∧
      (∀ a : Nat, s.rf (R.LGP_FNCTL u k) F.LGP_FNCTL_PRI = 1 → getF q F.LGP_PRQ_EN = 1 → queued < size →
        s.localOf (getF q F.LGP_PRQ_BASE * 4096 + 16 * (i % size)) = some a → s.writeHeld a 16 = false → s.entriesIn a 16 = [] →
        s.purseWrs = [] →
        let bs := natBytes 8 (b2n rd + 2 * b2n wr + 4 * b2n la + prgi % 512 * 8 + page % 2 ^ 52 * 4096) ++
          natBytes 8 (rid + k * 65536 + (i / size + 1) % 2 * 2 ^ 63)
        ∃ t, exec (.pageRequest n p rid rd wr la prgi page) s = .next t ∧ t.answer = ⟨0, []⟩ ∧
          t.prq = s.prq ++ [⟨n.val, rid, prgi % 512⟩] ∧ t.rf (R.LGP_PRQPROD u) F.LGP_PRQPROD_PROD = (i + 1) % 2 ^ 32 ∧
          (∀ j, j < 16 → t.memB (a + j) = bs.getD j 0) ∧ ∀ x, x < a ∨ a + 16 ≤ x → t.memB x = s.memB x)) ∧
    (∀ v : Word, ∃ t, exec (.lgpPrgrWrite n v) s = .next t ∧ t.mem = s.mem ∧ t.csr = s.csr ∧
      (∀ e, e ∈ t.prq ↔ e ∈ s.prq ∧ ¬ (e.group = n.val ∧ e.rid = getF v F.LGP_PRGR_RID ∧ e.prgi = getF v F.LGP_PRGR_PRGI))) ∧
    (∀ v : Word, ∃ t, exec (.lgpInvtlbWrite n v) s = .next t ∧ t.mem = s.mem ∧
      t.atsInvs = s.atsInvs ++ (s.atsTargets n.val (v &&& 0xFFFF0003)).map (fun k => AtsInv.mk n.val k s.time.toNat) ∧
      (getF v F.LGP_INVTLB_OP = 1 → (t.xcacheOf u).tlb = [] ∧ (t.xcacheOf u).walk = []) ∧
      (∀ o ∈ s.dmaOut, o.req.group = n.val →
        o.adm.used.any (invHits (getF v ⟨1, 0⟩) (getF v ⟨31, 16⟩) (s.rf (R.LGP_INVVA u) ⟨63, 12⟩ * 4096)) = true →
        ∃ o' ∈ t.dmaOut, o'.req = o.req ∧ o'.kind = o.kind ∧ o'.adm.removed = true) ∧
      (∀ w, w ≠ u → t.xcacheOf w = s.xcacheOf w)) ∧
    (∀ k : Nat,
      ((∀ e ∈ s.atsInvs, ¬ (e.group = n.val ∧ e.fn = k)) → exec (.atsInvalidateTimeout n k) s = .next s ∧ exec (.atsInvalidateCompletion n k) s = .next s) ∧
      (∀ e, s.atsInvs.find? (fun e => e.group == n.val && e.fn == k) = some e →
        exec (.atsInvalidateCompletion n k) s = .next { s with atsInvs := s.atsInvs.erase e } ∧
        ∃ t, exec (.atsInvalidateTimeout n k) s = .next t ∧ t.atsInvs = s.atsInvs.erase e ∧ t.rf (R.LGP_FNCTL u k) F.LGP_FNCTL_EN = 0 ∧
          t.rf (R.LGP_FNCTL u k) F.LGP_FNCTL_ATSTO = 1 ∧ t.mem = s.mem)) ∧
    (∀ p : Fin 8,
      (s.portSt n.val p.val = 2 → exec (.ptmRequest n p) s = .next { s with answer := ⟨0, natBytes 8 s.time.toNat⟩ }) ∧
      (s.portSt n.val p.val ≠ 2 → exec (.ptmRequest n p) s = .next s))) ∧
  (∀ (a : Nat) (s : State), s.inReset = false →
    (s.cxlGroup (a / 64 * 64) = none → exec (.cxlMemTimeout a) s = .next s ∧ ∀ p, exec (.cxlMemResponse a p) s = .next s) ∧
    (∀ g, s.cxlGroup (a / 64 * 64) = some g →
      (∃ t, exec (.cxlMemTimeout a) s = .next t ∧ a / 64 * 64 ∈ t.cxlLost ∧ t.mem = s.mem) ∧
      (∀ p, ∃ t, exec (.cxlMemResponse a p) s = .next t ∧ a / 64 * 64 ∉ t.cxlLost ∧ t.mem = s.mem ∧
        (p = true → s.isDirty (a / 64 * 64) = false → t.poisoned a = true)))) ∧
  (∀ (set k : Nat) (v : Word) (s : State), s.inReset = false →
    let key := R.GUARD_BIND set k
    let there := (set ≤ 22 ∧ k < 64) ∨ ((set = 24 ∨ set = 25) ∧ k < 16)
    (¬ there → exec (.guardBindWrite set k v) s = .next s) ∧
    (there → ∃ t, exec (.guardBindWrite set k v) s = .next t ∧ t.rf key F.GUARD_BIND_PURSE = getF v F.GUARD_BIND_PURSE ∧
      t.rf key F.GUARD_BIND_ISSUE = getF v F.GUARD_BIND_ISSUE ∧ t.rf key F.GUARD_BIND_BOUND = getF v F.GUARD_BIND_BOUND ∧ t.mem = s.mem ∧
      (getF v F.GUARD_BIND_BOUND = 0 → t.rf key F.GUARD_BIND_STALE = 0) ∧
      (getF v F.GUARD_BIND_BOUND = 1 → getF v F.GUARD_BIND_PURSE < s.ptbCount → ∀ e, s.purseRead (getF v F.GUARD_BIND_PURSE) = .ok e →
        (t.rf key F.GUARD_BIND_STALE = 1 ↔ e.malformed = true ∨ e.state ≠ 1 ∨ e.issue ≠ getF v F.GUARD_BIND_ISSUE)))) ∧
  (∀ (p : PortId) (s : State), s.inReset = false → ∃ t, exec (.guardEvict p) s = .next t ∧ t.mem = s.mem ∧ t.rdir = s.rdir ∧
    ∀ e ∈ s.rdir, bitB e.2.who p.val = true → ∃ x ∈ t.snoops, x.line = e.1 * 64 ∧ x.agent = 0x130 + p.val)

/-- Flits, acknowledgements, retrains, identification, link loss and time exchanges change a port as the spec says. Rests on R350,
R367, R369, R370, R372, R373, R374, R375, R378. The model's readings and choices: a command whose precondition does not hold changes
nothing (log entry 5), windows in RETRAIN (35), the first FSEQ, one flit per step and what is reported of resends (55), the trim of
the time base (66), the FEC bytes (129), the law that a follower corrects by (144). -/
def Obligations.PeerLinkResult : Prop :=
  (∀ (p : PortId) (w1 w2 : Word) (bytes : List Byte) (n1 n2 : Nat) (b : Bool) (ns : List Nat) (s : State),
    ∀ i ∈ ([Instr.peerCfgEnable p w1, .flitReceive p bytes n1, .nakReceive p n1, .ackTimeout p, .retrainComplete p b, .downReceive p,
        .identReceive p n1 ns n2, .timeSyncRequest p, .treqReceive p w1, .trspReceive p w1 w2] : List Instr), ∃ t, exec i s = .next t) ∧
  (∀ (p : PortId) (s : State), s.inReset = false →
    let st := R.PEER_STAT (pp p.val)
    let cfg := R.PEER_CFG (pp p.val)
    let l := s.linkOf p.val
    let now := s.time.toNat
    let runs := s.portRuns p.val = true
    let again (q : List Flit) : List Flit := q.map fun f => { f with resends := f.resends + 1 }
    (∀ v : Word, s.rf cfg F.PEER_CFG_EN = 0 →
      let n := setF v F.PEER_CFG_EN 1 &&& 0x3FF
      (s.peerCfgOk p.val n = true → ∃ t, exec (.peerCfgEnable p v) s = .next t ∧ t.reg cfg = n ∧ t.mem = s.mem ∧
        ((s.setReg cfg n).portRuns p.val = true → t.peerState p.val = 1 ∧
          t.linkOf p.val = Link.reset.sendCtl (.ident s.socket.toNat ((List.range 4).map Config.initialCredits))) ∧
        ((s.setReg cfg n).portRuns p.val = false → t.peerState p.val = s.peerState p.val ∧ t.linkOf p.val = l)) ∧
      (s.peerCfgOk p.val n = false → ∃ t, exec (.peerCfgEnable p v) s = .next t ∧ t.rf cfg F.PEER_CFG_EN = 0 ∧ t.peerState p.val = s.peerState p.val ∧
        t.mem = s.mem)) ∧
    (∀ (bs : List Byte) (delay : Nat), bs.length = 256 →
      let h := fieldAt bs 0 6
      let crcOk := (crc32c (bs.take 246)).toNat = fieldAt bs 246 4
      let credit (l : Link) : Link := l.addCredit (h / 2 ^ 29 % 4) (h / 2 ^ 31 % 256)
      let t := s.acked p.val (h / 2 ^ 14 % 4096)
      ((s.peerState p.val = 0 ∨ s.peerState p.val = 4 ∨ s.portRuns p.val = false) → exec (.flitReceive p bs delay) s = .next s) ∧
      (s.peerState p.val ≠ 0 → s.peerState p.val ≠ 4 → s.portRuns p.val = true →
        (¬ crcOk → exec (.flitReceive p bs delay) s = .next (s.modLink p.val fun l => l.sendCtl (.nak l.rxSeq))) ∧
        (crcOk → h % 4 = 0 → exec (.flitReceive p bs delay) s = .next (t.modLink p.val credit)) ∧
        (crcOk → h % 4 = 1 → s.peerState p.val = 2 →
          (h / 4 % 4096 ≠ (l.rxSeq + 1) % 4096 → exec (.flitReceive p bs delay) s = .next (t.sendFlit p.val)) ∧
          (h / 4 % 4096 = (l.rxSeq + 1) % 4096 → exec (.flitReceive p bs delay) s =
            .next (((t.modLink p.val fun l => { credit l with rxSeq := h / 4 % 4096 }).payload p.val h bs).sendFlit p.val))))) ∧
    (∀ (a i : Nat), a < 4096 → s.peerState p.val = 2 → runs → (∀ f ∈ l.replay, f.resends < 4) →
      ((l.resendTimes ++ List.replicate l.replay.length now).filter fun t => now < t + 1000000).length < 16 →
      l.replay.findIdx? (fun f => f.fseq == a) = some i →
        ∃ t, exec (.nakReceive p a) s = .next t ∧ (t.linkOf p.val).replay = again (l.replay.drop (i + 1)) ∧ t.peerState p.val = 2 ∧ t.mem = s.mem) ∧
    ((l.replay = [] ∨ s.peerState p.val ≠ 2 ∨ s.portRuns p.val = false) → exec (.ackTimeout p) s = .next s) ∧
    (l.replay ≠ [] → s.peerState p.val = 2 → runs → ∃ t, exec (.ackTimeout p) s = .next t ∧ t.mem = s.mem ∧
      ((∃ f ∈ l.replay, 4 ≤ f.resends) → t.peerState p.val = 3 ∧ t.linkOf p.val = l) ∧
      ((∀ f ∈ l.replay, f.resends < 4) → (t.linkOf p.val).replay = again l.replay ∧
        (t.linkOf p.val).wire = (again l.replay).map l.payloadFlit ∧
        (t.peerState p.val = 3 ↔
          16 ≤ ((l.resendTimes ++ List.replicate l.replay.length now).filter fun t => now < t + 1000000).length))) ∧
    ((s.peerState p.val ≠ 3 ∨ ¬ runs) → ∀ ok, exec (.retrainComplete p ok) s = .next s) ∧
    (s.peerState p.val = 3 → runs →
      (∃ t, exec (.retrainComplete p true) s = .next t ∧ t.peerState p.val = 2 ∧ t.mem = s.mem ∧
        (t.linkOf p.val).replay = l.replay.map (fun f => { f with resends := 1 }) ∧
        (l.replay ≠ [] → (t.linkOf p.val).wire = l.replay.map l.payloadFlit)) ∧
      exec (.retrainComplete p false) s = .next (s.portDown p.val)) ∧
    ((s.peerState p.val = 0 ∨ s.peerState p.val = 4) → exec (.downReceive p) s = .next s) ∧
    (s.peerState p.val ≠ 0 → s.peerState p.val ≠ 4 → ∃ t, exec (.downReceive p) s = .next t ∧ t.peerState p.val = 4 ∧
      (t.linkOf p.val).replay = []) ∧
    (∀ (so delay : Nat) (cr : List Nat), so < 8 →
      let good := so = s.peerSock p.val ∧ so ≠ s.socket.toNat
      ((s.peerState p.val ≠ 1 ∨ ¬ runs ∨ s.laneReady p.val = false) → exec (.identReceive p so cr delay) s = .next s) ∧
      (s.peerState p.val = 1 → runs → s.laneReady p.val = true → ∃ t, exec (.identReceive p so cr delay) s = .next t ∧ t.rf st F.PEER_STAT_RSOCK = so ∧
        t.rf st F.PEER_STAT_MISMATCH = (if good then 0 else 1) ∧ t.rf st F.PEER_STAT_FAR = (if 1000 < delay then 1 else 0) ∧
        (good ∧ delay ≤ 1000 → t.peerState p.val = 2 ∧ ∀ i, i < 4 → (t.linkOf p.val).credit i = cr.getD i 0) ∧
        (¬ (good ∧ delay ≤ 1000) → t.peerState p.val = 1) ∧ t.mem = s.mem)) ∧
    (let goes := s.rf cfg F.PEER_CFG_FOLLOW = 1 ∧ s.peerState p.val = 2 ∧ runs;
     (goes → ∃ t, exec (.timeSyncRequest p) s = .next t ∧ t.linkOf p.val = { l.sendCtl (.treq s.time) with treq := some s.time }) ∧
     (¬ goes → exec (.timeSyncRequest p) s = .next s)) ∧
    (∀ t1 : Word,
      (s.peerState p.val = 2 → runs → ∃ t, exec (.treqReceive p t1) s = .next t ∧ t.linkOf p.val = l.sendCtl (.trsp s.time s.time)) ∧
      ((s.peerState p.val ≠ 2 ∨ ¬ runs) → exec (.treqReceive p t1) s = .next s)) ∧
    (∀ t2 t3 : Word,
      (l.treq = none ∨ s.peerState p.val ≠ 2 ∨ ¬ runs → exec (.trspReceive p t2 t3) s = .next s) ∧
      (∀ t1 : Word, l.treq = some t1 → s.peerState p.val = 2 → runs →
        let th := ((t2 - t1).toInt - (s.time - t3).toInt).tdiv 2
        let de := ((t2 - t1).toInt + (s.time - t3).toInt).tdiv 2
        ∃ t, exec (.trspReceive p t2 t3) s = .next t ∧ t.rf (R.PEER_TIME (pp p.val)) F.PEER_TIME_OFFSET = (BitVec.ofInt 32 th).toNat ∧
          t.rf (R.PEER_TIME (pp p.val)) F.PEER_TIME_DELAY = (BitVec.ofInt 16 de).toNat ∧ (t.linkOf p.val).treq = none ∧
          (s.mode = .load → l.stepped = false → t.time = s.time + BitVec.ofInt 64 th ∧ t.follow = 0) ∧
          (s.mode ≠ .load ∨ l.stepped = true → t.time = s.time ∧ t.follow = th ∧ t.free = s.free + 1 ∧
            t.followRate = toSigned 32 (Config.freeWord s.free).toNat) ∧
          (th.natAbs ≤ 2 → s.pins.refclk = true → (t.linkOf p.val).close = l.close + 1 ∧
            (7 ≤ l.close → t.rf (R.PEER_TIME (pp p.val)) F.PEER_TIME_ALIGNED = 1)) ∧
          (2 < th.natAbs ∨ s.pins.refclk = false → (t.linkOf p.val).close = 0 ∧
            t.rf (R.PEER_TIME (pp p.val)) F.PEER_TIME_ALIGNED = s.rf (R.PEER_TIME (pp p.val)) F.PEER_TIME_ALIGNED) ∧ t.mem = s.mem)))

/-- Every peer message is taken from a port that carries messages only, is held in modes that hold it, and else acts at its home
slice, teller, hub or requester. Rests on R31, R33, R319, R334, R360, R362, R363, R366, R371, R374, R376, R377. The model's readings
and choices: a command whose precondition does not hold changes nothing (log entry 5), waiting (8), what comes with CMT (17), PFW's
pieces (42), mirror records (46), messages as commands (53), FNC (54), held messages (77), the places of data in messages (128). -/
def Obligations.PeerMessageResult : Prop :=
  (∀ (p : PortId) (n1 n2 n3 : Nat) (w : Word) (bytes : List Byte) (b1 b2 : Bool) (tags : BitVec 4) (note : Option PostNote) (s : State),
    ∀ i ∈ ([Instr.rds p n1 n2 w, .rdx p n1 n2 w, .rdu p n1 n2 n3 w, .wrl p n1 n2 w bytes b1, .wrp p n1 n2 n3 w bytes b1,
        .wbk p n1 n2 w bytes tags b1, .atm p n1 n2 n3 w bytes, .rdc p n1 n2 w, .wrc p n1 n2 w bytes tags b1, .snpi p n1 w, .snps p n1 w,
        .srsp p n1 b1 bytes tags b2, .dat p n1 bytes tags b1, .cmp p n1 n2, .wnt p n1 w, .lck p n1 n2 w, .lgr p n1 bytes b1,
        .cmt p n1 n2 w bytes note, .rel p n1 n2 w, .cak p n1, .pfw p n1 n2 n3 w bytes tags, .prp p n1 n2, .jrc p n1 n2 n3 bytes,
        .jak p n1 w, .ipi p n1, .fnc p n1 w, .fak p n1, .swl p n1 n2 bytes, .swr p n1 n2] : List Instr), ∃ t, exec i s = .next t) ∧
  (∀ (p : PortId) (s : State), s.inReset = false →
    (∀ (tx src arg : Nat) (a : Word) (d : List Byte) (tags : BitVec 4) (po : Bool),
      let msg (op : Nat) (data : List Byte) (poison : Bool) (tags : BitVec 4) (tx src arg : Nat) (v : Word) : PeerMsg :=
        ⟨p.val, op, data, poison, tags, tx, src, arg, v⟩
      let line := padTo 64 d
      ∀ x ∈ ([(.rds p tx src a, msg 0x01 [] false 0 tx src 0 a), (.rdx p tx src a, msg 0x02 [] false 0 tx src 0 a),
          (.rdu p tx src arg a, msg 0x03 [] false 0 tx src arg a), (.wrl p tx src a d po, msg 0x04 line po 0 tx src 0 a),
          (.wrp p tx src arg a d po, msg 0x05 line po 0 tx src arg a), (.wbk p tx src a d tags po, msg 0x06 line po tags tx src 0 a),
          (.atm p tx src arg a d, msg 0x07 line false 0 tx src arg a), (.rdc p tx src a, msg 0x08 [] false 0 tx src 0 a),
          (.wrc p tx src a d tags po, msg 0x09 line po tags tx src 0 a), (.snpi p tx a, msg 0x10 [] false 0 tx 0 0 a),
          (.snps p tx a, msg 0x11 [] false 0 tx 0 0 a), (.srsp p tx true d tags po, msg 0x12 line po tags tx 0 0 0),
          (.srsp p tx false d tags po, msg 0x12 [] po tags tx 0 0 0), (.dat p tx d tags po, msg 0x18 line po tags tx 0 0 0),
          (.cmp p tx arg, msg 0x19 [] false 0 tx 0 arg 0), (.wnt p tx a, msg 0x1A [] false 0 tx 0 0 a),
          (.lck p tx src a, msg 0x20 [] false 0 tx src 0 a), (.lgr p tx d po, msg 0x21 line po 0 tx 0 0 0),
          (.cmt p tx src a d none, msg 0x22 line false 0 tx src 0 a), (.rel p tx src a, msg 0x23 [] false 0 tx src 0 a),
          (.cak p tx, msg 0x24 [] false 0 tx 0 0 0), (.pfw p tx src arg a d tags, msg 0x25 line false tags tx src arg a),
          (.prp p tx arg, msg 0x26 [] false 0 tx 0 arg 0), (.jrc p tx src arg d, msg 0x28 line false 0 tx src arg 0),
          (.jak p tx a, msg 0x29 [] false 0 tx 0 0 a), (.ipi p arg, msg 0x30 [] false 0 0 0 arg 0), (.fnc p tx a, msg 0x31 [] false 0 tx 0 0 a),
          (.fak p tx, msg 0x32 [] false 0 tx 0 0 0), (.swl p tx arg d, msg 0x33 line false 0 tx 0 arg 0),
          (.swr p tx arg, msg 0x34 [] false 0 tx 0 arg 0)] : List (Instr × PeerMsg)),
        (s.portUp p.val = false ∨ s.portRuns p.val = false → exec x.1 s = .next s) ∧
        (s.portUp p.val = true → s.portRuns p.val = true → s.portHolds x.2.op = true → exec x.1 s = .next { s with held := s.held ++ [(x.2, false)] }) ∧
        (s.portUp p.val = true → s.portRuns p.val = true → s.portHolds x.2.op = false → ∃ t, s.peerMsg x.2 = some t ∧ exec x.1 s = .next t) ∧
        (s.mode = .brumation → s.portHolds x.2.op = decide (x.2.op ∉ [0x10, 0x11, 0x31, 0x32]))) ∧
    (s.portUp p.val = true → (s.mode = .run ∨ s.mode = .degraded) → s.guardOld = [] → ∀ (tx src arg : Nat) (v : Word) (d : List Byte) (tags : BitVec 4),
      let a := v.toNat % 2 ^ 48
      let l := a / 64 * 64
      let free := s.homeReqs = [] ∧ s.lockWaits = [] ∧ (∀ x ∈ s.snoops, x.line ≠ l) ∧ s.cellLocks = [] ∧ s.clustersOf l = ⟨0, false⟩ ∧
        s.peersOf l = ⟨0, false⟩ ∧ s.localOf a = some a ∧ a < 2 ^ 44 ∧ s.purseWrs = [] ∧ s.rdirVictim l = none ∧ s.entriesIn l 64 = [] ∧ s.entriesIn a 64 = []
      let may (op : GOp) := s.guardDecide (16 + p.val) 0 a op false = none
      let ans (op arg : Nat) (data : List Byte) (tags : BitVec 4) (poison : Bool) : PeerMsg := ⟨p.val, op, data, poison, tags, tx, pp p.val, arg, v⟩
      let shared : Holders := ⟨BitVec.ofNat 16 (2 ^ p.val), false⟩
      let alone : Holders := ⟨BitVec.ofNat 16 (2 ^ p.val), true⟩
      (∀ r, s.guardDecide (16 + p.val) 0 a .read false = some r → (∃ t, exec (.rds p tx src v) s = .next t ∧ t.mem = s.mem ∧ ans 0x19 1 [] 0 false ∈ t.peerOut)) ∧
      (∀ r, s.guardDecide (16 + p.val) 0 a .write false = some r → (∃ t, exec (.wrl p tx src v d false) s = .next t ∧ t.mem = s.mem ∧
        ans 0x1A 0 [] 0 false ∈ t.peerOut)) ∧
      (may .read → free →
        (∃ t, exec (.rds p tx src v) s = .next t ∧ t.peersOf l = shared ∧ t.mem = s.mem ∧ t.tags = s.tags ∧
          ans 0x18 0 (s.readBytes l 64) (s.lineTags l) (s.poisoned l) ∈ t.peerOut) ∧
        (∃ t, exec (.rdu p tx src arg v) s = .next t ∧ t.peersOf l = ⟨0, false⟩ ∧ t.mem = s.mem ∧
          ans 0x18 0 (padTo 64 (s.readBytes (l + arg % 64) (min (min 64 (arg / 64 % 128)) (64 - arg % 64)))) 0 (s.poisoned l) ∈ t.peerOut)) ∧
      (may .write → free →
        (∃ t, exec (.rdx p tx src v) s = .next t ∧ t.peersOf l = alone ∧ t.mem = s.mem ∧
          ans 0x18 0 (s.readBytes l 64) (s.lineTags l) (s.poisoned l) ∈ t.peerOut) ∧
        (∃ t, exec (.wrl p tx src v d false) s = .next t ∧ (∀ j, j < 64 → t.memB (l + j) = (padTo 64 d).getD j 0) ∧
          (∀ x, x < l ∨ l + 64 ≤ x → t.memB x = s.memB x) ∧ (∀ j, j < 4 → t.tagAt (l + 16 * j) = false) ∧ ans 0x19 0 [] 0 false ∈ t.peerOut) ∧
        (let o := arg % 64;
         let n := min (min 64 (arg / 64 % 128)) (64 - o);
         s.entriesIn (l + o) n = [] → ∃ t, exec (.wrp p tx src arg v d false) s = .next t ∧ (∀ j, j < n → t.memB (l + o + j) = (padTo 64 d).getD j 0) ∧
          (∀ x, x < l + o ∨ l + o + n ≤ x → t.memB x = s.memB x) ∧ ans 0x19 0 [] 0 false ∈ t.peerOut)) ∧
      (may .atomic → free → s.poisoned l = false →
        let n := if arg / 8 % 2 = 1 then 8 else 4
        let b := l + a % 64 / n * n
        let old := s.readNat b n
        s.entriesIn b n = [] → ∃ t, exec (.atm p tx src arg v d) s = .next t ∧ ans 0x18 0 (padTo 64 (natBytes n old)) 0 false ∈ t.peerOut ∧
          t.readNat b n = ((atomFn (arg % 8) (8 * n) old (bytesNat ((padTo 64 d).take 8) % 2 ^ (8 * n))
            (bytesNat (((padTo 64 d).drop 8).take 8) % 2 ^ (8 * n))).getD old) % 2 ^ (8 * n)) ∧
      (may .coinLoad → free → ∃ t, exec (.rdc p tx src v) s = .next t ∧ t.mem = s.mem ∧
        ans 0x18 0 (padTo 64 (s.readBytes (a / 16 * 16) 16)) (BitVec.ofNat 4 (b2n (s.tagAt (a / 16 * 16)))) (s.poisoned l) ∈ t.peerOut) ∧
      (may .coinStore → free → s.entriesIn (a / 16 * 16) 16 = [] → ∃ t, exec (.wrc p tx src v d tags false) s = .next t ∧
        (∀ j, j < 16 → t.memB (a / 16 * 16 + j) = (padTo 16 (padTo 64 d)).getD j 0) ∧ t.tagAt (a / 16 * 16) = bitB tags 0 ∧ ans 0x19 0 [] 0 false ∈ t.peerOut) ∧
      (may .lock → free → s.lockable l = true → ∃ t, exec (.lck p tx src v) s = .next t ∧ t.cellLocks = [⟨l, .peer p.val tx src⟩] ∧ t.mem = s.mem ∧
        ∃ m ∈ t.peerOut, m.port = p.val ∧ m.op = 0x21 ∧ m.txid = tx ∧ m.data = s.readBytes l 64) ∧
      (∀ (own : Nat), s.homeReqs = [] → s.lockWaits = [] → (∀ x ∈ s.snoops, x.line ≠ l) → s.cellLocks = [⟨l, .peer p.val tx own⟩] →
        s.purseWrs = [] → s.clustersOf l = ⟨0, false⟩ → s.peersOf l = ⟨0, false⟩ → s.entriesIn l 64 = [] →
        (∃ t, exec (.rel p tx src v) s = .next t ∧ t.cellLocks = [] ∧ t.mem = s.mem ∧ ans 0x24 0 [] 0 false ∈ t.peerOut) ∧
        (∀ w, exec (.cmt p tx src v d (some w)) s = exec (.cmt p tx src v d none) { s with cmtNotes := s.cmtNotes ++ [(p.val, tx, w)] }) ∧
        (s.stagingRoom (s.cellTeller l) 96 = true → s.sealed.contains (s.cellTeller l) = false → s.noteOf p.val tx = none → ∃ t, exec (.cmt p tx src v d none) s = .next t ∧ t.cellLocks = [] ∧
          (∀ j, j < 64 → t.memB (l + j) = (padTo 64 d).getD j 0) ∧ (∀ x, x < l ∨ l + 64 ≤ x → t.memB x = s.memB x) ∧
          t.sprev (s.cellTeller l) = cellLast (padTo 64 d) ∧ ans 0x24 0 [] 0 false ∈ t.peerOut)) ∧
      (s.homeReqs = [] → s.lockWaits = [] → (s.peersOf l).excl = true → bitB (s.peersOf l).who p.val = true →
        (∀ x ∈ s.snoops, x.line ≠ l) → s.cellLocks = [] → conflicts (s.clustersOf l) none true = [] → conflicts (s.peersOf l) (some p.val) true = [] →
        s.entriesIn l 64 = [] → s.purseWrs = [] →
        ∃ t, exec (.wbk p tx src v d tags false) s = .next t ∧ (∀ j, j < 64 → t.memB (l + j) = (padTo 64 d).getD j 0) ∧
          (∀ j, j < 4 → t.tagAt (l + 16 * j) = bitB tags j) ∧ bitB (t.peersOf l).who p.val = false ∧ ans 0x19 0 [] 0 false ∈ t.peerOut) ∧
      (∀ q, s.txOf p.val tx = some q →
        ((q.op = 0x01 ∨ q.op = 0x02) → (s.rlines.filter (fun l => l.pa / 0x100000000000 == s.peerSock p.val + 1)).length < 1048576 → ∃ t, exec (.dat p tx d tags false) s = .next t ∧ t.peerTx = s.peerTx.erase q ∧
          RLine.mk (q.pa / 64 * 64) (padTo 64 d) tags false (q.op == 0x02) false ∈ t.rlines) ∧
        ((q.op = 0x03 ∨ q.op = 0x07 ∨ q.op = 0x08) → exec (.dat p tx d tags false) s = .next (s.putReply q (.data (padTo 64 d) tags false))) ∧
        (isStore q.op = true → exec (.cmp p tx 0) s = .next ((s.dropTx q).storeAnswered tx)) ∧
        (isStore q.op = true → arg ≠ 0 → exec (.cmp p tx arg) s = exec (.wnt p tx v) s) ∧
        (q.op = 0x06 → 0x80 ≤ q.src → exec (.cmp p tx 0) s = .next (s.dropTx q) ∧
          (arg ≠ 0 → exec (.cmp p tx arg) s = .next ((s.dropTx q).ringGuardOf q.src))) ∧
        (q.op = 0x25 → exec (.cmp p tx arg) s = .next (s.postRefused q)) ∧
        (isStore q.op = false → q.op ≠ 0x06 ∨ q.src < 0x80 → q.op ≠ 0x25 → exec (.cmp p tx arg) s = .next (s.putReply q (.done arg))) ∧
        (q.src < 0x80 → ∃ t, exec (.wnt p tx v) s = .next t ∧ t.peerTx = s.peerTx.erase q ∧ t.mem = s.mem ∧
          (t.core (coreOf q.src)).refused = (s.core (coreOf q.src)).refused ++ [⟨q.pa, pp p.val, false, false⟩]) ∧
        (q.op = 0x25 → exec (.prp p tx arg) s = .next (s.postAnswered q (arg % 256)))) ∧
      (∀ (x : Posting) (leg i pa : Nat), s.legOfTx p.val tx = some (x, leg) →
        (x.phase = .lockReq i → exec (.lgr p tx d false) s = .next (s.haveLine x.id i leg (padTo 64 d))) ∧
        ((x.legs[leg]?).bind (·.pa) = some pa → exec (.cak p tx) s = .next (s.commitAck x.id (pa / 64 * 64)))) ∧
      (∀ op ∈ ([Instr.snpi p tx v, Instr.snps p tx v] : List Instr),
        (s.rlineAt (s.windowPa p.val l) = none → exec op s = .next (s.send (ans 0x12 0 [] 0 false))) ∧
        (∀ r, s.rlineAt (s.windowPa p.val l) = some r → ∃ t, exec op s = .next t ∧ t.mem = s.mem ∧
          ans 0x12 0 (if r.dirty then r.data else []) (if r.dirty then r.tags else 0) (r.dirty && r.poison) ∈ t.peerOut)) ∧
      (∀ x : Snoop, s.snoops.find? (fun x => x.agent == pp p.val && x.txid == tx) = some x → x.inval = true → s.homeReqs = [] → s.lockWaits = [] →
        ∃ t, exec (.srsp p tx false d tags false) s = .next t ∧ bitB (t.peersOf x.line).who p.val = false ∧ t.mem = s.mem) ∧
      (∀ r, s.jMirPend = [] → s.postings = [] → s.staging = [r] → r.mirrorOf = none → r.needMirror = true → r.txid = tx → r.seq ≠ 0 →
        ∃ t, exec (.jak p tx v) s = .next t ∧ t.reg (R.TLR_JLASTM (tu r.teller)) = r.seq ∧ (∀ q ∈ t.staging, q.needMirror = false) ∧ t.mem = s.mem) ∧
      (arg % 16 = 0 → arg / 16 % 2 = 0 → exec (.jrc p tx src arg d) s =
        .next { s with jParts := s.jParts.filter (fun x => !(x.1 == p.val && x.2.1 == tx)) ++ [(p.val, tx, padTo 64 d)] }) ∧
      (s.homeReqs = [] → s.ringWaits = [] → exec (.ipi p arg) s = .next (s.firePriv (arg % 128) (0x20 + arg / 128 % 8))) ∧
      (let rs := s.homeReqs.filter fun r => r.unit == pp p.val && (match r.msg with | some x => needsExcl x.op || x.op == 0x22 | none => false)
       rs ≠ [] → ∃ t, exec (.ipi p arg) s = .next t ∧ RingWait.mk p.val (arg % 128) (0x20 + arg / 128 % 8) rs ∈ t.ringWaits ∧ t.mem = s.mem) ∧
      (s.homeReqs = [] → s.lockWaits = [] → s.postings = [] → s.fncs = [] → s.ringWaits = [] → s.jWait = [] →
        s.pfwParts = [] → s.jParts = [] → s.parts = [] →
        exec (.fnc p tx v) s = .next (s.send ⟨p.val, 0x32, [], false, 0, tx, pp p.val, 0, 0⟩)) ∧
      exec (.fak p tx) s = .next (s.portAnswered p false) ∧
      exec (.swr p tx arg) s = .next (s.sweepAnswer p.val tx arg) ∧
      (arg % 256 = 0 → arg / 256 % 2 = 0 → ∃ t, exec (.swl p tx arg d) s = .next t ∧ t.mem = s.mem ∧
        (p.val * 65536 + tx, (List.range 16).map fun i => fieldAt (padTo 64 d) (4 * i) 4) ∈ t.sweep.pieces) ∧
      (∀ y n, arg % 16 ≠ 0 → arg / 16 % 2 = 1 → s.pfwParts.find? (fun x => x.port == p.val && x.txid == tx) = some y → s.homeTeller y.addr = some n →
        ∃ t q, exec (.pfw p tx src arg v d tags) s = .next t ∧ t.postings = s.postings ++ [q] ∧ q.origin = .peer p.val tx ∧ q.intake = n ∧
          q.phase = .sent ∧ q.ring = getF v ⟨3, 2⟩ ∧ q.asid = getF v ⟨63, 48⟩ ∧ q.hdr = (y.bytes ++ padTo 64 d).take 64 ∧ t.mem = s.mem)))
end

