-- ==== Sys2Proof/Laws/Dispatch.lean ====
section
/-!
SUPPORT. One equation per command: what `exec` calls for it.
-/
namespace Sys2Proof.Machine
open Sys2Proof

theorem exec_registerWrite (place v s) : exec (.registerWrite place v) s = execRegisterWrite place v s := (rfl)
theorem exec_controlStoreAccept (k idx s) : exec (.controlStoreAccept k idx) s = execControlStoreAccept k idx s := (rfl)
theorem exec_pwrGoodRise (s) : exec .pwrGoodRise s = execPwrGoodRise s := (rfl)
theorem exec_deviceResetExit (failLow s) : exec (.deviceResetExit failLow) s = execDeviceResetExit failLow s := (rfl)
theorem exec_pwrGoodFall (ns s) : exec (.pwrGoodFall ns) s = execPwrGoodFall ns s := (rfl)
theorem exec_supplyInvalid (rail s) : exec (.supplyInvalid rail) s = execSupplyInvalid rail s := (rfl)
theorem exec_pwrFail (ns s) : exec (.pwrFail ns) s = execPwrFail ns s := (rfl)
theorem exec_refclkLoss (s) : exec .refclkLoss s = execRefclkLoss s := (rfl)
theorem exec_thermalRead (temps s) : exec (.thermalRead temps) s = execThermalRead temps s := (rfl)
theorem exec_thermtripAssert (s) : exec .thermtripAssert s = execThermtripAssert s := (rfl)
theorem exec_powerEvaluation (pwr s) : exec (.powerEvaluation pwr) s = execPowerEvaluation pwr s := (rfl)
theorem exec_wakeLatchEdge (latch rising s) : exec (.wakeLatchEdge latch rising) s = execWakeLatchEdge latch rising s := (rfl)
theorem exec_timePpsEdge (s) : exec .timePpsEdge s = execTimePpsEdge s := (rfl)
theorem exec_ppsTimeout (s) : exec .ppsTimeout s = execPpsTimeout s := (rfl)
theorem exec_timeAdjWrite (v s) : exec (.timeAdjWrite v) s = execTimeAdjWrite v s := (rfl)
theorem exec_stageFlash (answers octal size s) : exec (.stageFlash answers octal size) s = execStageFlash answers octal size s := (rfl)
theorem exec_stageVerify (s) : exec .stageVerify s = execStageVerify s := (rfl)
theorem exec_stageApply (trimsOk s) : exec (.stageApply trimsOk) s = execStageApply trimsOk s := (rfl)
theorem exec_stageMemtrain (found s) : exec (.stageMemtrain found) s = execStageMemtrain found s := (rfl)
theorem exec_stageTagclear (s) : exec .stageTagclear s = execStageTagclear s := (rfl)
theorem exec_stageLanes (s) : exec .stageLanes s = execStageLanes s := (rfl)
theorem exec_stageBootspan (s) : exec .stageBootspan s = execStageBootspan s := (rfl)
theorem exec_stageEft (s) : exec .stageEft s = execStageEft s := (rfl)
theorem exec_stageRelease (s) : exec .stageRelease s = execStageRelease s := (rfl)
theorem exec_imgApplyGo (v s) : exec (.imgApplyGo v) s = execImgApplyGo v s := (rfl)
theorem exec_flashErase (v s) : exec (.flashErase v) s = execFlashErase v s := (rfl)
theorem exec_flashProgram (v s) : exec (.flashProgram v) s = execFlashProgram v s := (rfl)
theorem exec_flashCommandDone (ok s) : exec (.flashCommandDone ok) s = execFlashCommandDone ok s := (rfl)
theorem exec_eftWatchdogExpiry (s) : exec .eftWatchdogExpiry s = execEftWatchdogExpiry s := (rfl)
theorem exec_eftKick (s) : exec .eftKick s = execEftKick s := (rfl)
theorem exec_eftSwap (s) : exec .eftSwap s = execEftSwap s := (rfl)
theorem exec_pldmDiscovery (s) : exec .pldmDiscovery s = execPldmDiscovery s := (rfl)
theorem exec_pldmPlatform (sensor s) : exec (.pldmPlatform sensor) s = execPldmPlatform sensor s := (rfl)
theorem exec_pldmFru (s) : exec .pldmFru s = execPldmFru s := (rfl)
theorem exec_pldmFirmwareUpdate (slot image s) : exec (.pldmFirmwareUpdate slot image) s = execPldmFirmwareUpdate slot image s := (rfl)
theorem exec_modeReqBrumation (chg s) : exec (.modeReqBrumation chg) s = execModeReqBrumation chg s := (rfl)
theorem exec_modeReqDiagnostic (s) : exec .modeReqDiagnostic s = execModeReqDiagnostic s := (rfl)
theorem exec_modeReqLeave (s) : exec .modeReqLeave s = execModeReqLeave s := (rfl)
theorem exec_brumationQuiesced (s) : exec .brumationQuiesced s = execBrumationQuiesced s := (rfl)
theorem exec_brumationQuiesceTimeout (s) : exec .brumationQuiesceTimeout s = execBrumationQuiesceTimeout s := (rfl)
theorem exec_brumationChangeComplete (s) : exec .brumationChangeComplete s = execBrumationChangeComplete s := (rfl)
theorem exec_brumationTimeout (s) : exec .brumationTimeout s = execBrumationTimeout s := (rfl)
theorem exec_unitFence (u s) : exec (.unitFence u) s = execUnitFence u s := (rfl)
theorem exec_unitUnfence (u s) : exec (.unitUnfence u) s = execUnitUnfence u s := (rfl)
theorem exec_unitOffline (u s) : exec (.unitOffline u) s = execUnitOffline u s := (rfl)
theorem exec_unitOnline (u s) : exec (.unitOnline u) s = execUnitOnline u s := (rfl)
theorem exec_unitRetire (u s) : exec (.unitRetire u) s = execUnitRetire u s := (rfl)
theorem exec_unitHandover (u arg s) : exec (.unitHandover u arg) s = execUnitHandover u arg s := (rfl)
theorem exec_unitRecal (u s) : exec (.unitRecal u) s = execUnitRecal u s := (rfl)
theorem exec_unitOpComplete (u found s) : exec (.unitOpComplete u found) s = execUnitOpComplete u s found := (rfl)
theorem exec_handoverMapAck (n s) : exec (.handoverMapAck n) s = execHandoverMapAck n s := (rfl)
theorem exec_mgmtClkWrite (n v s) : exec (.mgmtClkWrite n v) s = execMgmtClkWrite n v s := (rfl)
theorem exec_clusterClockStop (n s) : exec (.clusterClockStop n) s = execClusterClockStop n s := (rfl)
theorem exec_clusterClockRestart (n s) : exec (.clusterClockRestart n) s = execClusterClockRestart n s := (rfl)
theorem exec_errorDetect (unit det sev injected addr syndrome detail s) : exec (.errorDetect unit det sev injected addr syndrome detail) s = execErrorDetect unit det sev injected addr syndrome detail s := (rfl)
theorem exec_errinjOneshot (unit det severe s) : exec (.errinjOneshot unit det severe) s = execErrinjOneshot unit det severe s := (rfl)
theorem exec_errinjPeriodic (unit det severe s) : exec (.errinjPeriodic unit det severe) s = execErrinjPeriodic unit det severe s := (rfl)
theorem exec_errinjPeriodExpiry (unit det s) : exec (.errinjPeriodExpiry unit det) s = execErrinjPeriodExpiry unit det s := (rfl)
theorem exec_telCounterWrap (unit n s) : exec (.telCounterWrap unit n) s = execTelCounterWrap unit n s := (rfl)
theorem exec_snapshotArm (v s) : exec (.snapshotArm v) s = execSnapshotArm v s := (rfl)
theorem exec_snapshotLatch (s) : exec .snapshotLatch s = execSnapshotLatch s := (rfl)
theorem exec_dbgUnlockGo (v s) : exec (.dbgUnlockGo v) s = execDbgUnlockGo v s := (rfl)
theorem exec_dbgLock (s) : exec .dbgLock s = execDbgLock s := (rfl)
theorem exec_dbgMemoryAccess (v s) : exec (.dbgMemoryAccess v) s = execDbgMemoryAccess v s := (rfl)
theorem exec_dbgHalt (k s) : exec (.dbgHalt k) s = execDbgHalt k s := (rfl)
theorem exec_dbgResume (k s) : exec (.dbgResume k) s = execDbgResume k s := (rfl)
theorem exec_dbgStep (k s) : exec (.dbgStep k) s = execDbgStep k s := (rfl)
theorem exec_dbgRegisterAccess (v s) : exec (.dbgRegisterAccess v) s = execDbgRegisterAccess v s := (rfl)
theorem exec_traceEnable (v s) : exec (.traceEnable v) s = execTraceEnable v s := (rfl)
theorem exec_tapControlAccess (write key len v s) : exec (.tapControlAccess write key len v) s = execTapControlAccess write key len v s := (rfl)
theorem exec_tapExtest (drive lands s) : exec (.tapExtest drive lands) s = execTapExtest drive lands s := (rfl)
theorem exec_purseWrite (a bytes s) : exec (.purseWrite a bytes) s = execPurseWrite a bytes s := (rfl)
theorem exec_purseInvalidate (id n s) : exec (.purseInvalidate id n) s = execPurseInvalidate id n s := (rfl)
theorem exec_purseInvalAck (id n s) : exec (.purseInvalAck id n) s = execPurseInvalAck id n s := (rfl)
theorem exec_freeListPop (k s) : exec (.freeListPop k) s = execFreeListPop k s := (rfl)
theorem exec_freeListPush (h idx s) : exec (.freeListPush h idx) s = execFreeListPush h idx s := (rfl)
theorem exec_recallArrive (k s) : exec (.recallArrive k) s = execRecallArrive k s := (rfl)
theorem exec_fenceMarker (id agent s) : exec (.fenceMarker id agent) s = execFenceMarker id agent s := (rfl)
theorem exec_fenceAck (id agent s) : exec (.fenceAck id agent) s = execFenceAck id agent s := (rfl)
theorem exec_sweepAdd (v s) : exec (.sweepAdd v) s = execSweepAdd v s := (rfl)
theorem exec_sweepGo (v s) : exec (.sweepGo v) s = execSweepGo v s := (rfl)
theorem exec_sweepClear (s) : exec .sweepClear s = execSweepClear s := (rfl)
theorem exec_tagEngineScanDone (engine s) : exec (.tagEngineScanDone engine) s = execTagEngineScanDone engine s := (rfl)
theorem exec_ldc (k c cb disp s) : exec (.ldc k c cb disp) s = execLdc k c cb disp s := (rfl)
theorem exec_stc (k c cb disp s) : exec (.stc k c cb disp) s = execStc k c cb disp s := (rfl)
theorem exec_cmov (k d a s) : exec (.cmov k d a) s = execCmov k d a s := (rfl)
theorem exec_clip (k d a b s) : exec (.clip k d a b) s = execClip k d a b s := (rfl)
theorem exec_csetc (k d a b s) : exec (.csetc k d a b) s = execCsetc k d a b s := (rfl)
theorem exec_cadd (k d a b s) : exec (.cadd k d a b) s = execCadd k d a b s := (rfl)
theorem exec_cget (k d a sel s) : exec (.cget k d a sel) s = execCget k d a sel s := (rfl)
theorem exec_ceq (k d a b s) : exec (.ceq k d a b) s = execCeq k d a b s := (rfl)
theorem exec_cprobe (k d a b s) : exec (.cprobe k d a b) s = execCprobe k d a b s := (rfl)
theorem exec_cclrt (k d a s) : exec (.cclrt k d a) s = execCclrt k d a s := (rfl)
theorem exec_cpack (k d a b s) : exec (.cpack k d a b) s = execCpack k d a b s := (rfl)
theorem exec_caddi (k d a imm s) : exec (.caddi k d a imm) s = execCaddi k d a imm s := (rfl)
theorem exec_clipi (k d a imm s) : exec (.clipi k d a imm) s = execClipi k d a imm s := (rfl)
theorem exec_mint (k d a b s) : exec (.mint k d a b) s = execMint k d a b s := (rfl)
theorem exec_recall (k d a b s) : exec (.recall k d a b) s = execRecall k d a b s := (rfl)
theorem exec_recallf (k d a b s) : exec (.recallf k d a b) s = execRecallf k d a b s := (rfl)
theorem exec_recalli (k d a s) : exec (.recalli k d a) s = execRecalli k d a s := (rfl)
theorem exec_recallif (k d a s) : exec (.recallif k d a) s = execRecallif k d a s := (rfl)
theorem exec_ld (k r cb size disp s) : exec (.ld k r cb size disp) s = execLd k r cb size disp s := (rfl)
theorem exec_st (k r cb size disp s) : exec (.st k r cb size disp) s = execSt k r cb size disp s := (rfl)
theorem exec_ldf (k r cb size disp s) : exec (.ldf k r cb size disp) s = execLdf k r cb size disp s := (rfl)
theorem exec_stf (k r cb size disp s) : exec (.stf k r cb size disp) s = execStf k r cb size disp s := (rfl)
theorem exec_lx (k r cb gx size mode file order s) : exec (.lx k r cb gx size mode file order) s = execLx k r cb gx size mode file order s := (rfl)
theorem exec_sx (k r cb gx size mode file order s) : exec (.sx k r cb gx size mode file order) s = execSx k r cb gx size mode file order s := (rfl)
theorem exec_swp (k d cb gs w order s) : exec (.swp k d cb gs w order) s = execSwp k d cb gs w order s := (rfl)
theorem exec_cas (k d cb gs w order s) : exec (.cas k d cb gs w order) s = execCas k d cb gs w order s := (rfl)
theorem exec_fadd (k d cb gs w order s) : exec (.fadd k d cb gs w order) s = execFadd k d cb gs w order s := (rfl)
theorem exec_fand (k d cb gs w order s) : exec (.fand k d cb gs w order) s = execFand k d cb gs w order s := (rfl)
theorem exec_fOr (k d cb gs w order s) : exec (.fOr k d cb gs w order) s = execFOr k d cb gs w order s := (rfl)
theorem exec_fxor (k d cb gs w order s) : exec (.fxor k d cb gs w order) s = execFxor k d cb gs w order s := (rfl)
theorem exec_fmax (k d cb gs w order s) : exec (.fmax k d cb gs w order) s = execFmax k d cb gs w order s := (rfl)
theorem exec_fmin (k d cb gs w order s) : exec (.fmin k d cb gs w order) s = execFmin k d cb gs w order s := (rfl)
theorem exec_loadDataReturn (k idx s) : exec (.loadDataReturn k idx) s = execLoadDataReturn k idx s := (rfl)
theorem exec_longOpComplete (k idx s) : exec (.longOpComplete k idx) s = execLongOpComplete k idx s := (rfl)
theorem exec_storeBufferDrain (k idx s) : exec (.storeBufferDrain k idx) s = execStoreBufferDrain k idx s := (rfl)
theorem exec_writeNotice (k s) : exec (.writeNotice k) s = execWriteNotice k s := (rfl)
theorem exec_pteMark (ea write s) : exec (.pteMark ea write) s = execPteMark ea write s := (rfl)
theorem exec_add (k d a b s) : exec (.add k d a b) s = execAdd k d a b s := (rfl)
theorem exec_sub (k d a b s) : exec (.sub k d a b) s = execSub k d a b s := (rfl)
theorem exec_andI (k d a b s) : exec (.andI k d a b) s = execAndI k d a b s := (rfl)
theorem exec_orI (k d a b s) : exec (.orI k d a b) s = execOrI k d a b s := (rfl)
theorem exec_xorI (k d a b s) : exec (.xorI k d a b) s = execXorI k d a b s := (rfl)
theorem exec_andn (k d a b s) : exec (.andn k d a b) s = execAndn k d a b s := (rfl)
theorem exec_shl (k d a b s) : exec (.shl k d a b) s = execShl k d a b s := (rfl)
theorem exec_shr (k d a b s) : exec (.shr k d a b) s = execShr k d a b s := (rfl)
theorem exec_sar (k d a b s) : exec (.sar k d a b) s = execSar k d a b s := (rfl)
theorem exec_rol (k d a b s) : exec (.rol k d a b) s = execRol k d a b s := (rfl)
theorem exec_ror (k d a b s) : exec (.ror k d a b) s = execRor k d a b s := (rfl)
theorem exec_seq (k d a b s) : exec (.seq k d a b) s = execSeq k d a b s := (rfl)
theorem exec_sne (k d a b s) : exec (.sne k d a b) s = execSne k d a b s := (rfl)
theorem exec_slt (k d a b s) : exec (.slt k d a b) s = execSlt k d a b s := (rfl)
theorem exec_sltu (k d a b s) : exec (.sltu k d a b) s = execSltu k d a b s := (rfl)
theorem exec_sge (k d a b s) : exec (.sge k d a b) s = execSge k d a b s := (rfl)
theorem exec_sgeu (k d a b s) : exec (.sgeu k d a b) s = execSgeu k d a b s := (rfl)
theorem exec_movz (k d a b s) : exec (.movz k d a b) s = execMovz k d a b s := (rfl)
theorem exec_movnz (k d a b s) : exec (.movnz k d a b) s = execMovnz k d a b s := (rfl)
theorem exec_clz (k d a b s) : exec (.clz k d a b) s = execClz k d a b s := (rfl)
theorem exec_ctz (k d a b s) : exec (.ctz k d a b) s = execCtz k d a b s := (rfl)
theorem exec_popc (k d a b s) : exec (.popc k d a b) s = execPopc k d a b s := (rfl)
theorem exec_addi (k d a imm s) : exec (.addi k d a imm) s = execAddi k d a imm s := (rfl)
theorem exec_andi (k d a imm s) : exec (.andi k d a imm) s = execAndi k d a imm s := (rfl)
theorem exec_ori (k d a imm s) : exec (.ori k d a imm) s = execOri k d a imm s := (rfl)
theorem exec_xori (k d a imm s) : exec (.xori k d a imm) s = execXori k d a imm s := (rfl)
theorem exec_slti (k d a imm s) : exec (.slti k d a imm) s = execSlti k d a imm s := (rfl)
theorem exec_sltiu (k d a imm s) : exec (.sltiu k d a imm) s = execSltiu k d a imm s := (rfl)
theorem exec_shli (k d a sh s) : exec (.shli k d a sh) s = execShli k d a sh s := (rfl)
theorem exec_shri (k d a sh s) : exec (.shri k d a sh) s = execShri k d a sh s := (rfl)
theorem exec_sari (k d a sh s) : exec (.sari k d a sh) s = execSari k d a sh s := (rfl)
theorem exec_rori (k d a sh s) : exec (.rori k d a sh) s = execRori k d a sh s := (rfl)
theorem exec_seqi (k d a imm s) : exec (.seqi k d a imm) s = execSeqi k d a imm s := (rfl)
theorem exec_lui (k d imm s) : exec (.lui k d imm) s = execLui k d imm s := (rfl)
theorem exec_pfx (k imm s) : exec (.pfx k imm) s = execPfx k imm s := (rfl)
theorem exec_beq (k a b disp s) : exec (.beq k a b disp) s = execBeq k a b disp s := (rfl)
theorem exec_bne (k a b disp s) : exec (.bne k a b disp) s = execBne k a b disp s := (rfl)
theorem exec_blt (k a b disp s) : exec (.blt k a b disp) s = execBlt k a b disp s := (rfl)
theorem exec_bge (k a b disp s) : exec (.bge k a b disp) s = execBge k a b disp s := (rfl)
theorem exec_bltu (k a b disp s) : exec (.bltu k a b disp) s = execBltu k a b disp s := (rfl)
theorem exec_bgeu (k a b disp s) : exec (.bgeu k a b disp) s = execBgeu k a b disp s := (rfl)
theorem exec_jmp (k disp s) : exec (.jmp k disp) s = execJmp k disp s := (rfl)
theorem exec_call (k disp s) : exec (.call k disp) s = execCall k disp s := (rfl)
theorem exec_jmpc (k cb s) : exec (.jmpc k cb) s = execJmpc k cb s := (rfl)
theorem exec_callc (k cb s) : exec (.callc k cb) s = execCallc k cb s := (rfl)
theorem exec_jmpr (k a s) : exec (.jmpr k a) s = execJmpr k a s := (rfl)
theorem exec_callr (k a s) : exec (.callr k a) s = execCallr k a s := (rfl)
theorem exec_ret (k s) : exec (.ret k) s = execRet k s := (rfl)
theorem exec_callg (k cb s) : exec (.callg k cb) s = execCallg k cb s := (rfl)
theorem exec_loopG (k a len s) : exec (.loopG k a len) s = execLoopG k a len s := (rfl)
theorem exec_loopi (k count len s) : exec (.loopi k count len) s = execLoopi k count len s := (rfl)
theorem exec_lexit (k s) : exec (.lexit k) s = execLexit k s := (rfl)
theorem exec_mfs (k d idx s) : exec (.mfs k d idx) s = execMfs k d idx s := (rfl)
theorem exec_mts (k idx a s) : exec (.mts k idx a) s = execMts k idx a s := (rfl)
theorem exec_mfsc (k d idx s) : exec (.mfsc k d idx) s = execMfsc k d idx s := (rfl)
theorem exec_mtsc (k idx a s) : exec (.mtsc k idx a) s = execMtsc k idx a s := (rfl)
theorem exec_nop (k s) : exec (.nop k) s = execNop k s := (rfl)
theorem exec_wait (k s) : exec (.wait k) s = execWait k s := (rfl)
theorem exec_tret (k s) : exec (.tret k) s = execTret k s := (rfl)
theorem exec_brk (k s) : exec (.brk k) s = execBrk k s := (rfl)
theorem exec_abar (k s) : exec (.abar k) s = execAbar k s := (rfl)
theorem exec_saveu (k s) : exec (.saveu k) s = execSaveu k s := (rfl)
theorem exec_savel (k s) : exec (.savel k) s = execSavel k s := (rfl)
theorem exec_restu (k s) : exec (.restu k) s = execRestu k s := (rfl)
theorem exec_restl (k s) : exec (.restl k) s = execRestl k s := (rfl)
theorem exec_fenceLl (k s) : exec (.fenceLl k) s = execFenceLl k s := (rfl)
theorem exec_fenceLs (k s) : exec (.fenceLs k) s = execFenceLs k s := (rfl)
theorem exec_fenceSl (k s) : exec (.fenceSl k) s = execFenceSl k s := (rfl)
theorem exec_fenceSs (k s) : exec (.fenceSs k) s = execFenceSs k s := (rfl)
theorem exec_fenceAll (k s) : exec (.fenceAll k) s = execFenceAll k s := (rfl)
theorem exec_pref (k cb s) : exec (.pref k cb) s = execPref k cb s := (rfl)
theorem exec_prefw (k cb s) : exec (.prefw k cb) s = execPrefw k cb s := (rfl)
theorem exec_cclean (k cb s) : exec (.cclean k cb) s = execCclean k cb s := (rfl)
theorem exec_cflush (k cb s) : exec (.cflush k cb) s = execCflush k cb s := (rfl)
theorem exec_czero (k cb s) : exec (.czero k cb) s = execCzero k cb s := (rfl)
theorem exec_invtlbAll (k s) : exec (.invtlbAll k) s = execInvtlbAll k s := (rfl)
theorem exec_invtlbAsid (k a s) : exec (.invtlbAsid k a) s = execInvtlbAsid k a s := (rfl)
theorem exec_invtlbPage (k a b s) : exec (.invtlbPage k a b) s = execInvtlbPage k a b s := (rfl)
theorem exec_invtlbNg (k s) : exec (.invtlbNg k) s = execInvtlbNg k s := (rfl)
theorem exec_icsync (k s) : exec (.icsync k) s = execIcsync k s := (rfl)
theorem exec_bmov (k a b n esize desc upto s) : exec (.bmov k a b n esize desc upto) s = execBmov k a b n esize desc upto s := (rfl)
theorem exec_bfill (k a b n esize desc upto s) : exec (.bfill k a b n esize desc upto) s = execBfill k a b n esize desc upto s := (rfl)
theorem exec_bcmp (k a b n esize desc upto s) : exec (.bcmp k a b n esize desc upto) s = execBcmp k a b n esize desc upto s := (rfl)
theorem exec_bscan (k a b n esize desc neg upto s) : exec (.bscan k a b n esize desc neg upto) s = execBscan k a b n esize desc neg upto s := (rfl)
theorem exec_adc (k d a b f3 s) : exec (.adc k d a b f3) s = execAdc k d a b f3 s := (rfl)
theorem exec_sbc (k d a b f3 s) : exec (.sbc k d a b f3) s = execSbc k d a b f3 s := (rfl)
theorem exec_mul (k d a b s) : exec (.mul k d a b) s = execMul k d a b s := (rfl)
theorem exec_mulw (k d a b s) : exec (.mulw k d a b) s = execMulw k d a b s := (rfl)
theorem exec_mulwu (k d a b s) : exec (.mulwu k d a b) s = execMulwu k d a b s := (rfl)
theorem exec_div (k d a b s) : exec (.div k d a b) s = execDiv k d a b s := (rfl)
theorem exec_divu (k d a b s) : exec (.divu k d a b) s = execDivu k d a b s := (rfl)
theorem exec_rem (k d a b s) : exec (.rem k d a b) s = execRem k d a b s := (rfl)
theorem exec_remu (k d a b s) : exec (.remu k d a b) s = execRemu k d a b s := (rfl)
theorem exec_daddu (k d a b f3 s) : exec (.daddu k d a b f3) s = execDaddu k d a b f3 s := (rfl)
theorem exec_dsubu (k d a b f3 s) : exec (.dsubu k d a b f3) s = execDsubu k d a b f3 s := (rfl)
theorem exec_dadd (k d a b s) : exec (.dadd k d a b) s = execDadd k d a b s := (rfl)
theorem exec_dsub (k d a b s) : exec (.dsub k d a b) s = execDsub k d a b s := (rfl)
theorem exec_daddq (k d a b s) : exec (.daddq k d a b) s = execDaddq k d a b s := (rfl)
theorem exec_dsubq (k d a b s) : exec (.dsubq k d a b) s = execDsubq k d a b s := (rfl)
theorem exec_dadj (k d a b f3 s) : exec (.dadj k d a b f3) s = execDadj k d a b f3 s := (rfl)
theorem exec_dmulw (k d a b f3 s) : exec (.dmulw k d a b f3) s = execDmulw k d a b f3 s := (rfl)
theorem exec_dshl (k d a b f3 s) : exec (.dshl k d a b f3) s = execDshl k d a b f3 s := (rfl)
theorem exec_dshr (k d a b f3 s) : exec (.dshr k d a b f3) s = execDshr k d a b f3 s := (rfl)
theorem exec_dcmp (k d a b f3 s) : exec (.dcmp k d a b f3) s = execDcmp k d a b f3 s := (rfl)
theorem exec_dcmpq (k d a b f3 s) : exec (.dcmpq k d a b f3) s = execDcmpq k d a b f3 s := (rfl)
theorem exec_dpack (k d a b s) : exec (.dpack k d a b) s = execDpack k d a b s := (rfl)
theorem exec_dunpk (k d a b s) : exec (.dunpk k d a b) s = execDunpk k d a b s := (rfl)
theorem exec_dcvtb (k d a f3 s) : exec (.dcvtb k d a f3) s = execDcvtb k d a f3 s := (rfl)
theorem exec_dcvtd (k d a f3 s) : exec (.dcvtd k d a f3) s = execDcvtd k d a f3 s := (rfl)
theorem exec_dchk (k d a f3 s) : exec (.dchk k d a f3) s = execDchk k d a f3 s := (rfl)
theorem exec_fpAdd (k dec fmt d a b f3 s) : exec (.fpAdd k dec fmt d a b f3) s = execFpAdd k dec fmt d a b f3 s := (rfl)
theorem exec_fpSub (k dec fmt d a b f3 s) : exec (.fpSub k dec fmt d a b f3) s = execFpSub k dec fmt d a b f3 s := (rfl)
theorem exec_fpMul (k dec fmt d a b f3 s) : exec (.fpMul k dec fmt d a b f3) s = execFpMul k dec fmt d a b f3 s := (rfl)
theorem exec_fpDiv (k dec fmt d a b f3 s) : exec (.fpDiv k dec fmt d a b f3) s = execFpDiv k dec fmt d a b f3 s := (rfl)
theorem exec_fpSqrt (k dec fmt d a f3 s) : exec (.fpSqrt k dec fmt d a f3) s = execFpSqrt k dec fmt d a f3 s := (rfl)
theorem exec_fpMin (k dec fmt d a b s) : exec (.fpMin k dec fmt d a b) s = execFpMin k dec fmt d a b s := (rfl)
theorem exec_fpMax (k dec fmt d a b s) : exec (.fpMax k dec fmt d a b) s = execFpMax k dec fmt d a b s := (rfl)
theorem exec_fpCeq (k dec fmt d a b s) : exec (.fpCeq k dec fmt d a b) s = execFpCeq k dec fmt d a b s := (rfl)
theorem exec_fpClt (k dec fmt d a b s) : exec (.fpClt k dec fmt d a b) s = execFpClt k dec fmt d a b s := (rfl)
theorem exec_fpCle (k dec fmt d a b s) : exec (.fpCle k dec fmt d a b) s = execFpCle k dec fmt d a b s := (rfl)
theorem exec_fpCun (k dec fmt d a b s) : exec (.fpCun k dec fmt d a b) s = execFpCun k dec fmt d a b s := (rfl)
theorem exec_fpClass (k dec fmt d a s) : exec (.fpClass k dec fmt d a) s = execFpClass k dec fmt d a s := (rfl)
theorem exec_fpCvtw (k dec fmt d a f3 s) : exec (.fpCvtw k dec fmt d a f3) s = execFpCvtw k dec fmt d a f3 s := (rfl)
theorem exec_fpCvtx (k dec fmt d a sel f3 s) : exec (.fpCvtx k dec fmt d a sel f3) s = execFpCvtx k dec fmt d a sel f3 s := (rfl)
theorem exec_fpCvti (k dec fmt d a f3 s) : exec (.fpCvti k dec fmt d a f3) s = execFpCvti k dec fmt d a f3 s := (rfl)
theorem exec_fpCvtfi (k dec fmt d a f3 s) : exec (.fpCvtfi k dec fmt d a f3) s = execFpCvtfi k dec fmt d a f3 s := (rfl)
theorem exec_fpRint (k dec fmt d a f3 s) : exec (.fpRint k dec fmt d a f3) s = execFpRint k dec fmt d a f3 s := (rfl)
theorem exec_fpQuantize (k fmt d a b f3 s) : exec (.fpQuantize k fmt d a b f3) s = execFpQuantize k fmt d a b f3 s := (rfl)
theorem exec_fpSameq (k fmt d a b s) : exec (.fpSameq k fmt d a b) s = execFpSameq k fmt d a b s := (rfl)
theorem exec_fpSgn (k dec fmt d a b f3 s) : exec (.fpSgn k dec fmt d a b f3) s = execFpSgn k dec fmt d a b f3 s := (rfl)
theorem exec_fpMvg (k dec fmt d a s) : exec (.fpMvg k dec fmt d a) s = execFpMvg k dec fmt d a s := (rfl)
theorem exec_fpMvf (k dec fmt d a s) : exec (.fpMvf k dec fmt d a) s = execFpMvf k dec fmt d a s := (rfl)
theorem exec_fpTopack (k fmt d a b f3 s) : exec (.fpTopack k fmt d a b f3) s = execFpTopack k fmt d a b f3 s := (rfl)
theorem exec_fpFrompack (k fmt d a b f3 s) : exec (.fpFrompack k fmt d a b f3) s = execFpFrompack k fmt d a b f3 s := (rfl)
theorem exec_fmadd (k fmt d a b f3 s) : exec (.fmadd k fmt d a b f3) s = execFmadd k fmt d a b f3 s := (rfl)
theorem exec_fmsub (k fmt d a b f3 s) : exec (.fmsub k fmt d a b f3) s = execFmsub k fmt d a b f3 s := (rfl)
theorem exec_fnmsub (k fmt d a b f3 s) : exec (.fnmsub k fmt d a b f3) s = execFnmsub k fmt d a b f3 s := (rfl)
theorem exec_fnmadd (k fmt d a b f3 s) : exec (.fnmadd k fmt d a b f3) s = execFnmadd k fmt d a b f3 s := (rfl)
theorem exec_vld (k d cb mask s) : exec (.vld k d cb mask) s = execVld k d cb mask s := (rfl)
theorem exec_vldp (k d cb mask s) : exec (.vldp k d cb mask) s = execVldp k d cb mask s := (rfl)
theorem exec_vlds (k d cb b mask s) : exec (.vlds k d cb b mask) s = execVlds k d cb b mask s := (rfl)
theorem exec_vldx (k d cb b mask s) : exec (.vldx k d cb b mask) s = execVldx k d cb b mask s := (rfl)
theorem exec_vst (k d cb mask s) : exec (.vst k d cb mask) s = execVst k d cb mask s := (rfl)
theorem exec_vstp (k d cb mask s) : exec (.vstp k d cb mask) s = execVstp k d cb mask s := (rfl)
theorem exec_vsts (k d cb b mask s) : exec (.vsts k d cb b mask) s = execVsts k d cb b mask s := (rfl)
theorem exec_vstx (k d cb b mask s) : exec (.vstx k d cb b mask) s = execVstx k d cb b mask s := (rfl)
theorem exec_vldm (k d cb s) : exec (.vldm k d cb) s = execVldm k d cb s := (rfl)
theorem exec_vstm (k d cb s) : exec (.vstm k d cb) s = execVstm k d cb s := (rfl)
theorem exec_vsetvl (k d a sew md s) : exec (.vsetvl k d a sew md) s = execVsetvl k d a sew md s := (rfl)
theorem exec_vsplat (k d a mask s) : exec (.vsplat k d a mask) s = execVsplat k d a mask s := (rfl)
theorem exec_vins (k d a b mask s) : exec (.vins k d a b mask) s = execVins k d a b mask s := (rfl)
theorem exec_vext (k d a b s) : exec (.vext k d a b) s = execVext k d a b s := (rfl)
theorem exec_vmv (k d a mask s) : exec (.vmv k d a mask) s = execVmv k d a mask s := (rfl)
theorem exec_vsldn (k d a b mask s) : exec (.vsldn k d a b mask) s = execVsldn k d a b mask s := (rfl)
theorem exec_vslup (k d a b mask s) : exec (.vslup k d a b mask) s = execVslup k d a b mask s := (rfl)
theorem exec_vrelease (k s) : exec (.vrelease k) s = execVrelease k s := (rfl)
theorem exec_vadd (k d a b mask s) : exec (.vadd k d a b mask) s = execVadd k d a b mask s := (rfl)
theorem exec_vsub (k d a b mask s) : exec (.vsub k d a b mask) s = execVsub k d a b mask s := (rfl)
theorem exec_vmul (k d a b mask s) : exec (.vmul k d a b mask) s = execVmul k d a b mask s := (rfl)
theorem exec_vmulwl (k d a b mask s) : exec (.vmulwl k d a b mask) s = execVmulwl k d a b mask s := (rfl)
theorem exec_vmulwh (k d a b mask s) : exec (.vmulwh k d a b mask) s = execVmulwh k d a b mask s := (rfl)
theorem exec_vmulwlu (k d a b mask s) : exec (.vmulwlu k d a b mask) s = execVmulwlu k d a b mask s := (rfl)
theorem exec_vmulwhu (k d a b mask s) : exec (.vmulwhu k d a b mask) s = execVmulwhu k d a b mask s := (rfl)
theorem exec_vdot4 (k d a b mask s) : exec (.vdot4 k d a b mask) s = execVdot4 k d a b mask s := (rfl)
theorem exec_vand (k d a b mask s) : exec (.vand k d a b mask) s = execVand k d a b mask s := (rfl)
theorem exec_vor (k d a b mask s) : exec (.vor k d a b mask) s = execVor k d a b mask s := (rfl)
theorem exec_vxor (k d a b mask s) : exec (.vxor k d a b mask) s = execVxor k d a b mask s := (rfl)
theorem exec_vshl (k d a b mask s) : exec (.vshl k d a b mask) s = execVshl k d a b mask s := (rfl)
theorem exec_vshr (k d a b mask s) : exec (.vshr k d a b mask) s = execVshr k d a b mask s := (rfl)
theorem exec_vsar (k d a b mask s) : exec (.vsar k d a b mask) s = execVsar k d a b mask s := (rfl)
theorem exec_vmin (k d a b mask s) : exec (.vmin k d a b mask) s = execVmin k d a b mask s := (rfl)
theorem exec_vmax (k d a b mask s) : exec (.vmax k d a b mask) s = execVmax k d a b mask s := (rfl)
theorem exec_vminu (k d a b mask s) : exec (.vminu k d a b mask) s = execVminu k d a b mask s := (rfl)
theorem exec_vmaxu (k d a b mask s) : exec (.vmaxu k d a b mask) s = execVmaxu k d a b mask s := (rfl)
theorem exec_vaddsat (k d a b mask s) : exec (.vaddsat k d a b mask) s = execVaddsat k d a b mask s := (rfl)
theorem exec_vcmpeq (k d a b mask s) : exec (.vcmpeq k d a b mask) s = execVcmpeq k d a b mask s := (rfl)
theorem exec_vcmplt (k d a b mask s) : exec (.vcmplt k d a b mask) s = execVcmplt k d a b mask s := (rfl)
theorem exec_vcmpltu (k d a b mask s) : exec (.vcmpltu k d a b mask) s = execVcmpltu k d a b mask s := (rfl)
theorem exec_vredadd (k d a b mask s) : exec (.vredadd k d a b mask) s = execVredadd k d a b mask s := (rfl)
theorem exec_vredmax (k d a b mask s) : exec (.vredmax k d a b mask) s = execVredmax k d a b mask s := (rfl)
theorem exec_vfadd (k d a b mask s) : exec (.vfadd k d a b mask) s = execVfadd k d a b mask s := (rfl)
theorem exec_vfsub (k d a b mask s) : exec (.vfsub k d a b mask) s = execVfsub k d a b mask s := (rfl)
theorem exec_vfmul (k d a b mask s) : exec (.vfmul k d a b mask) s = execVfmul k d a b mask s := (rfl)
theorem exec_vfmadd (k d a b mask s) : exec (.vfmadd k d a b mask) s = execVfmadd k d a b mask s := (rfl)
theorem exec_vfmin (k d a b mask s) : exec (.vfmin k d a b mask) s = execVfmin k d a b mask s := (rfl)
theorem exec_vfmax (k d a b mask s) : exec (.vfmax k d a b mask) s = execVfmax k d a b mask s := (rfl)
theorem exec_vfcmpeq (k d a b mask s) : exec (.vfcmpeq k d a b mask) s = execVfcmpeq k d a b mask s := (rfl)
theorem exec_vfcmplt (k d a b mask s) : exec (.vfcmplt k d a b mask) s = execVfcmplt k d a b mask s := (rfl)
theorem exec_vdot2h (k d a b mask s) : exec (.vdot2h k d a b mask) s = execVdot2h k d a b mask s := (rfl)
theorem exec_vfwiden (k d a h mask s) : exec (.vfwiden k d a h mask) s = execVfwiden k d a h mask s := (rfl)
theorem exec_vfcvti (k d a mask s) : exec (.vfcvti k d a mask) s = execVfcvti k d a mask s := (rfl)
theorem exec_vfcvtfi (k d a mask s) : exec (.vfcvtfi k d a mask) s = execVfcvtfi k d a mask s := (rfl)
theorem exec_vdadd (k d a b mask s) : exec (.vdadd k d a b mask) s = execVdadd k d a b mask s := (rfl)
theorem exec_vdsub (k d a b mask s) : exec (.vdsub k d a b mask) s = execVdsub k d a b mask s := (rfl)
theorem exec_vdmul (k d a b mask s) : exec (.vdmul k d a b mask) s = execVdmul k d a b mask s := (rfl)
theorem exec_vdfma (k d a b mask s) : exec (.vdfma k d a b mask) s = execVdfma k d a b mask s := (rfl)
theorem exec_vdquant (k d a b mask s) : exec (.vdquant k d a b mask) s = execVdquant k d a b mask s := (rfl)
theorem exec_vdcmpeq (k d a b mask s) : exec (.vdcmpeq k d a b mask) s = execVdcmpeq k d a b mask s := (rfl)
theorem exec_vdcmplt (k d a b mask s) : exec (.vdcmplt k d a b mask) s = execVdcmplt k d a b mask s := (rfl)
theorem exec_vdfromi (k d a mask s) : exec (.vdfromi k d a mask) s = execVdfromi k d a mask s := (rfl)
theorem exec_mand (k d a b s) : exec (.mand k d a b) s = execMand k d a b s := (rfl)
theorem exec_mor (k d a b s) : exec (.mor k d a b) s = execMor k d a b s := (rfl)
theorem exec_mxor (k d a b s) : exec (.mxor k d a b) s = execMxor k d a b s := (rfl)
theorem exec_mandn (k d a b s) : exec (.mandn k d a b) s = execMandn k d a b s := (rfl)
theorem exec_mpopc (k d a s) : exec (.mpopc k d a) s = execMpopc k d a s := (rfl)
theorem exec_mfirst (k d a s) : exec (.mfirst k d a) s = execMfirst k d a s := (rfl)
theorem exec_mmvg (k d a b s) : exec (.mmvg k d a b) s = execMmvg k d a b s := (rfl)
theorem exec_mmvm (k d a b s) : exec (.mmvm k d a b) s = execMmvm k d a b s := (rfl)
theorem exec_trapEntry (k word s) : exec (.trapEntry k word) s = execTrapEntry k s word := (rfl)
theorem exec_dbhRing (v s) : exec (.dbhRing v) s = execDbhRing v s := (rfl)
theorem exec_dbhTickFire (x s) : exec (.dbhTickFire x) s = execDbhTickFire x s := (rfl)
theorem exec_dbhPend (v s) : exec (.dbhPend v) s = execDbhPend v s := (rfl)
theorem exec_dbhUnpend (v s) : exec (.dbhUnpend v) s = execDbhUnpend v s := (rfl)
theorem exec_dbhPpendWrite (k v s) : exec (.dbhPpendWrite k v) s = execDbhPpendWrite k v s := (rfl)
theorem exec_dbhIpi (v s) : exec (.dbhIpi v) s = execDbhIpi v s := (rfl)
theorem exec_dbhClaim (k s) : exec (.dbhClaim k) s = execDbhClaim k s := (rfl)
theorem exec_dbhClaimg (k s) : exec (.dbhClaimg k) s = execDbhClaimg k s := (rfl)
theorem exec_dbhClaimn (k s) : exec (.dbhClaimn k) s = execDbhClaimn k s := (rfl)
theorem exec_dbhPeek (k s) : exec (.dbhPeek k) s = execDbhPeek k s := (rfl)
theorem exec_dbhDone (k v s) : exec (.dbhDone k v) s = execDbhDone k v s := (rfl)
theorem exec_dbhSrcWrite (x v s) : exec (.dbhSrcWrite x v) s = execDbhSrcWrite x v s := (rfl)
theorem exec_dbhHoldWrite (v s) : exec (.dbhHoldWrite v) s = execDbhHoldWrite v s := (rfl)
theorem exec_dbhTctlWrite (k v s) : exec (.dbhTctlWrite k v) s = execDbhTctlWrite k v s := (rfl)
theorem exec_dbhTimerFire (k n s) : exec (.dbhTimerFire k n) s = execDbhTimerFire k n s := (rfl)
theorem exec_interruptLineChange (k s) : exec (.interruptLineChange k) s = execInterruptLineChange k s := (rfl)
theorem exec_coherentRequest (unit a excl s) : exec (.coherentRequest unit a excl) s = execCoherentRequest unit a excl s := (rfl)
theorem exec_snoop (cluster a s) : exec (.snoop cluster a) s = execSnoop cluster a s := (rfl)
theorem exec_patrolScrubRead (n a found last s) : exec (.patrolScrubRead n a found last) s = execPatrolScrubRead n a found last s := (rfl)
theorem exec_ddrInitPass (n upto s) : exec (.ddrInitPass n upto) s = execDdrInitPass n upto s := (rfl)
theorem exec_partitionEnable (n v s) : exec (.partitionEnable n v) s = execPartitionEnable n v s := (rfl)
theorem exec_partitionFillDone (n s) : exec (.partitionFillDone n) s = execPartitionFillDone n s := (rfl)
theorem exec_partitionRelease (n v s) : exec (.partitionRelease n v) s = execPartitionRelease n v s := (rfl)
theorem exec_partitionReleaseDone (n s) : exec (.partitionReleaseDone n) s = execPartitionReleaseDone n s := (rfl)
theorem exec_cxlRegionEnable (n region v s) : exec (.cxlRegionEnable n region v) s = execCxlRegionEnable n region v s := (rfl)
theorem exec_cxlRegionReady (n region cap s) : exec (.cxlRegionReady n region cap) s = execCxlRegionReady n region s cap := (rfl)
theorem exec_cxlRegionDisable (n region v s) : exec (.cxlRegionDisable n region v) s = execCxlRegionDisable n region v s := (rfl)
theorem exec_memCopyGo (n v s) : exec (.memCopyGo n v) s = execMemCopyGo n v s := (rfl)
theorem exec_memCopyAbort (n v s) : exec (.memCopyAbort n v) s = execMemCopyAbort n v s := (rfl)
theorem exec_memCopyPageDone (n s) : exec (.memCopyPageDone n) s = execMemCopyPageDone n s := (rfl)
theorem exec_post (k d a b f3 f7 s) : exec (.post k d a b f3 f7) s = execPost k d a b f3 f7 s := (rfl)
theorem exec_postReply (k id s) : exec (.postReply k id) s = execPostReply k id s := (rfl)
theorem exec_tlrSubmitWrite (n v s) : exec (.tlrSubmitWrite n v) s = execTlrSubmitWrite n v s := (rfl)
theorem exec_submissionSlotIntake (n ring s) : exec (.submissionSlotIntake n ring) s = execSubmissionSlotIntake n ring s := (rfl)
theorem exec_postingIntake (id s) : exec (.postingIntake id) s = execPostingIntake id s := (rfl)
theorem exec_postingLeadArrival (id s) : exec (.postingLeadArrival id) s = execPostingLeadArrival id s := (rfl)
theorem exec_cellLockRequest (id s) : exec (.cellLockRequest id) s = execCellLockRequest id s := (rfl)
theorem exec_cellLockGrant (id s) : exec (.cellLockGrant id) s = execCellLockGrant id s := (rfl)
theorem exec_sequenceRequest (id s) : exec (.sequenceRequest id) s = execSequenceRequest id s := (rfl)
theorem exec_postingNumberReceived (id s) : exec (.postingNumberReceived id) s = execPostingNumberReceived id s := (rfl)
theorem exec_cellCommit (id pa s) : exec (.cellCommit id pa) s = execCellCommit id pa s := (rfl)
theorem exec_commitAck (id pa s) : exec (.commitAck id pa) s = execCommitAck id pa s := (rfl)
theorem exec_completionReserveRetry (id s) : exec (.completionReserveRetry id) s = execCompletionReserveRetry id s := (rfl)
theorem exec_durabilityWaitTimeout (n s) : exec (.durabilityWaitTimeout n) s = execDurabilityWaitTimeout n s := (rfl)
theorem exec_seqNextWrite (v s) : exec (.seqNextWrite v) s = execSeqNextWrite v s := (rfl)
theorem exec_seqCtlWrite (v s) : exec (.seqCtlWrite v) s = execSeqCtlWrite v s := (rfl)
theorem exec_tlrInvtlbWrite (n v s) : exec (.tlrInvtlbWrite n v) s = execTlrInvtlbWrite n v s := (rfl)
theorem exec_tlrSrcfgEnable (n ring v s) : exec (.tlrSrcfgEnable n ring v) s = execTlrSrcfgEnable n ring v s := (rfl)
theorem exec_journalWriteAccepted (n ok s) : exec (.journalWriteAccepted n ok) s = execJournalWriteAccepted n ok s := (rfl)
theorem exec_persistenceFlushComplete (group port ok s) : exec (.persistenceFlushComplete group port ok) s = execPersistenceFlushComplete group port ok s := (rfl)
theorem exec_journalLocalSet (n v s) : exec (.journalLocalSet n v) s = execJournalLocalSet n v s := (rfl)
theorem exec_journalMirrorSet (n v s) : exec (.journalMirrorSet n v) s = execJournalMirrorSet n v s := (rfl)
theorem exec_journalLocalClear (n v s) : exec (.journalLocalClear n v) s = execJournalLocalClear n v s := (rfl)
theorem exec_journalMirrorClear (n v s) : exec (.journalMirrorClear n v) s = execJournalMirrorClear n v s := (rfl)
theorem exec_jtailWrite (n v s) : exec (.jtailWrite n v) s = execJtailWrite n v s := (rfl)
theorem exec_jmtailWrite (n v s) : exec (.jmtailWrite n v) s = execJmtailWrite n v s := (rfl)
theorem exec_jmbaseEnable (n v s) : exec (.jmbaseEnable n v) s = execJmbaseEnable n v s := (rfl)
theorem exec_sealRecordWrite (n s) : exec (.sealRecordWrite n) s = execSealRecordWrite n s := (rfl)
theorem exec_drainComplete (n s) : exec (.drainComplete n) s = execDrainComplete n s := (rfl)
theorem exec_lgpApply (group s) : exec (.lgpApply group) s = execLgpApply group s := (rfl)
theorem exec_portTrained (group port width rate flit s) : exec (.portTrained group port width rate flit) s = execPortTrained group port width rate flit s := (rfl)
theorem exec_dmaRead (group rid translated pasid addr len s) : exec (.dmaRead group rid translated pasid addr len) s = execDmaRead group rid translated pasid addr len s := (rfl)
theorem exec_dmaWrite (group rid translated pasid addr bytes poison s) : exec (.dmaWrite group rid translated pasid addr bytes poison) s = execDmaWrite group rid translated pasid addr bytes poison s := (rfl)
theorem exec_dmaAtomic (group rid translated pasid addr op len gs gd s) : exec (.dmaAtomic group rid translated pasid addr op len gs gd) s = execDmaAtomic group rid translated pasid addr op len gs gd s := (rfl)
theorem exec_atsTranslationRequest (group rid pasid addr write s) : exec (.atsTranslationRequest group rid pasid addr write) s = execAtsTranslationRequest group rid pasid addr write s := (rfl)
theorem exec_pageRequest (group port rid rd wr last prgi page s) : exec (.pageRequest group port rid rd wr last prgi page) s = execPageRequest group port rid rd wr last prgi page s := (rfl)
theorem exec_lgpPrgrWrite (group v s) : exec (.lgpPrgrWrite group v) s = execLgpPrgrWrite group v s := (rfl)
theorem exec_lgpInvtlbWrite (group v s) : exec (.lgpInvtlbWrite group v) s = execLgpInvtlbWrite group v s := (rfl)
theorem exec_atsInvalidateTimeout (group fn s) : exec (.atsInvalidateTimeout group fn) s = execAtsInvalidateTimeout group fn s := (rfl)
theorem exec_cxlMemTimeout (a s) : exec (.cxlMemTimeout a) s = execCxlMemTimeout a s := (rfl)
theorem exec_guardBindWrite (set k v s) : exec (.guardBindWrite set k v) s = execGuardBindWrite set k v s := (rfl)
theorem exec_guardEvict (port s) : exec (.guardEvict port) s = execGuardEvict port s := (rfl)
theorem exec_peerCfgEnable (port v s) : exec (.peerCfgEnable port v) s = execPeerCfgEnable port v s := (rfl)
theorem exec_flitReceive (port bytes delay s) : exec (.flitReceive port bytes delay) s = execFlitReceive port bytes delay s := (rfl)
theorem exec_nakReceive (port ack s) : exec (.nakReceive port ack) s = execNakReceive port ack s := (rfl)
theorem exec_ackTimeout (port s) : exec (.ackTimeout port) s = execAckTimeout port s := (rfl)
theorem exec_retrainComplete (port ok s) : exec (.retrainComplete port ok) s = execRetrainComplete port ok s := (rfl)
theorem exec_downReceive (port s) : exec (.downReceive port) s = execDownReceive port s := (rfl)
theorem exec_identReceive (port socket credits delay s) : exec (.identReceive port socket credits delay) s = execIdentReceive port socket credits delay s := (rfl)
theorem exec_timeSyncRequest (port s) : exec (.timeSyncRequest port) s = execTimeSyncRequest port s := (rfl)
theorem exec_treqReceive (port t1 s) : exec (.treqReceive port t1) s = execTreqReceive port t1 s := (rfl)
theorem exec_trspReceive (port t2 t3 s) : exec (.trspReceive port t2 t3) s = execTrspReceive port t2 t3 s := (rfl)
theorem exec_rds (port tx src a s) : exec (.rds port tx src a) s = execRds port tx src a s := (rfl)
theorem exec_rdx (port tx src a s) : exec (.rdx port tx src a) s = execRdx port tx src a s := (rfl)
theorem exec_rdu (port tx src arg a s) : exec (.rdu port tx src arg a) s = execRdu port tx src arg a s := (rfl)
theorem exec_wrl (port tx src a data poison s) : exec (.wrl port tx src a data poison) s = execWrl port tx src a data poison s := (rfl)
theorem exec_wrp (port tx src arg a data poison s) : exec (.wrp port tx src arg a data poison) s = execWrp port tx src arg a data poison s := (rfl)
theorem exec_wbk (port tx src a data tags poison s) : exec (.wbk port tx src a data tags poison) s = execWbk port tx src a data tags poison s := (rfl)
theorem exec_atm (port tx src arg a data s) : exec (.atm port tx src arg a data) s = execAtm port tx src arg a data s := (rfl)
theorem exec_rdc (port tx src a s) : exec (.rdc port tx src a) s = execRdc port tx src a s := (rfl)
theorem exec_wrc (port tx src a data tags poison s) : exec (.wrc port tx src a data tags poison) s = execWrc port tx src a data tags poison s := (rfl)
theorem exec_snpi (port tx a s) : exec (.snpi port tx a) s = execSnpi port tx a s := (rfl)
theorem exec_snps (port tx a s) : exec (.snps port tx a) s = execSnps port tx a s := (rfl)
theorem exec_srsp (port tx modified data tags poison s) : exec (.srsp port tx modified data tags poison) s = execSrsp port tx modified data tags poison s := (rfl)
theorem exec_dat (port tx data tags poison s) : exec (.dat port tx data tags poison) s = execDat port tx data tags poison s := (rfl)
theorem exec_cmp (port tx arg s) : exec (.cmp port tx arg) s = execCmp port tx arg s := (rfl)
theorem exec_wnt (port tx a s) : exec (.wnt port tx a) s = execWnt port tx a s := (rfl)
theorem exec_lck (port tx src a s) : exec (.lck port tx src a) s = execLck port tx src a s := (rfl)
theorem exec_lgr (port tx data poison s) : exec (.lgr port tx data poison) s = execLgr port tx data poison s := (rfl)
theorem exec_cmt (port tx src a data note s) : exec (.cmt port tx src a data note) s = execCmt port tx src a data s note := (rfl)
theorem exec_rel (port tx src a s) : exec (.rel port tx src a) s = execRel port tx src a s := (rfl)
theorem exec_cak (port tx s) : exec (.cak port tx) s = execCak port tx s := (rfl)
theorem exec_pfw (port tx src arg v data tags s) : exec (.pfw port tx src arg v data tags) s = execPfw port tx src arg v data tags s := (rfl)
theorem exec_prp (port tx arg s) : exec (.prp port tx arg) s = execPrp port tx arg s := (rfl)
theorem exec_jrc (port tx src arg data s) : exec (.jrc port tx src arg data) s = execJrc port tx src arg data s := (rfl)
theorem exec_jak (port tx v s) : exec (.jak port tx v) s = execJak port tx v s := (rfl)
theorem exec_ipi (port arg s) : exec (.ipi port arg) s = execIpi port arg s := (rfl)
theorem exec_fnc (port tx v s) : exec (.fnc port tx v) s = execFnc port tx v s := (rfl)
theorem exec_fak (port tx s) : exec (.fak port tx) s = execFak port tx s := (rfl)
theorem exec_swl (port tx arg data s) : exec (.swl port tx arg data) s = execSwl port tx arg data s := (rfl)
theorem exec_swr (port tx arg s) : exec (.swr port tx arg) s = execSwr port tx arg s := (rfl)
theorem exec_henter (k cb s) : exec (.henter k cb) s = execHenter k cb s := (rfl)
theorem exec_hexit (k s) : exec (.hexit k) s = execHexit k s := (rfl)
theorem exec_k16Nop (k s) : exec (.k16Nop k) s = execK16Nop k s := (rfl)
theorem exec_k16Svc (k n s) : exec (.k16Svc k n) s = execK16Svc k n s := (rfl)
theorem exec_k16In (k n s) : exec (.k16In k n) s = execK16In k s n := (rfl)
theorem exec_k16Out (k n s) : exec (.k16Out k n) s = execK16Out k s n := (rfl)
theorem exec_k16Ei (k n s) : exec (.k16Ei k n) s = execK16Ei k s n := (rfl)
theorem exec_k16Di (k n s) : exec (.k16Di k n) s = execK16Di k s n := (rfl)
theorem exec_k16Reti (k n s) : exec (.k16Reti k n) s = execK16Reti k s n := (rfl)
theorem exec_k16Halt (k n s) : exec (.k16Halt k n) s = execK16Halt k s n := (rfl)
theorem exec_k16Mov (k d a s) : exec (.k16Mov k d a) s = execK16Mov k d a s := (rfl)
theorem exec_k16Add (k d a s) : exec (.k16Add k d a) s = execK16Add k d a s := (rfl)
theorem exec_k16Adc (k d a s) : exec (.k16Adc k d a) s = execK16Adc k d a s := (rfl)
theorem exec_k16Sub (k d a s) : exec (.k16Sub k d a) s = execK16Sub k d a s := (rfl)
theorem exec_k16Sbc (k d a s) : exec (.k16Sbc k d a) s = execK16Sbc k d a s := (rfl)
theorem exec_k16And (k d a s) : exec (.k16And k d a) s = execK16And k d a s := (rfl)
theorem exec_k16Or (k d a s) : exec (.k16Or k d a) s = execK16Or k d a s := (rfl)
theorem exec_k16Xor (k d a s) : exec (.k16Xor k d a) s = execK16Xor k d a s := (rfl)
theorem exec_k16Cmp (k d a s) : exec (.k16Cmp k d a) s = execK16Cmp k d a s := (rfl)
theorem exec_k16Tst (k d a s) : exec (.k16Tst k d a) s = execK16Tst k d a s := (rfl)
theorem exec_k16Shl (k d a s) : exec (.k16Shl k d a) s = execK16Shl k d a s := (rfl)
theorem exec_k16Shr (k d a s) : exec (.k16Shr k d a) s = execK16Shr k d a s := (rfl)
theorem exec_k16Sar (k d a s) : exec (.k16Sar k d a) s = execK16Sar k d a s := (rfl)
theorem exec_k16Dadc (k d a s) : exec (.k16Dadc k d a) s = execK16Dadc k d a s := (rfl)
theorem exec_k16Dsbc (k d a s) : exec (.k16Dsbc k d a) s = execK16Dsbc k d a s := (rfl)
theorem exec_k16Mulu (k d a s) : exec (.k16Mulu k d a) s = execK16Mulu k d a s := (rfl)
theorem exec_k16Addi (k d imm s) : exec (.k16Addi k d imm) s = execK16Addi k d imm s := (rfl)
theorem exec_k16Movi (k d imm s) : exec (.k16Movi k d imm) s = execK16Movi k d imm s := (rfl)
theorem exec_k16Movhi (k d imm s) : exec (.k16Movhi k d imm) s = execK16Movhi k d imm s := (rfl)
theorem exec_k16Cmpi (k d imm s) : exec (.k16Cmpi k d imm) s = execK16Cmpi k d imm s := (rfl)
theorem exec_k16Ld (k d a disp s) : exec (.k16Ld k d a disp) s = execK16Ld k d a disp s := (rfl)
theorem exec_k16St (k d a disp s) : exec (.k16St k d a disp) s = execK16St k d a disp s := (rfl)
theorem exec_k16Setdb (k imm s) : exec (.k16Setdb k imm) s = execK16Setdb k imm s := (rfl)
theorem exec_k16Setdbr (k b s) : exec (.k16Setdbr k b) s = execK16Setdbr k b s := (rfl)
theorem exec_k16Getdb (k b s) : exec (.k16Getdb k b) s = execK16Getdb k b s := (rfl)
theorem exec_k16Jmpf (k b s) : exec (.k16Jmpf k b) s = execK16Jmpf k b s := (rfl)
theorem exec_k16Callf (k b s) : exec (.k16Callf k b) s = execK16Callf k b s := (rfl)
theorem exec_k16Bcc (k cond disp s) : exec (.k16Bcc k cond disp) s = execK16Bcc k cond disp s := (rfl)
theorem exec_k16Call (k disp s) : exec (.k16Call k disp) s = execK16Call k disp s := (rfl)
theorem exec_k16Jmp (k disp s) : exec (.k16Jmp k disp) s = execK16Jmp k disp s := (rfl)
theorem exec_k16Loop (k a len s) : exec (.k16Loop k a len) s = execK16Loop k a len s := (rfl)
theorem exec_k16LdPostinc (k d a s) : exec (.k16LdPostinc k d a) s = execK16LdPostinc k d a s := (rfl)
theorem exec_k16StPostinc (k d a s) : exec (.k16StPostinc k d a) s = execK16StPostinc k d a s := (rfl)
theorem exec_k16LdPredec (k d a s) : exec (.k16LdPredec k d a) s = execK16LdPredec k d a s := (rfl)
theorem exec_k16StPredec (k d a s) : exec (.k16StPredec k d a) s = execK16StPredec k d a s := (rfl)
theorem exec_supplyValid (rail s) : exec (.supplyValid rail) s = execSupplyValid rail s := (rfl)
theorem exec_refclkReturn (s) : exec .refclkReturn s = execRefclkReturn s := (rfl)
theorem exec_tapReset (s) : exec .tapReset s = execTapReset s := (rfl)
theorem exec_cellLockRelease (line id s) : exec (.cellLockRelease line id) s = execCellLockRelease line id s := (rfl)
theorem exec_atsInvalidateCompletion (group fn s) : exec (.atsInvalidateCompletion group fn) s = execAtsInvalidateCompletion group fn s := (rfl)
theorem exec_ptmRequest (group port s) : exec (.ptmRequest group port) s = execPtmRequest group port s := (rfl)
theorem exec_mctpControlMessage (eid s) : exec (.mctpControlMessage eid) s = execMctpControlMessage eid s := (rfl)
theorem exec_cxlMemResponse (a poison s) : exec (.cxlMemResponse a poison) s = execCxlMemResponse a poison s := (rfl)
theorem exec_dramRefresh (n s) : exec (.dramRefresh n) s = execDramRefresh n s := (rfl)

end Sys2Proof.Machine
end

