-- ==== Sys2Proof/Laws/Hub.lean ====
section
/-!
SUPPORT. What the hub's operations and telemetry counting can change: the control-space registers, the hub's own fields and the
free-value counter, and nothing else.
-/
namespace Sys2Proof.Machine

/-- The state with everything the hub and the counters may write taken out. -/
def State.offHub (s : State) : State :=
  { s with csr := [], dbCnt := [], dbDue := [], dbPriv := [], dbLine := [], dbMsgs := [], dbOld := [], free := 0 }

theorem foldl_keeps {α β γ : Type} (g : β → γ) (f : β → α → β) (h : ∀ b a, g (f b a) = g b) (l : List α) (b : β) :
    g (l.foldl f b) = g b := by
  induction l generalizing b with
  | nil => rfl
  | cons a l ih => simp only [List.foldl_cons, ih, h]

@[simp] theorem setReg_offHub (s : State) (k v) : (s.setReg k v).offHub = s.offHub := (rfl)
@[simp] theorem setRf_offHub (s : State) (k f n) : (s.setRf k f n).offHub = s.offHub := (rfl)
@[simp] theorem incRf_offHub (s : State) (k f) : (s.incRf k f).offHub = s.offHub := (rfl)
@[simp] theorem setDbCnt_offHub (s : State) (x n) : (s.setDbCnt x n).offHub = s.offHub := (rfl)
@[simp] theorem setDbDue_offHub (s : State) (x n) : (s.setDbDue x n).offHub = s.offHub := (rfl)
@[simp] theorem setPriv_offHub (s : State) (c k v) : (s.setPriv c k v).offHub = s.offHub := (rfl)
@[simp] theorem bumpFree_offHub (s : State) : s.bumpFree.offHub = s.offHub := (rfl)
@[simp] theorem dbLine_offHub (s : State) (a b) : State.offHub { s with dbLine := a, dbMsgs := b } = s.offHub := (rfl)
@[simp] theorem free_offHub (s : State) (a b) : State.offHub { s with free := a, dbMsgs := b } = s.offHub := (rfl)

@[simp] theorem markLaunched_offHub (s : State) (on) : (s.markLaunched on).offHub = s.offHub := by
  unfold State.markLaunched
  simp only
  rw [foldl_keeps State.offHub, foldl_keeps State.offHub]
  · intro b a
    split
    · split <;> simp
    · rfl
  · rintro b ⟨k, v⟩
    dsimp only
    split
    · split <;> simp
    · rfl

@[simp] theorem relines_offHub (s : State) : s.relines.offHub = s.offHub := by
  unfold State.relines
  simp only [markLaunched_offHub]
  rw [foldl_keeps State.offHub]
  intro b a
  rw [foldl_keeps State.offHub]
  intro b a; split <;> simp

@[simp] theorem dropOld_offHub (s : State) (x) : (s.dropOld x).offHub = s.offHub := (rfl)

@[simp] theorem fireShared_offHub (s : State) (x) : (s.fireShared x).offHub = s.offHub := by
  unfold State.fireShared; simp only [relines_offHub]; split <;> simp

@[simp] theorem firePriv_offHub (s : State) (c k) : (s.firePriv c k).offHub = s.offHub := by
  unfold State.firePriv; split
  · rfl
  · simp only [relines_offHub]; split <;> simp

@[simp] theorem wrapped_offHub (s : State) (u k) : (s.wrapped u k).offHub = s.offHub := by
  unfold State.wrapped; simp only; split <;> simp

@[simp] theorem countOne_offHub (s : State) (u key n) : (s.countOne u key n).offHub = s.offHub := by
  unfold State.countOne; simp only; split <;> simp

@[simp] theorem countAll_offHub (s : State) (u ev n) : (s.countAll u ev n).1.offHub = s.offHub := by
  unfold State.countAll
  rw [foldl_keeps (fun r : State × Nat => r.1.offHub)]
  intro b a; simp

@[simp] theorem ringBare_offHub (s : State) (x) : (s.ringBare x).offHub = s.offHub := by
  unfold State.ringBare
  simp only [apply_ite State.offHub]
  simp [apply_ite State.offHub]

@[simp] theorem wrapRings_offHub (s : State) (fuel n) : (s.wrapRings fuel n).offHub = s.offHub := by
  induction fuel generalizing s n with
  | zero => rfl
  | succ f ih => unfold State.wrapRings; simp only; split <;> simp [ih]

@[simp] theorem count_offHub (s : State) (u ev n) : (s.count u ev n).offHub = s.offHub := by
  unfold State.count; simp

@[simp] theorem ring_offHub (s : State) (x) : (s.ring x).offHub = s.offHub := by unfold State.ring; simp
@[simp] theorem ringSrc_offHub (s : State) (x) : (s.ringSrc x).offHub = s.offHub := by unfold State.ringSrc; split <;> simp
@[simp] theorem dbRingWrite_offHub (s : State) (v) : (s.dbRingWrite v).offHub = s.offHub := by
  unfold State.dbRingWrite; split <;> simp
@[simp] theorem dbTick_offHub (s : State) (x) : (s.dbTick x).offHub = s.offHub := by unfold State.dbTick; split <;> simp
@[simp] theorem dbUnpend_offHub (s : State) (x) : (s.dbUnpend x).offHub = s.offHub := by unfold State.dbUnpend; simp
@[simp] theorem dbPpend_offHub (s : State) (c v) : (s.dbPpend c v).offHub = s.offHub := by
  unfold State.dbPpend
  rw [foldl_keeps State.offHub]
  intro b a; split <;> simp
@[simp] theorem dbDone_offHub (s : State) (c x) : (s.dbDone c x).offHub = s.offHub := by
  unfold State.dbDone; simp only; split
  · split <;> simp
  · split
    · split <;> simp
    · simp
@[simp] theorem timerFire_offHub (s : State) (c n) : (s.timerFire c n).offHub = s.offHub := by
  unfold State.timerFire; split <;> simp

/-- A field outside the hub's part is kept by whatever keeps the rest of the state. -/
theorem offHub_field {α : Type} (f : State → α) (hf : ∀ s, f s.offHub = f s) {s t : State} (h : t.offHub = s.offHub) : f t = f s := by
  rw [← hf t, h, hf]

/-! What counting leaves as it is, field by field -/

@[simp] theorem count_cores (s : State) (u ev n) : (s.count u ev n).cores = s.cores := offHub_field State.cores (fun _ => rfl) (count_offHub s u ev n)
@[simp] theorem count_core (s : State) (u ev n k) : (s.count u ev n).core k = s.core k := by unfold State.core; simp
@[simp] theorem count_blocked (s : State) (u ev n) : (s.count u ev n).blocked = s.blocked :=
  offHub_field State.blocked (fun _ => rfl) (count_offHub s u ev n)
@[simp] theorem count_mem (s : State) (u ev n) : (s.count u ev n).mem = s.mem := offHub_field State.mem (fun _ => rfl) (count_offHub s u ev n)
@[simp] theorem count_tags (s : State) (u ev n) : (s.count u ev n).tags = s.tags := offHub_field State.tags (fun _ => rfl) (count_offHub s u ev n)
@[simp] theorem count_poison (s : State) (u ev n) : (s.count u ev n).poison = s.poison :=
  offHub_field State.poison (fun _ => rfl) (count_offHub s u ev n)
@[simp] theorem count_mode (s : State) (u ev n) : (s.count u ev n).mode = s.mode := offHub_field State.mode (fun _ => rfl) (count_offHub s u ev n)
@[simp] theorem count_pending (s : State) (u ev n) : (s.count u ev n).pending = s.pending :=
  offHub_field State.pending (fun _ => rfl) (count_offHub s u ev n)
@[simp] theorem count_seq (s : State) (u ev n) : (s.count u ev n).seq = s.seq := offHub_field State.seq (fun _ => rfl) (count_offHub s u ev n)
@[simp] theorem count_time (s : State) (u ev n) : (s.count u ev n).time = s.time := offHub_field State.time (fun _ => rfl) (count_offHub s u ev n)

end Sys2Proof.Machine
end

