-- ==== Sys2Proof/Laws/SMap.lean ====
section
/-!
SUPPORT. The sparse map: a read after a write, and that every write keeps the canonical form.
-/
namespace Sys2Proof.Machine

variable {α : Type} {d : Nat → α}

@[simp] theorem SMap.get_nil (k : Nat) : SMap.get d [] k = d k := (rfl)

theorem SMap.get_erase_same (m : SMap α) (k : Nat) : SMap.get d (SMap.erase m k) k = d k := by
  induction m with
  | nil => rfl
  | cons e m ih => unfold SMap.erase; split <;> simp_all [SMap.get]

theorem SMap.get_erase_other (m : SMap α) {k j : Nat} (h : j ≠ k) : SMap.get d (SMap.erase m k) j = SMap.get d m j := by
  induction m with
  | nil => rfl
  | cons e m ih =>
    unfold SMap.erase
    split
    · rename_i hk; subst hk; simp [SMap.get, ih, Ne.symm h]
    · simp [SMap.get, ih]

theorem SMap.get_insert_same (m : SMap α) (k : Nat) (v : α) (h : ∀ e ∈ m, e.1 ≠ k) : SMap.get d (SMap.insert m k v) k = v := by
  induction m with
  | nil => simp [SMap.insert, SMap.get]
  | cons e m ih =>
    unfold SMap.insert
    split
    · simp [SMap.get]
    · simp only [SMap.get, h e (by simp), if_false]
      exact ih fun e he => h e (by simp [he])

theorem SMap.get_insert_other (m : SMap α) {k j : Nat} (v : α) (h : j ≠ k) : SMap.get d (SMap.insert m k v) j = SMap.get d m j := by
  induction m with
  | nil => simp [SMap.insert, SMap.get, Ne.symm h]
  | cons e m ih =>
    unfold SMap.insert
    split
    · simp [SMap.get, Ne.symm h]
    · simp [SMap.get, ih]

theorem SMap.not_mem_erase (m : SMap α) (k : Nat) : ∀ e ∈ SMap.erase m k, e.1 ≠ k := by
  induction m with
  | nil => simp [SMap.erase]
  | cons e m ih =>
    unfold SMap.erase
    split
    · exact ih
    · rename_i hk
      intro x hx
      rcases List.mem_cons.mp hx with rfl | hx
      · exact hk
      · exact ih x hx

/-- A read of the key just written gives the value written, in every map. -/
@[simp] theorem SMap.get_set_same [DecidableEq α] (m : SMap α) (k : Nat) (v : α) : SMap.get d (SMap.set d m k v) k = v := by
  unfold SMap.set
  split
  · rename_i h; rw [SMap.get_erase_same, h]
  · exact SMap.get_insert_same _ k v (SMap.not_mem_erase m k)

/-- A write leaves every other key alone. -/
theorem SMap.get_set_other [DecidableEq α] (m : SMap α) {k j : Nat} (v : α) (h : j ≠ k) :
    SMap.get d (SMap.set d m k v) j = SMap.get d m j := by
  unfold SMap.set
  split
  · exact SMap.get_erase_other m h
  · rw [SMap.get_insert_other _ v h, SMap.get_erase_other m h]

theorem SMap.get_set [DecidableEq α] (m : SMap α) (k j : Nat) (v : α) :
    SMap.get d (SMap.set d m k v) j = if j = k then v else SMap.get d m j := by
  split
  · rename_i h; rw [h, SMap.get_set_same]
  · rename_i h; exact SMap.get_set_other m v h

/-! The canonical form -/

/-- The canonical form as a statement about pairs: keys rise from one entry to the next, and no entry equals what an unlisted key
reads as. -/
theorem SMap.wf_iff [DecidableEq α] (m : SMap α) : SMap.wf d m = true ↔ m.Pairwise (·.1 < ·.1) ∧ ∀ e ∈ m, e.2 ≠ d e.1 := by
  induction m with
  | nil => simp [SMap.wf]
  | cons e m ih =>
    cases m with
    | nil => simp [SMap.wf]
    | cons f m =>
      rw [show SMap.wf d (e :: f :: m) = (decide (e.2 ≠ d e.1) && decide (e.1 < f.1) && SMap.wf d (f :: m)) from rfl]
      simp only [Bool.and_eq_true, decide_eq_true_eq, ih, List.pairwise_cons (a := e)]
      constructor
      · rintro ⟨⟨h1, h2⟩, hp, h3⟩
        refine ⟨⟨fun x hx => ?_, hp⟩, fun x hx => ?_⟩
        · rcases List.mem_cons.mp hx with rfl | hx
          · exact h2
          · exact Nat.lt_trans h2 ((List.pairwise_cons.mp hp).1 x hx)
        · rcases List.mem_cons.mp hx with rfl | hx
          · exact h1
          · exact h3 x hx
      · rintro ⟨⟨h1, h2⟩, h3⟩
        exact ⟨⟨h3 e (by simp), h1 f (by simp)⟩, h2, fun x hx => h3 x (List.mem_cons_of_mem _ hx)⟩

theorem SMap.mem_erase {m : SMap α} {k : Nat} {e : Nat × α} (h : e ∈ SMap.erase m k) : e ∈ m := by
  induction m with
  | nil => simp [SMap.erase] at h
  | cons f m ih =>
    unfold SMap.erase at h
    split at h
    · exact List.mem_cons_of_mem _ (ih h)
    · rcases List.mem_cons.mp h with rfl | h
      · simp
      · exact List.mem_cons_of_mem _ (ih h)

theorem SMap.mem_insert {m : SMap α} {k : Nat} {v : α} {e : Nat × α} (h : e ∈ SMap.insert m k v) : e = (k, v) ∨ e ∈ m := by
  induction m with
  | nil => simp [SMap.insert] at h; exact .inl h
  | cons f m ih =>
    unfold SMap.insert at h
    split at h
    · simpa using h
    · rcases List.mem_cons.mp h with rfl | h
      · simp
      · rcases ih h with h | h
        · exact .inl h
        · exact .inr (List.mem_cons_of_mem _ h)

theorem SMap.pairwise_erase {m : SMap α} (k : Nat) (h : m.Pairwise (·.1 < ·.1)) : (SMap.erase m k).Pairwise (·.1 < ·.1) := by
  induction m with
  | nil => simp [SMap.erase]
  | cons e m ih =>
    have ⟨h1, h2⟩ := List.pairwise_cons.mp h
    unfold SMap.erase
    split
    · exact ih h2
    · exact List.pairwise_cons.mpr ⟨fun x hx => h1 x (SMap.mem_erase hx), ih h2⟩

theorem SMap.pairwise_insert {m : SMap α} (k : Nat) (v : α) (h : m.Pairwise (·.1 < ·.1)) (hk : ∀ e ∈ m, e.1 ≠ k) :
    (SMap.insert m k v).Pairwise (·.1 < ·.1) := by
  induction m with
  | nil => simp [SMap.insert]
  | cons e m ih =>
    have ⟨h1, h2⟩ := List.pairwise_cons.mp h
    unfold SMap.insert
    split
    · rename_i hlt
      exact List.pairwise_cons.mpr ⟨fun x hx => by
        rcases List.mem_cons.mp hx with rfl | hx
        · exact hlt
        · exact Nat.lt_trans hlt (h1 x hx), h⟩
    · rename_i hlt
      refine List.pairwise_cons.mpr ⟨fun x hx => ?_, ih h2 fun e he => hk e (by simp [he])⟩
      rcases SMap.mem_insert hx with rfl | hx
      · exact Nat.lt_of_le_of_ne (Nat.le_of_not_lt hlt) (hk e (by simp))
      · exact h1 x hx

theorem SMap.wf_erase [DecidableEq α] {m : SMap α} (k : Nat) (h : SMap.wf d m = true) : SMap.wf d (SMap.erase m k) = true := by
  rw [SMap.wf_iff] at h ⊢
  exact ⟨SMap.pairwise_erase k h.1, fun e he => h.2 e (SMap.mem_erase he)⟩

/-- Every write keeps the canonical form. -/
theorem SMap.wf_set [DecidableEq α] {m : SMap α} (k : Nat) (v : α) (h : SMap.wf d m = true) : SMap.wf d (SMap.set d m k v) = true := by
  unfold SMap.set
  split
  · exact SMap.wf_erase k h
  · rename_i hv
    have he := SMap.wf_erase k h
    rw [SMap.wf_iff] at he ⊢
    refine ⟨SMap.pairwise_insert k v he.1 (SMap.not_mem_erase m k), fun e hm => ?_⟩
    rcases SMap.mem_insert hm with rfl | hm
    · exact hv
    · exact he.2 e hm

theorem SMap.wf_foldl [DecidableEq α] {β : Type} (f : SMap α → β → SMap α) (hf : ∀ m b, SMap.wf d m = true → SMap.wf d (f m b) = true)
    (l : List β) {m : SMap α} (h : SMap.wf d m = true) : SMap.wf d (l.foldl f m) = true := by
  induction l generalizing m with
  | nil => exact h
  | cons b l ih => exact ih (hf m b h)

/-- Keys moved keep the canonical form. -/
theorem SMap.wf_rekey [DecidableEq α] (f : Nat → Option Nat) (m : SMap α) : SMap.wf d (SMap.rekey d f m) = true := by
  refine SMap.wf_foldl _ (fun m b h => ?_) m (d := d) (m := []) rfl
  split
  · exact SMap.wf_set _ _ h
  · exact h

/-- Two canonical maps that read alike are the same data. -/
theorem SMap.ext [DecidableEq α] {m n : SMap α} (hm : SMap.wf d m = true) (hn : SMap.wf d n = true) (h : ∀ k, SMap.get d m k = SMap.get d n k) :
    m = n := by
  have below {m : SMap α} {k : Nat} (h : ∀ e ∈ m, k < e.1) : SMap.get d m k = d k := by
    induction m with
    | nil => rfl
    | cons e m ih =>
      have := h e (by simp)
      simp only [SMap.get, show e.1 ≠ k by omega, if_false]
      exact ih fun x hx => h x (by simp [hx])
  rw [SMap.wf_iff] at hm hn
  induction m generalizing n with
  | nil =>
    cases n with
    | nil => rfl
    | cons e n => exact absurd (by simpa [SMap.get] using (h e.1).symm) (hn.2 e (by simp))
  | cons e m ih =>
    obtain ⟨hp, hv⟩ := hm
    obtain ⟨h1, h2⟩ := List.pairwise_cons.mp hp
    cases n with
    | nil => exact absurd (by simpa [SMap.get] using h e.1) (hv e (by simp))
    | cons f n =>
      obtain ⟨gp, gv⟩ := hn
      obtain ⟨g1, g2⟩ := List.pairwise_cons.mp gp
      have hk : e.1 = f.1 := by
        rcases Nat.lt_trichotomy e.1 f.1 with hl | he | hl
        · have hb : SMap.get d (f :: n) e.1 = d e.1 := below fun x hx => by
            rcases List.mem_cons.mp hx with rfl | hx
            · exact hl
            · exact Nat.lt_trans hl (g1 x hx)
          exact absurd (by have := h e.1; rw [hb] at this; simpa [SMap.get] using this) (hv e (by simp))
        · exact he
        · have hb : SMap.get d (e :: m) f.1 = d f.1 := below fun x hx => by
            rcases List.mem_cons.mp hx with rfl | hx
            · exact hl
            · exact Nat.lt_trans hl (h1 x hx)
          exact absurd (by have := h f.1; rw [hb] at this; simpa [SMap.get] using this.symm) (gv f (by simp))
      have hve : e.2 = f.2 := by have := h e.1; simpa [SMap.get, hk] using this
      have hef : e = f := Prod.ext hk hve
      subst hef
      refine congrArg _ (ih ⟨h2, fun x hx => hv x (by simp [hx])⟩ ⟨g2, fun x hx => gv x (by simp [hx])⟩ fun k => ?_)
      by_cases hk' : e.1 = k
      · subst hk'; rw [below h1, below g1]
      · have := h k; simpa [SMap.get, hk'] using this

end Sys2Proof.Machine
end

