-- ==== Sys2Proof/Laws/State.lean ====
section
/-!
SUPPORT. State: one lemma for each field under each primitive update, and what the named reads give after the named writes.
-/
namespace Sys2Proof.Machine

/-! bumpFree -/

@[simp] theorem State.bumpFree_pending (s : State) : (s.bumpFree).pending = s.pending := (rfl)
@[simp] theorem State.bumpFree_inReset (s : State) : (s.bumpFree).inReset = s.inReset := (rfl)
@[simp] theorem State.bumpFree_mode (s : State) : (s.bumpFree).mode = s.mode := (rfl)
@[simp] theorem State.bumpFree_time (s : State) : (s.bumpFree).time = s.time := (rfl)
@[simp] theorem State.bumpFree_csr (s : State) : (s.bumpFree).csr = s.csr := (rfl)
@[simp] theorem State.bumpFree_cores (s : State) : (s.bumpFree).cores = s.cores := (rfl)
@[simp] theorem State.bumpFree_socket (s : State) : (s.bumpFree).socket = s.socket := (rfl)
@[simp] theorem State.bumpFree_mem (s : State) : (s.bumpFree).mem = s.mem := (rfl)
@[simp] theorem State.bumpFree_tags (s : State) : (s.bumpFree).tags = s.tags := (rfl)
@[simp] theorem State.bumpFree_poison (s : State) : (s.bumpFree).poison = s.poison := (rfl)
@[simp] theorem State.bumpFree_back (s : State) : (s.bumpFree).back = s.back := (rfl)
@[simp] theorem State.bumpFree_dirty (s : State) : (s.bumpFree).dirty = s.dirty := (rfl)
@[simp] theorem State.bumpFree_purseDir (s : State) : (s.bumpFree).purseDir = s.purseDir := (rfl)
@[simp] theorem State.bumpFree_purseWrs (s : State) : (s.bumpFree).purseWrs = s.purseWrs := (rfl)
@[simp] theorem State.bumpFree_purseDone (s : State) : (s.bumpFree).purseDone = s.purseDone := (rfl)
@[simp] theorem State.bumpFree_fences (s : State) : (s.bumpFree).fences = s.fences := (rfl)
@[simp] theorem State.bumpFree_nextId (s : State) : (s.bumpFree).nextId = s.nextId := (rfl)
@[simp] theorem State.bumpFree_sweep (s : State) : (s.bumpFree).sweep = s.sweep := (rfl)
@[simp] theorem State.bumpFree_dbCnt (s : State) : (s.bumpFree).dbCnt = s.dbCnt := (rfl)
@[simp] theorem State.bumpFree_dbDue (s : State) : (s.bumpFree).dbDue = s.dbDue := (rfl)
@[simp] theorem State.bumpFree_dbPriv (s : State) : (s.bumpFree).dbPriv = s.dbPriv := (rfl)
@[simp] theorem State.bumpFree_dbLine (s : State) : (s.bumpFree).dbLine = s.dbLine := (rfl)
@[simp] theorem State.bumpFree_dbMsgs (s : State) : (s.bumpFree).dbMsgs = s.dbMsgs := (rfl)
@[simp] theorem State.bumpFree_dbOld (s : State) : (s.bumpFree).dbOld = s.dbOld := (rfl)
@[simp] theorem State.bumpFree_seq (s : State) : (s.bumpFree).seq = s.seq := (rfl)
@[simp] theorem State.bumpFree_sram (s : State) : (s.bumpFree).sram = s.sram := (rfl)
@[simp] theorem State.bumpFree_rlines (s : State) : (s.bumpFree).rlines = s.rlines := (rfl)
@[simp] theorem State.bumpFree_peerTx (s : State) : (s.bumpFree).peerTx = s.peerTx := (rfl)
@[simp] theorem State.bumpFree_peerOut (s : State) : (s.bumpFree).peerOut = s.peerOut := (rfl)
@[simp] theorem State.bumpFree_blocked (s : State) : (s.bumpFree).blocked = s.blocked := (rfl)
@[simp] theorem State.bumpFree_postings (s : State) : (s.bumpFree).postings = s.postings := (rfl)
@[simp] theorem State.bumpFree_cellLocks (s : State) : (s.bumpFree).cellLocks = s.cellLocks := (rfl)
@[simp] theorem State.bumpFree_lockWaits (s : State) : (s.bumpFree).lockWaits = s.lockWaits := (rfl)
@[simp] theorem State.bumpFree_lockRels (s : State) : (s.bumpFree).lockRels = s.lockRels := (rfl)
@[simp] theorem State.bumpFree_staging (s : State) : (s.bumpFree).staging = s.staging := (rfl)
@[simp] theorem State.bumpFree_jPrev (s : State) : (s.bumpFree).jPrev = s.jPrev := (rfl)
@[simp] theorem State.bumpFree_jMirPend (s : State) : (s.bumpFree).jMirPend = s.jMirPend := (rfl)
@[simp] theorem State.bumpFree_jSeen (s : State) : (s.bumpFree).jSeen = s.jSeen := (rfl)
@[simp] theorem State.bumpFree_flushes (s : State) : (s.bumpFree).flushes = s.flushes := (rfl)
@[simp] theorem State.bumpFree_jDirty (s : State) : (s.bumpFree).jDirty = s.jDirty := (rfl)
@[simp] theorem State.bumpFree_parts (s : State) : (s.bumpFree).parts = s.parts := (rfl)
@[simp] theorem State.bumpFree_cmtNotes (s : State) : (s.bumpFree).cmtNotes = s.cmtNotes := (rfl)
@[simp] theorem State.bumpFree_jWait (s : State) : (s.bumpFree).jWait = s.jWait := (rfl)
@[simp] theorem State.bumpFree_sealed (s : State) : (s.bumpFree).sealed = s.sealed := (rfl)
@[simp] theorem State.bumpFree_xcache (s : State) : (s.bumpFree).xcache = s.xcache := (rfl)
@[simp] theorem State.bumpFree_drained (s : State) : (s.bumpFree).drained = s.drained := (rfl)
@[simp] theorem State.bumpFree_jParts (s : State) : (s.bumpFree).jParts = s.jParts := (rfl)
@[simp] theorem State.bumpFree_l2dir (s : State) : (s.bumpFree).l2dir = s.l2dir := (rfl)
@[simp] theorem State.bumpFree_l2s (s : State) : (s.bumpFree).l2s = s.l2s := (rfl)
@[simp] theorem State.bumpFree_dramBad (s : State) : (s.bumpFree).dramBad = s.dramBad := (rfl)
@[simp] theorem State.bumpFree_rdir (s : State) : (s.bumpFree).rdir = s.rdir := (rfl)
@[simp] theorem State.bumpFree_snoops (s : State) : (s.bumpFree).snoops = s.snoops := (rfl)
@[simp] theorem State.bumpFree_homeReqs (s : State) : (s.bumpFree).homeReqs = s.homeReqs := (rfl)
@[simp] theorem State.bumpFree_devMem (s : State) : (s.bumpFree).devMem = s.devMem := (rfl)
@[simp] theorem State.bumpFree_devPoison (s : State) : (s.bumpFree).devPoison = s.devPoison := (rfl)
@[simp] theorem State.bumpFree_held (s : State) : (s.bumpFree).held = s.held := (rfl)
@[simp] theorem State.bumpFree_layouts (s : State) : (s.bumpFree).layouts = s.layouts := (rfl)
@[simp] theorem State.bumpFree_links (s : State) : (s.bumpFree).links = s.links := (rfl)
@[simp] theorem State.bumpFree_atsInvs (s : State) : (s.bumpFree).atsInvs = s.atsInvs := (rfl)
@[simp] theorem State.bumpFree_invHeld (s : State) : (s.bumpFree).invHeld = s.invHeld := (rfl)
@[simp] theorem State.bumpFree_answer (s : State) : (s.bumpFree).answer = s.answer := (rfl)
@[simp] theorem State.bumpFree_guardOld (s : State) : (s.bumpFree).guardOld = s.guardOld := (rfl)
@[simp] theorem State.bumpFree_fncs (s : State) : (s.bumpFree).fncs = s.fncs := (rfl)
@[simp] theorem State.bumpFree_ringWaits (s : State) : (s.bumpFree).ringWaits = s.ringWaits := (rfl)
@[simp] theorem State.bumpFree_laneWrites (s : State) : (s.bumpFree).laneWrites = s.laneWrites := (rfl)
@[simp] theorem State.bumpFree_dmaOut (s : State) : (s.bumpFree).dmaOut = s.dmaOut := (rfl)
@[simp] theorem State.bumpFree_pfwParts (s : State) : (s.bumpFree).pfwParts = s.pfwParts := (rfl)
@[simp] theorem State.bumpFree_cxlLost (s : State) : (s.bumpFree).cxlLost = s.cxlLost := (rfl)
@[simp] theorem State.bumpFree_prq (s : State) : (s.bumpFree).prq = s.prq := (rfl)
@[simp] theorem State.bumpFree_follow (s : State) : (s.bumpFree).follow = s.follow := (rfl)
@[simp] theorem State.bumpFree_followRate (s : State) : (s.bumpFree).followRate = s.followRate := (rfl)
@[simp] theorem State.bumpFree_pins (s : State) : (s.bumpFree).pins = s.pins := (rfl)
@[simp] theorem State.bumpFree_flash (s : State) : (s.bumpFree).flash = s.flash := (rfl)
@[simp] theorem State.bumpFree_flashSize (s : State) : (s.bumpFree).flashSize = s.flashSize := (rfl)
@[simp] theorem State.bumpFree_flashOp (s : State) : (s.bumpFree).flashOp = s.flashOp := (rfl)
@[simp] theorem State.bumpFree_boot (s : State) : (s.bumpFree).boot = s.boot := (rfl)
@[simp] theorem State.bumpFree_unitOps (s : State) : (s.bumpFree).unitOps = s.unitOps := (rfl)
@[simp] theorem State.bumpFree_byCluster (s : State) : (s.bumpFree).byCluster = s.byCluster := (rfl)
@[simp] theorem State.bumpFree_clkStopped (s : State) : (s.bumpFree).clkStopped = s.clkStopped := (rfl)
@[simp] theorem State.bumpFree_brum (s : State) : (s.bumpFree).brum = s.brum := (rfl)
@[simp] theorem State.bumpFree_injDue (s : State) : (s.bumpFree).injDue = s.injDue := (rfl)
@[simp] theorem State.bumpFree_injNext (s : State) : (s.bumpFree).injNext = s.injNext := (rfl)
@[simp] theorem State.bumpFree_snapAt (s : State) : (s.bumpFree).snapAt = s.snapAt := (rfl)
@[simp] theorem State.bumpFree_dbgFailAt (s : State) : (s.bumpFree).dbgFailAt = s.dbgFailAt := (rfl)
@[simp] theorem State.bumpFree_pwrLow (s : State) : (s.bumpFree).pwrLow = s.pwrLow := (rfl)
@[simp] theorem State.bumpFree_pwrHeld (s : State) : (s.bumpFree).pwrHeld = s.pwrHeld := (rfl)
@[simp] theorem State.bumpFree_hot (s : State) : (s.bumpFree).hot = s.hot := (rfl)
@[simp] theorem State.bumpFree_adjAcc (s : State) : (s.bumpFree).adjAcc = s.adjAcc := (rfl)
@[simp] theorem State.bumpFree_adjWait (s : State) : (s.bumpFree).adjWait = s.adjWait := (rfl)
@[simp] theorem State.bumpFree_tap (s : State) : (s.bumpFree).tap = s.tap := (rfl)

/-! setCore -/

@[simp] theorem State.setCore_pending (s : State) (k c) : (s.setCore k c).pending = s.pending := (rfl)
@[simp] theorem State.setCore_inReset (s : State) (k c) : (s.setCore k c).inReset = s.inReset := (rfl)
@[simp] theorem State.setCore_mode (s : State) (k c) : (s.setCore k c).mode = s.mode := (rfl)
@[simp] theorem State.setCore_time (s : State) (k c) : (s.setCore k c).time = s.time := (rfl)
@[simp] theorem State.setCore_free (s : State) (k c) : (s.setCore k c).free = s.free := (rfl)
@[simp] theorem State.setCore_csr (s : State) (k c) : (s.setCore k c).csr = s.csr := (rfl)
@[simp] theorem State.setCore_socket (s : State) (k c) : (s.setCore k c).socket = s.socket := (rfl)
@[simp] theorem State.setCore_mem (s : State) (k c) : (s.setCore k c).mem = s.mem := (rfl)
@[simp] theorem State.setCore_tags (s : State) (k c) : (s.setCore k c).tags = s.tags := (rfl)
@[simp] theorem State.setCore_poison (s : State) (k c) : (s.setCore k c).poison = s.poison := (rfl)
@[simp] theorem State.setCore_back (s : State) (k c) : (s.setCore k c).back = s.back := (rfl)
@[simp] theorem State.setCore_dirty (s : State) (k c) : (s.setCore k c).dirty = s.dirty := (rfl)
@[simp] theorem State.setCore_purseDir (s : State) (k c) : (s.setCore k c).purseDir = s.purseDir := (rfl)
@[simp] theorem State.setCore_purseWrs (s : State) (k c) : (s.setCore k c).purseWrs = s.purseWrs := (rfl)
@[simp] theorem State.setCore_purseDone (s : State) (k c) : (s.setCore k c).purseDone = s.purseDone := (rfl)
@[simp] theorem State.setCore_fences (s : State) (k c) : (s.setCore k c).fences = s.fences := (rfl)
@[simp] theorem State.setCore_nextId (s : State) (k c) : (s.setCore k c).nextId = s.nextId := (rfl)
@[simp] theorem State.setCore_sweep (s : State) (k c) : (s.setCore k c).sweep = s.sweep := (rfl)
@[simp] theorem State.setCore_dbCnt (s : State) (k c) : (s.setCore k c).dbCnt = s.dbCnt := (rfl)
@[simp] theorem State.setCore_dbDue (s : State) (k c) : (s.setCore k c).dbDue = s.dbDue := (rfl)
@[simp] theorem State.setCore_dbPriv (s : State) (k c) : (s.setCore k c).dbPriv = s.dbPriv := (rfl)
@[simp] theorem State.setCore_dbLine (s : State) (k c) : (s.setCore k c).dbLine = s.dbLine := (rfl)
@[simp] theorem State.setCore_dbMsgs (s : State) (k c) : (s.setCore k c).dbMsgs = s.dbMsgs := (rfl)
@[simp] theorem State.setCore_dbOld (s : State) (k c) : (s.setCore k c).dbOld = s.dbOld := (rfl)
@[simp] theorem State.setCore_seq (s : State) (k c) : (s.setCore k c).seq = s.seq := (rfl)
@[simp] theorem State.setCore_sram (s : State) (k c) : (s.setCore k c).sram = s.sram := (rfl)
@[simp] theorem State.setCore_rlines (s : State) (k c) : (s.setCore k c).rlines = s.rlines := (rfl)
@[simp] theorem State.setCore_peerTx (s : State) (k c) : (s.setCore k c).peerTx = s.peerTx := (rfl)
@[simp] theorem State.setCore_peerOut (s : State) (k c) : (s.setCore k c).peerOut = s.peerOut := (rfl)
@[simp] theorem State.setCore_blocked (s : State) (k c) : (s.setCore k c).blocked = s.blocked := (rfl)
@[simp] theorem State.setCore_postings (s : State) (k c) : (s.setCore k c).postings = s.postings := (rfl)
@[simp] theorem State.setCore_cellLocks (s : State) (k c) : (s.setCore k c).cellLocks = s.cellLocks := (rfl)
@[simp] theorem State.setCore_lockWaits (s : State) (k c) : (s.setCore k c).lockWaits = s.lockWaits := (rfl)
@[simp] theorem State.setCore_lockRels (s : State) (k c) : (s.setCore k c).lockRels = s.lockRels := (rfl)
@[simp] theorem State.setCore_staging (s : State) (k c) : (s.setCore k c).staging = s.staging := (rfl)
@[simp] theorem State.setCore_jPrev (s : State) (k c) : (s.setCore k c).jPrev = s.jPrev := (rfl)
@[simp] theorem State.setCore_jMirPend (s : State) (k c) : (s.setCore k c).jMirPend = s.jMirPend := (rfl)
@[simp] theorem State.setCore_jSeen (s : State) (k c) : (s.setCore k c).jSeen = s.jSeen := (rfl)
@[simp] theorem State.setCore_flushes (s : State) (k c) : (s.setCore k c).flushes = s.flushes := (rfl)
@[simp] theorem State.setCore_jDirty (s : State) (k c) : (s.setCore k c).jDirty = s.jDirty := (rfl)
@[simp] theorem State.setCore_parts (s : State) (k c) : (s.setCore k c).parts = s.parts := (rfl)
@[simp] theorem State.setCore_cmtNotes (s : State) (k c) : (s.setCore k c).cmtNotes = s.cmtNotes := (rfl)
@[simp] theorem State.setCore_jWait (s : State) (k c) : (s.setCore k c).jWait = s.jWait := (rfl)
@[simp] theorem State.setCore_sealed (s : State) (k c) : (s.setCore k c).sealed = s.sealed := (rfl)
@[simp] theorem State.setCore_xcache (s : State) (k c) : (s.setCore k c).xcache = s.xcache := (rfl)
@[simp] theorem State.setCore_drained (s : State) (k c) : (s.setCore k c).drained = s.drained := (rfl)
@[simp] theorem State.setCore_jParts (s : State) (k c) : (s.setCore k c).jParts = s.jParts := (rfl)
@[simp] theorem State.setCore_l2dir (s : State) (k c) : (s.setCore k c).l2dir = s.l2dir := (rfl)
@[simp] theorem State.setCore_l2s (s : State) (k c) : (s.setCore k c).l2s = s.l2s := (rfl)
@[simp] theorem State.setCore_dramBad (s : State) (k c) : (s.setCore k c).dramBad = s.dramBad := (rfl)
@[simp] theorem State.setCore_rdir (s : State) (k c) : (s.setCore k c).rdir = s.rdir := (rfl)
@[simp] theorem State.setCore_snoops (s : State) (k c) : (s.setCore k c).snoops = s.snoops := (rfl)
@[simp] theorem State.setCore_homeReqs (s : State) (k c) : (s.setCore k c).homeReqs = s.homeReqs := (rfl)
@[simp] theorem State.setCore_devMem (s : State) (k c) : (s.setCore k c).devMem = s.devMem := (rfl)
@[simp] theorem State.setCore_devPoison (s : State) (k c) : (s.setCore k c).devPoison = s.devPoison := (rfl)
@[simp] theorem State.setCore_held (s : State) (k c) : (s.setCore k c).held = s.held := (rfl)
@[simp] theorem State.setCore_layouts (s : State) (k c) : (s.setCore k c).layouts = s.layouts := (rfl)
@[simp] theorem State.setCore_links (s : State) (k c) : (s.setCore k c).links = s.links := (rfl)
@[simp] theorem State.setCore_atsInvs (s : State) (k c) : (s.setCore k c).atsInvs = s.atsInvs := (rfl)
@[simp] theorem State.setCore_invHeld (s : State) (k c) : (s.setCore k c).invHeld = s.invHeld := (rfl)
@[simp] theorem State.setCore_answer (s : State) (k c) : (s.setCore k c).answer = s.answer := (rfl)
@[simp] theorem State.setCore_guardOld (s : State) (k c) : (s.setCore k c).guardOld = s.guardOld := (rfl)
@[simp] theorem State.setCore_fncs (s : State) (k c) : (s.setCore k c).fncs = s.fncs := (rfl)
@[simp] theorem State.setCore_ringWaits (s : State) (k c) : (s.setCore k c).ringWaits = s.ringWaits := (rfl)
@[simp] theorem State.setCore_laneWrites (s : State) (k c) : (s.setCore k c).laneWrites = s.laneWrites := (rfl)
@[simp] theorem State.setCore_dmaOut (s : State) (k c) : (s.setCore k c).dmaOut = s.dmaOut := (rfl)
@[simp] theorem State.setCore_pfwParts (s : State) (k c) : (s.setCore k c).pfwParts = s.pfwParts := (rfl)
@[simp] theorem State.setCore_cxlLost (s : State) (k c) : (s.setCore k c).cxlLost = s.cxlLost := (rfl)
@[simp] theorem State.setCore_prq (s : State) (k c) : (s.setCore k c).prq = s.prq := (rfl)
@[simp] theorem State.setCore_follow (s : State) (k c) : (s.setCore k c).follow = s.follow := (rfl)
@[simp] theorem State.setCore_followRate (s : State) (k c) : (s.setCore k c).followRate = s.followRate := (rfl)
@[simp] theorem State.setCore_pins (s : State) (k c) : (s.setCore k c).pins = s.pins := (rfl)
@[simp] theorem State.setCore_flash (s : State) (k c) : (s.setCore k c).flash = s.flash := (rfl)
@[simp] theorem State.setCore_flashSize (s : State) (k c) : (s.setCore k c).flashSize = s.flashSize := (rfl)
@[simp] theorem State.setCore_flashOp (s : State) (k c) : (s.setCore k c).flashOp = s.flashOp := (rfl)
@[simp] theorem State.setCore_boot (s : State) (k c) : (s.setCore k c).boot = s.boot := (rfl)
@[simp] theorem State.setCore_unitOps (s : State) (k c) : (s.setCore k c).unitOps = s.unitOps := (rfl)
@[simp] theorem State.setCore_byCluster (s : State) (k c) : (s.setCore k c).byCluster = s.byCluster := (rfl)
@[simp] theorem State.setCore_clkStopped (s : State) (k c) : (s.setCore k c).clkStopped = s.clkStopped := (rfl)
@[simp] theorem State.setCore_brum (s : State) (k c) : (s.setCore k c).brum = s.brum := (rfl)
@[simp] theorem State.setCore_injDue (s : State) (k c) : (s.setCore k c).injDue = s.injDue := (rfl)
@[simp] theorem State.setCore_injNext (s : State) (k c) : (s.setCore k c).injNext = s.injNext := (rfl)
@[simp] theorem State.setCore_snapAt (s : State) (k c) : (s.setCore k c).snapAt = s.snapAt := (rfl)
@[simp] theorem State.setCore_dbgFailAt (s : State) (k c) : (s.setCore k c).dbgFailAt = s.dbgFailAt := (rfl)
@[simp] theorem State.setCore_pwrLow (s : State) (k c) : (s.setCore k c).pwrLow = s.pwrLow := (rfl)
@[simp] theorem State.setCore_pwrHeld (s : State) (k c) : (s.setCore k c).pwrHeld = s.pwrHeld := (rfl)
@[simp] theorem State.setCore_hot (s : State) (k c) : (s.setCore k c).hot = s.hot := (rfl)
@[simp] theorem State.setCore_adjAcc (s : State) (k c) : (s.setCore k c).adjAcc = s.adjAcc := (rfl)
@[simp] theorem State.setCore_adjWait (s : State) (k c) : (s.setCore k c).adjWait = s.adjWait := (rfl)
@[simp] theorem State.setCore_tap (s : State) (k c) : (s.setCore k c).tap = s.tap := (rfl)

/-! modCore -/

@[simp] theorem State.modCore_pending (s : State) (k f) : (s.modCore k f).pending = s.pending := (rfl)
@[simp] theorem State.modCore_inReset (s : State) (k f) : (s.modCore k f).inReset = s.inReset := (rfl)
@[simp] theorem State.modCore_mode (s : State) (k f) : (s.modCore k f).mode = s.mode := (rfl)
@[simp] theorem State.modCore_time (s : State) (k f) : (s.modCore k f).time = s.time := (rfl)
@[simp] theorem State.modCore_free (s : State) (k f) : (s.modCore k f).free = s.free := (rfl)
@[simp] theorem State.modCore_csr (s : State) (k f) : (s.modCore k f).csr = s.csr := (rfl)
@[simp] theorem State.modCore_socket (s : State) (k f) : (s.modCore k f).socket = s.socket := (rfl)
@[simp] theorem State.modCore_mem (s : State) (k f) : (s.modCore k f).mem = s.mem := (rfl)
@[simp] theorem State.modCore_tags (s : State) (k f) : (s.modCore k f).tags = s.tags := (rfl)
@[simp] theorem State.modCore_poison (s : State) (k f) : (s.modCore k f).poison = s.poison := (rfl)
@[simp] theorem State.modCore_back (s : State) (k f) : (s.modCore k f).back = s.back := (rfl)
@[simp] theorem State.modCore_dirty (s : State) (k f) : (s.modCore k f).dirty = s.dirty := (rfl)
@[simp] theorem State.modCore_purseDir (s : State) (k f) : (s.modCore k f).purseDir = s.purseDir := (rfl)
@[simp] theorem State.modCore_purseWrs (s : State) (k f) : (s.modCore k f).purseWrs = s.purseWrs := (rfl)
@[simp] theorem State.modCore_purseDone (s : State) (k f) : (s.modCore k f).purseDone = s.purseDone := (rfl)
@[simp] theorem State.modCore_fences (s : State) (k f) : (s.modCore k f).fences = s.fences := (rfl)
@[simp] theorem State.modCore_nextId (s : State) (k f) : (s.modCore k f).nextId = s.nextId := (rfl)
@[simp] theorem State.modCore_sweep (s : State) (k f) : (s.modCore k f).sweep = s.sweep := (rfl)
@[simp] theorem State.modCore_dbCnt (s : State) (k f) : (s.modCore k f).dbCnt = s.dbCnt := (rfl)
@[simp] theorem State.modCore_dbDue (s : State) (k f) : (s.modCore k f).dbDue = s.dbDue := (rfl)
@[simp] theorem State.modCore_dbPriv (s : State) (k f) : (s.modCore k f).dbPriv = s.dbPriv := (rfl)
@[simp] theorem State.modCore_dbLine (s : State) (k f) : (s.modCore k f).dbLine = s.dbLine := (rfl)
@[simp] theorem State.modCore_dbMsgs (s : State) (k f) : (s.modCore k f).dbMsgs = s.dbMsgs := (rfl)
@[simp] theorem State.modCore_dbOld (s : State) (k f) : (s.modCore k f).dbOld = s.dbOld := (rfl)
@[simp] theorem State.modCore_seq (s : State) (k f) : (s.modCore k f).seq = s.seq := (rfl)
@[simp] theorem State.modCore_sram (s : State) (k f) : (s.modCore k f).sram = s.sram := (rfl)
@[simp] theorem State.modCore_rlines (s : State) (k f) : (s.modCore k f).rlines = s.rlines := (rfl)
@[simp] theorem State.modCore_peerTx (s : State) (k f) : (s.modCore k f).peerTx = s.peerTx := (rfl)
@[simp] theorem State.modCore_peerOut (s : State) (k f) : (s.modCore k f).peerOut = s.peerOut := (rfl)
@[simp] theorem State.modCore_blocked (s : State) (k f) : (s.modCore k f).blocked = s.blocked := (rfl)
@[simp] theorem State.modCore_postings (s : State) (k f) : (s.modCore k f).postings = s.postings := (rfl)
@[simp] theorem State.modCore_cellLocks (s : State) (k f) : (s.modCore k f).cellLocks = s.cellLocks := (rfl)
@[simp] theorem State.modCore_lockWaits (s : State) (k f) : (s.modCore k f).lockWaits = s.lockWaits := (rfl)
@[simp] theorem State.modCore_lockRels (s : State) (k f) : (s.modCore k f).lockRels = s.lockRels := (rfl)
@[simp] theorem State.modCore_staging (s : State) (k f) : (s.modCore k f).staging = s.staging := (rfl)
@[simp] theorem State.modCore_jPrev (s : State) (k f) : (s.modCore k f).jPrev = s.jPrev := (rfl)
@[simp] theorem State.modCore_jMirPend (s : State) (k f) : (s.modCore k f).jMirPend = s.jMirPend := (rfl)
@[simp] theorem State.modCore_jSeen (s : State) (k f) : (s.modCore k f).jSeen = s.jSeen := (rfl)
@[simp] theorem State.modCore_flushes (s : State) (k f) : (s.modCore k f).flushes = s.flushes := (rfl)
@[simp] theorem State.modCore_jDirty (s : State) (k f) : (s.modCore k f).jDirty = s.jDirty := (rfl)
@[simp] theorem State.modCore_parts (s : State) (k f) : (s.modCore k f).parts = s.parts := (rfl)
@[simp] theorem State.modCore_cmtNotes (s : State) (k f) : (s.modCore k f).cmtNotes = s.cmtNotes := (rfl)
@[simp] theorem State.modCore_jWait (s : State) (k f) : (s.modCore k f).jWait = s.jWait := (rfl)
@[simp] theorem State.modCore_sealed (s : State) (k f) : (s.modCore k f).sealed = s.sealed := (rfl)
@[simp] theorem State.modCore_xcache (s : State) (k f) : (s.modCore k f).xcache = s.xcache := (rfl)
@[simp] theorem State.modCore_drained (s : State) (k f) : (s.modCore k f).drained = s.drained := (rfl)
@[simp] theorem State.modCore_jParts (s : State) (k f) : (s.modCore k f).jParts = s.jParts := (rfl)
@[simp] theorem State.modCore_l2dir (s : State) (k f) : (s.modCore k f).l2dir = s.l2dir := (rfl)
@[simp] theorem State.modCore_l2s (s : State) (k f) : (s.modCore k f).l2s = s.l2s := (rfl)
@[simp] theorem State.modCore_dramBad (s : State) (k f) : (s.modCore k f).dramBad = s.dramBad := (rfl)
@[simp] theorem State.modCore_rdir (s : State) (k f) : (s.modCore k f).rdir = s.rdir := (rfl)
@[simp] theorem State.modCore_snoops (s : State) (k f) : (s.modCore k f).snoops = s.snoops := (rfl)
@[simp] theorem State.modCore_homeReqs (s : State) (k f) : (s.modCore k f).homeReqs = s.homeReqs := (rfl)
@[simp] theorem State.modCore_devMem (s : State) (k f) : (s.modCore k f).devMem = s.devMem := (rfl)
@[simp] theorem State.modCore_devPoison (s : State) (k f) : (s.modCore k f).devPoison = s.devPoison := (rfl)
@[simp] theorem State.modCore_held (s : State) (k f) : (s.modCore k f).held = s.held := (rfl)
@[simp] theorem State.modCore_layouts (s : State) (k f) : (s.modCore k f).layouts = s.layouts := (rfl)
@[simp] theorem State.modCore_links (s : State) (k f) : (s.modCore k f).links = s.links := (rfl)
@[simp] theorem State.modCore_atsInvs (s : State) (k f) : (s.modCore k f).atsInvs = s.atsInvs := (rfl)
@[simp] theorem State.modCore_invHeld (s : State) (k f) : (s.modCore k f).invHeld = s.invHeld := (rfl)
@[simp] theorem State.modCore_answer (s : State) (k f) : (s.modCore k f).answer = s.answer := (rfl)
@[simp] theorem State.modCore_guardOld (s : State) (k f) : (s.modCore k f).guardOld = s.guardOld := (rfl)
@[simp] theorem State.modCore_fncs (s : State) (k f) : (s.modCore k f).fncs = s.fncs := (rfl)
@[simp] theorem State.modCore_ringWaits (s : State) (k f) : (s.modCore k f).ringWaits = s.ringWaits := (rfl)
@[simp] theorem State.modCore_laneWrites (s : State) (k f) : (s.modCore k f).laneWrites = s.laneWrites := (rfl)
@[simp] theorem State.modCore_dmaOut (s : State) (k f) : (s.modCore k f).dmaOut = s.dmaOut := (rfl)
@[simp] theorem State.modCore_pfwParts (s : State) (k f) : (s.modCore k f).pfwParts = s.pfwParts := (rfl)
@[simp] theorem State.modCore_cxlLost (s : State) (k f) : (s.modCore k f).cxlLost = s.cxlLost := (rfl)
@[simp] theorem State.modCore_prq (s : State) (k f) : (s.modCore k f).prq = s.prq := (rfl)
@[simp] theorem State.modCore_follow (s : State) (k f) : (s.modCore k f).follow = s.follow := (rfl)
@[simp] theorem State.modCore_followRate (s : State) (k f) : (s.modCore k f).followRate = s.followRate := (rfl)
@[simp] theorem State.modCore_pins (s : State) (k f) : (s.modCore k f).pins = s.pins := (rfl)
@[simp] theorem State.modCore_flash (s : State) (k f) : (s.modCore k f).flash = s.flash := (rfl)
@[simp] theorem State.modCore_flashSize (s : State) (k f) : (s.modCore k f).flashSize = s.flashSize := (rfl)
@[simp] theorem State.modCore_flashOp (s : State) (k f) : (s.modCore k f).flashOp = s.flashOp := (rfl)
@[simp] theorem State.modCore_boot (s : State) (k f) : (s.modCore k f).boot = s.boot := (rfl)
@[simp] theorem State.modCore_unitOps (s : State) (k f) : (s.modCore k f).unitOps = s.unitOps := (rfl)
@[simp] theorem State.modCore_byCluster (s : State) (k f) : (s.modCore k f).byCluster = s.byCluster := (rfl)
@[simp] theorem State.modCore_clkStopped (s : State) (k f) : (s.modCore k f).clkStopped = s.clkStopped := (rfl)
@[simp] theorem State.modCore_brum (s : State) (k f) : (s.modCore k f).brum = s.brum := (rfl)
@[simp] theorem State.modCore_injDue (s : State) (k f) : (s.modCore k f).injDue = s.injDue := (rfl)
@[simp] theorem State.modCore_injNext (s : State) (k f) : (s.modCore k f).injNext = s.injNext := (rfl)
@[simp] theorem State.modCore_snapAt (s : State) (k f) : (s.modCore k f).snapAt = s.snapAt := (rfl)
@[simp] theorem State.modCore_dbgFailAt (s : State) (k f) : (s.modCore k f).dbgFailAt = s.dbgFailAt := (rfl)
@[simp] theorem State.modCore_pwrLow (s : State) (k f) : (s.modCore k f).pwrLow = s.pwrLow := (rfl)
@[simp] theorem State.modCore_pwrHeld (s : State) (k f) : (s.modCore k f).pwrHeld = s.pwrHeld := (rfl)
@[simp] theorem State.modCore_hot (s : State) (k f) : (s.modCore k f).hot = s.hot := (rfl)
@[simp] theorem State.modCore_adjAcc (s : State) (k f) : (s.modCore k f).adjAcc = s.adjAcc := (rfl)
@[simp] theorem State.modCore_adjWait (s : State) (k f) : (s.modCore k f).adjWait = s.adjWait := (rfl)
@[simp] theorem State.modCore_tap (s : State) (k f) : (s.modCore k f).tap = s.tap := (rfl)

/-! setReg -/

@[simp] theorem State.setReg_pending (s : State) (k v) : (s.setReg k v).pending = s.pending := (rfl)
@[simp] theorem State.setReg_inReset (s : State) (k v) : (s.setReg k v).inReset = s.inReset := (rfl)
@[simp] theorem State.setReg_mode (s : State) (k v) : (s.setReg k v).mode = s.mode := (rfl)
@[simp] theorem State.setReg_time (s : State) (k v) : (s.setReg k v).time = s.time := (rfl)
@[simp] theorem State.setReg_free (s : State) (k v) : (s.setReg k v).free = s.free := (rfl)
@[simp] theorem State.setReg_cores (s : State) (k v) : (s.setReg k v).cores = s.cores := (rfl)
@[simp] theorem State.setReg_socket (s : State) (k v) : (s.setReg k v).socket = s.socket := (rfl)
@[simp] theorem State.setReg_mem (s : State) (k v) : (s.setReg k v).mem = s.mem := (rfl)
@[simp] theorem State.setReg_tags (s : State) (k v) : (s.setReg k v).tags = s.tags := (rfl)
@[simp] theorem State.setReg_poison (s : State) (k v) : (s.setReg k v).poison = s.poison := (rfl)
@[simp] theorem State.setReg_back (s : State) (k v) : (s.setReg k v).back = s.back := (rfl)
@[simp] theorem State.setReg_dirty (s : State) (k v) : (s.setReg k v).dirty = s.dirty := (rfl)
@[simp] theorem State.setReg_purseDir (s : State) (k v) : (s.setReg k v).purseDir = s.purseDir := (rfl)
@[simp] theorem State.setReg_purseWrs (s : State) (k v) : (s.setReg k v).purseWrs = s.purseWrs := (rfl)
@[simp] theorem State.setReg_purseDone (s : State) (k v) : (s.setReg k v).purseDone = s.purseDone := (rfl)
@[simp] theorem State.setReg_fences (s : State) (k v) : (s.setReg k v).fences = s.fences := (rfl)
@[simp] theorem State.setReg_nextId (s : State) (k v) : (s.setReg k v).nextId = s.nextId := (rfl)
@[simp] theorem State.setReg_sweep (s : State) (k v) : (s.setReg k v).sweep = s.sweep := (rfl)
@[simp] theorem State.setReg_dbCnt (s : State) (k v) : (s.setReg k v).dbCnt = s.dbCnt := (rfl)
@[simp] theorem State.setReg_dbDue (s : State) (k v) : (s.setReg k v).dbDue = s.dbDue := (rfl)
@[simp] theorem State.setReg_dbPriv (s : State) (k v) : (s.setReg k v).dbPriv = s.dbPriv := (rfl)
@[simp] theorem State.setReg_dbLine (s : State) (k v) : (s.setReg k v).dbLine = s.dbLine := (rfl)
@[simp] theorem State.setReg_dbMsgs (s : State) (k v) : (s.setReg k v).dbMsgs = s.dbMsgs := (rfl)
@[simp] theorem State.setReg_dbOld (s : State) (k v) : (s.setReg k v).dbOld = s.dbOld := (rfl)
@[simp] theorem State.setReg_seq (s : State) (k v) : (s.setReg k v).seq = s.seq := (rfl)
@[simp] theorem State.setReg_sram (s : State) (k v) : (s.setReg k v).sram = s.sram := (rfl)
@[simp] theorem State.setReg_rlines (s : State) (k v) : (s.setReg k v).rlines = s.rlines := (rfl)
@[simp] theorem State.setReg_peerTx (s : State) (k v) : (s.setReg k v).peerTx = s.peerTx := (rfl)
@[simp] theorem State.setReg_peerOut (s : State) (k v) : (s.setReg k v).peerOut = s.peerOut := (rfl)
@[simp] theorem State.setReg_blocked (s : State) (k v) : (s.setReg k v).blocked = s.blocked := (rfl)
@[simp] theorem State.setReg_postings (s : State) (k v) : (s.setReg k v).postings = s.postings := (rfl)
@[simp] theorem State.setReg_cellLocks (s : State) (k v) : (s.setReg k v).cellLocks = s.cellLocks := (rfl)
@[simp] theorem State.setReg_lockWaits (s : State) (k v) : (s.setReg k v).lockWaits = s.lockWaits := (rfl)
@[simp] theorem State.setReg_lockRels (s : State) (k v) : (s.setReg k v).lockRels = s.lockRels := (rfl)
@[simp] theorem State.setReg_staging (s : State) (k v) : (s.setReg k v).staging = s.staging := (rfl)
@[simp] theorem State.setReg_jPrev (s : State) (k v) : (s.setReg k v).jPrev = s.jPrev := (rfl)
@[simp] theorem State.setReg_jMirPend (s : State) (k v) : (s.setReg k v).jMirPend = s.jMirPend := (rfl)
@[simp] theorem State.setReg_jSeen (s : State) (k v) : (s.setReg k v).jSeen = s.jSeen := (rfl)
@[simp] theorem State.setReg_flushes (s : State) (k v) : (s.setReg k v).flushes = s.flushes := (rfl)
@[simp] theorem State.setReg_jDirty (s : State) (k v) : (s.setReg k v).jDirty = s.jDirty := (rfl)
@[simp] theorem State.setReg_parts (s : State) (k v) : (s.setReg k v).parts = s.parts := (rfl)
@[simp] theorem State.setReg_cmtNotes (s : State) (k v) : (s.setReg k v).cmtNotes = s.cmtNotes := (rfl)
@[simp] theorem State.setReg_jWait (s : State) (k v) : (s.setReg k v).jWait = s.jWait := (rfl)
@[simp] theorem State.setReg_sealed (s : State) (k v) : (s.setReg k v).sealed = s.sealed := (rfl)
@[simp] theorem State.setReg_xcache (s : State) (k v) : (s.setReg k v).xcache = s.xcache := (rfl)
@[simp] theorem State.setReg_drained (s : State) (k v) : (s.setReg k v).drained = s.drained := (rfl)
@[simp] theorem State.setReg_jParts (s : State) (k v) : (s.setReg k v).jParts = s.jParts := (rfl)
@[simp] theorem State.setReg_l2dir (s : State) (k v) : (s.setReg k v).l2dir = s.l2dir := (rfl)
@[simp] theorem State.setReg_l2s (s : State) (k v) : (s.setReg k v).l2s = s.l2s := (rfl)
@[simp] theorem State.setReg_dramBad (s : State) (k v) : (s.setReg k v).dramBad = s.dramBad := (rfl)
@[simp] theorem State.setReg_rdir (s : State) (k v) : (s.setReg k v).rdir = s.rdir := (rfl)
@[simp] theorem State.setReg_snoops (s : State) (k v) : (s.setReg k v).snoops = s.snoops := (rfl)
@[simp] theorem State.setReg_homeReqs (s : State) (k v) : (s.setReg k v).homeReqs = s.homeReqs := (rfl)
@[simp] theorem State.setReg_devMem (s : State) (k v) : (s.setReg k v).devMem = s.devMem := (rfl)
@[simp] theorem State.setReg_devPoison (s : State) (k v) : (s.setReg k v).devPoison = s.devPoison := (rfl)
@[simp] theorem State.setReg_held (s : State) (k v) : (s.setReg k v).held = s.held := (rfl)
@[simp] theorem State.setReg_layouts (s : State) (k v) : (s.setReg k v).layouts = s.layouts := (rfl)
@[simp] theorem State.setReg_links (s : State) (k v) : (s.setReg k v).links = s.links := (rfl)
@[simp] theorem State.setReg_atsInvs (s : State) (k v) : (s.setReg k v).atsInvs = s.atsInvs := (rfl)
@[simp] theorem State.setReg_invHeld (s : State) (k v) : (s.setReg k v).invHeld = s.invHeld := (rfl)
@[simp] theorem State.setReg_answer (s : State) (k v) : (s.setReg k v).answer = s.answer := (rfl)
@[simp] theorem State.setReg_guardOld (s : State) (k v) : (s.setReg k v).guardOld = s.guardOld := (rfl)
@[simp] theorem State.setReg_fncs (s : State) (k v) : (s.setReg k v).fncs = s.fncs := (rfl)
@[simp] theorem State.setReg_ringWaits (s : State) (k v) : (s.setReg k v).ringWaits = s.ringWaits := (rfl)
@[simp] theorem State.setReg_laneWrites (s : State) (k v) : (s.setReg k v).laneWrites = s.laneWrites := (rfl)
@[simp] theorem State.setReg_dmaOut (s : State) (k v) : (s.setReg k v).dmaOut = s.dmaOut := (rfl)
@[simp] theorem State.setReg_pfwParts (s : State) (k v) : (s.setReg k v).pfwParts = s.pfwParts := (rfl)
@[simp] theorem State.setReg_cxlLost (s : State) (k v) : (s.setReg k v).cxlLost = s.cxlLost := (rfl)
@[simp] theorem State.setReg_prq (s : State) (k v) : (s.setReg k v).prq = s.prq := (rfl)
@[simp] theorem State.setReg_follow (s : State) (k v) : (s.setReg k v).follow = s.follow := (rfl)
@[simp] theorem State.setReg_followRate (s : State) (k v) : (s.setReg k v).followRate = s.followRate := (rfl)
@[simp] theorem State.setReg_pins (s : State) (k v) : (s.setReg k v).pins = s.pins := (rfl)
@[simp] theorem State.setReg_flash (s : State) (k v) : (s.setReg k v).flash = s.flash := (rfl)
@[simp] theorem State.setReg_flashSize (s : State) (k v) : (s.setReg k v).flashSize = s.flashSize := (rfl)
@[simp] theorem State.setReg_flashOp (s : State) (k v) : (s.setReg k v).flashOp = s.flashOp := (rfl)
@[simp] theorem State.setReg_boot (s : State) (k v) : (s.setReg k v).boot = s.boot := (rfl)
@[simp] theorem State.setReg_unitOps (s : State) (k v) : (s.setReg k v).unitOps = s.unitOps := (rfl)
@[simp] theorem State.setReg_byCluster (s : State) (k v) : (s.setReg k v).byCluster = s.byCluster := (rfl)
@[simp] theorem State.setReg_clkStopped (s : State) (k v) : (s.setReg k v).clkStopped = s.clkStopped := (rfl)
@[simp] theorem State.setReg_brum (s : State) (k v) : (s.setReg k v).brum = s.brum := (rfl)
@[simp] theorem State.setReg_injDue (s : State) (k v) : (s.setReg k v).injDue = s.injDue := (rfl)
@[simp] theorem State.setReg_injNext (s : State) (k v) : (s.setReg k v).injNext = s.injNext := (rfl)
@[simp] theorem State.setReg_snapAt (s : State) (k v) : (s.setReg k v).snapAt = s.snapAt := (rfl)
@[simp] theorem State.setReg_dbgFailAt (s : State) (k v) : (s.setReg k v).dbgFailAt = s.dbgFailAt := (rfl)
@[simp] theorem State.setReg_pwrLow (s : State) (k v) : (s.setReg k v).pwrLow = s.pwrLow := (rfl)
@[simp] theorem State.setReg_pwrHeld (s : State) (k v) : (s.setReg k v).pwrHeld = s.pwrHeld := (rfl)
@[simp] theorem State.setReg_hot (s : State) (k v) : (s.setReg k v).hot = s.hot := (rfl)
@[simp] theorem State.setReg_adjAcc (s : State) (k v) : (s.setReg k v).adjAcc = s.adjAcc := (rfl)
@[simp] theorem State.setReg_adjWait (s : State) (k v) : (s.setReg k v).adjWait = s.adjWait := (rfl)
@[simp] theorem State.setReg_tap (s : State) (k v) : (s.setReg k v).tap = s.tap := (rfl)

/-! setRf -/

@[simp] theorem State.setRf_pending (s : State) (k f n) : (s.setRf k f n).pending = s.pending := (rfl)
@[simp] theorem State.setRf_inReset (s : State) (k f n) : (s.setRf k f n).inReset = s.inReset := (rfl)
@[simp] theorem State.setRf_mode (s : State) (k f n) : (s.setRf k f n).mode = s.mode := (rfl)
@[simp] theorem State.setRf_time (s : State) (k f n) : (s.setRf k f n).time = s.time := (rfl)
@[simp] theorem State.setRf_free (s : State) (k f n) : (s.setRf k f n).free = s.free := (rfl)
@[simp] theorem State.setRf_cores (s : State) (k f n) : (s.setRf k f n).cores = s.cores := (rfl)
@[simp] theorem State.setRf_socket (s : State) (k f n) : (s.setRf k f n).socket = s.socket := (rfl)
@[simp] theorem State.setRf_mem (s : State) (k f n) : (s.setRf k f n).mem = s.mem := (rfl)
@[simp] theorem State.setRf_tags (s : State) (k f n) : (s.setRf k f n).tags = s.tags := (rfl)
@[simp] theorem State.setRf_poison (s : State) (k f n) : (s.setRf k f n).poison = s.poison := (rfl)
@[simp] theorem State.setRf_back (s : State) (k f n) : (s.setRf k f n).back = s.back := (rfl)
@[simp] theorem State.setRf_dirty (s : State) (k f n) : (s.setRf k f n).dirty = s.dirty := (rfl)
@[simp] theorem State.setRf_purseDir (s : State) (k f n) : (s.setRf k f n).purseDir = s.purseDir := (rfl)
@[simp] theorem State.setRf_purseWrs (s : State) (k f n) : (s.setRf k f n).purseWrs = s.purseWrs := (rfl)
@[simp] theorem State.setRf_purseDone (s : State) (k f n) : (s.setRf k f n).purseDone = s.purseDone := (rfl)
@[simp] theorem State.setRf_fences (s : State) (k f n) : (s.setRf k f n).fences = s.fences := (rfl)
@[simp] theorem State.setRf_nextId (s : State) (k f n) : (s.setRf k f n).nextId = s.nextId := (rfl)
@[simp] theorem State.setRf_sweep (s : State) (k f n) : (s.setRf k f n).sweep = s.sweep := (rfl)
@[simp] theorem State.setRf_dbCnt (s : State) (k f n) : (s.setRf k f n).dbCnt = s.dbCnt := (rfl)
@[simp] theorem State.setRf_dbDue (s : State) (k f n) : (s.setRf k f n).dbDue = s.dbDue := (rfl)
@[simp] theorem State.setRf_dbPriv (s : State) (k f n) : (s.setRf k f n).dbPriv = s.dbPriv := (rfl)
@[simp] theorem State.setRf_dbLine (s : State) (k f n) : (s.setRf k f n).dbLine = s.dbLine := (rfl)
@[simp] theorem State.setRf_dbMsgs (s : State) (k f n) : (s.setRf k f n).dbMsgs = s.dbMsgs := (rfl)
@[simp] theorem State.setRf_dbOld (s : State) (k f n) : (s.setRf k f n).dbOld = s.dbOld := (rfl)
@[simp] theorem State.setRf_seq (s : State) (k f n) : (s.setRf k f n).seq = s.seq := (rfl)
@[simp] theorem State.setRf_sram (s : State) (k f n) : (s.setRf k f n).sram = s.sram := (rfl)
@[simp] theorem State.setRf_rlines (s : State) (k f n) : (s.setRf k f n).rlines = s.rlines := (rfl)
@[simp] theorem State.setRf_peerTx (s : State) (k f n) : (s.setRf k f n).peerTx = s.peerTx := (rfl)
@[simp] theorem State.setRf_peerOut (s : State) (k f n) : (s.setRf k f n).peerOut = s.peerOut := (rfl)
@[simp] theorem State.setRf_blocked (s : State) (k f n) : (s.setRf k f n).blocked = s.blocked := (rfl)
@[simp] theorem State.setRf_postings (s : State) (k f n) : (s.setRf k f n).postings = s.postings := (rfl)
@[simp] theorem State.setRf_cellLocks (s : State) (k f n) : (s.setRf k f n).cellLocks = s.cellLocks := (rfl)
@[simp] theorem State.setRf_lockWaits (s : State) (k f n) : (s.setRf k f n).lockWaits = s.lockWaits := (rfl)
@[simp] theorem State.setRf_lockRels (s : State) (k f n) : (s.setRf k f n).lockRels = s.lockRels := (rfl)
@[simp] theorem State.setRf_staging (s : State) (k f n) : (s.setRf k f n).staging = s.staging := (rfl)
@[simp] theorem State.setRf_jPrev (s : State) (k f n) : (s.setRf k f n).jPrev = s.jPrev := (rfl)
@[simp] theorem State.setRf_jMirPend (s : State) (k f n) : (s.setRf k f n).jMirPend = s.jMirPend := (rfl)
@[simp] theorem State.setRf_jSeen (s : State) (k f n) : (s.setRf k f n).jSeen = s.jSeen := (rfl)
@[simp] theorem State.setRf_flushes (s : State) (k f n) : (s.setRf k f n).flushes = s.flushes := (rfl)
@[simp] theorem State.setRf_jDirty (s : State) (k f n) : (s.setRf k f n).jDirty = s.jDirty := (rfl)
@[simp] theorem State.setRf_parts (s : State) (k f n) : (s.setRf k f n).parts = s.parts := (rfl)
@[simp] theorem State.setRf_cmtNotes (s : State) (k f n) : (s.setRf k f n).cmtNotes = s.cmtNotes := (rfl)
@[simp] theorem State.setRf_jWait (s : State) (k f n) : (s.setRf k f n).jWait = s.jWait := (rfl)
@[simp] theorem State.setRf_sealed (s : State) (k f n) : (s.setRf k f n).sealed = s.sealed := (rfl)
@[simp] theorem State.setRf_xcache (s : State) (k f n) : (s.setRf k f n).xcache = s.xcache := (rfl)
@[simp] theorem State.setRf_drained (s : State) (k f n) : (s.setRf k f n).drained = s.drained := (rfl)
@[simp] theorem State.setRf_jParts (s : State) (k f n) : (s.setRf k f n).jParts = s.jParts := (rfl)
@[simp] theorem State.setRf_l2dir (s : State) (k f n) : (s.setRf k f n).l2dir = s.l2dir := (rfl)
@[simp] theorem State.setRf_l2s (s : State) (k f n) : (s.setRf k f n).l2s = s.l2s := (rfl)
@[simp] theorem State.setRf_dramBad (s : State) (k f n) : (s.setRf k f n).dramBad = s.dramBad := (rfl)
@[simp] theorem State.setRf_rdir (s : State) (k f n) : (s.setRf k f n).rdir = s.rdir := (rfl)
@[simp] theorem State.setRf_snoops (s : State) (k f n) : (s.setRf k f n).snoops = s.snoops := (rfl)
@[simp] theorem State.setRf_homeReqs (s : State) (k f n) : (s.setRf k f n).homeReqs = s.homeReqs := (rfl)
@[simp] theorem State.setRf_devMem (s : State) (k f n) : (s.setRf k f n).devMem = s.devMem := (rfl)
@[simp] theorem State.setRf_devPoison (s : State) (k f n) : (s.setRf k f n).devPoison = s.devPoison := (rfl)
@[simp] theorem State.setRf_held (s : State) (k f n) : (s.setRf k f n).held = s.held := (rfl)
@[simp] theorem State.setRf_layouts (s : State) (k f n) : (s.setRf k f n).layouts = s.layouts := (rfl)
@[simp] theorem State.setRf_links (s : State) (k f n) : (s.setRf k f n).links = s.links := (rfl)
@[simp] theorem State.setRf_atsInvs (s : State) (k f n) : (s.setRf k f n).atsInvs = s.atsInvs := (rfl)
@[simp] theorem State.setRf_invHeld (s : State) (k f n) : (s.setRf k f n).invHeld = s.invHeld := (rfl)
@[simp] theorem State.setRf_answer (s : State) (k f n) : (s.setRf k f n).answer = s.answer := (rfl)
@[simp] theorem State.setRf_guardOld (s : State) (k f n) : (s.setRf k f n).guardOld = s.guardOld := (rfl)
@[simp] theorem State.setRf_fncs (s : State) (k f n) : (s.setRf k f n).fncs = s.fncs := (rfl)
@[simp] theorem State.setRf_ringWaits (s : State) (k f n) : (s.setRf k f n).ringWaits = s.ringWaits := (rfl)
@[simp] theorem State.setRf_laneWrites (s : State) (k f n) : (s.setRf k f n).laneWrites = s.laneWrites := (rfl)
@[simp] theorem State.setRf_dmaOut (s : State) (k f n) : (s.setRf k f n).dmaOut = s.dmaOut := (rfl)
@[simp] theorem State.setRf_pfwParts (s : State) (k f n) : (s.setRf k f n).pfwParts = s.pfwParts := (rfl)
@[simp] theorem State.setRf_cxlLost (s : State) (k f n) : (s.setRf k f n).cxlLost = s.cxlLost := (rfl)
@[simp] theorem State.setRf_prq (s : State) (k f n) : (s.setRf k f n).prq = s.prq := (rfl)
@[simp] theorem State.setRf_follow (s : State) (k f n) : (s.setRf k f n).follow = s.follow := (rfl)
@[simp] theorem State.setRf_followRate (s : State) (k f n) : (s.setRf k f n).followRate = s.followRate := (rfl)
@[simp] theorem State.setRf_pins (s : State) (k f n) : (s.setRf k f n).pins = s.pins := (rfl)
@[simp] theorem State.setRf_flash (s : State) (k f n) : (s.setRf k f n).flash = s.flash := (rfl)
@[simp] theorem State.setRf_flashSize (s : State) (k f n) : (s.setRf k f n).flashSize = s.flashSize := (rfl)
@[simp] theorem State.setRf_flashOp (s : State) (k f n) : (s.setRf k f n).flashOp = s.flashOp := (rfl)
@[simp] theorem State.setRf_boot (s : State) (k f n) : (s.setRf k f n).boot = s.boot := (rfl)
@[simp] theorem State.setRf_unitOps (s : State) (k f n) : (s.setRf k f n).unitOps = s.unitOps := (rfl)
@[simp] theorem State.setRf_byCluster (s : State) (k f n) : (s.setRf k f n).byCluster = s.byCluster := (rfl)
@[simp] theorem State.setRf_clkStopped (s : State) (k f n) : (s.setRf k f n).clkStopped = s.clkStopped := (rfl)
@[simp] theorem State.setRf_brum (s : State) (k f n) : (s.setRf k f n).brum = s.brum := (rfl)
@[simp] theorem State.setRf_injDue (s : State) (k f n) : (s.setRf k f n).injDue = s.injDue := (rfl)
@[simp] theorem State.setRf_injNext (s : State) (k f n) : (s.setRf k f n).injNext = s.injNext := (rfl)
@[simp] theorem State.setRf_snapAt (s : State) (k f n) : (s.setRf k f n).snapAt = s.snapAt := (rfl)
@[simp] theorem State.setRf_dbgFailAt (s : State) (k f n) : (s.setRf k f n).dbgFailAt = s.dbgFailAt := (rfl)
@[simp] theorem State.setRf_pwrLow (s : State) (k f n) : (s.setRf k f n).pwrLow = s.pwrLow := (rfl)
@[simp] theorem State.setRf_pwrHeld (s : State) (k f n) : (s.setRf k f n).pwrHeld = s.pwrHeld := (rfl)
@[simp] theorem State.setRf_hot (s : State) (k f n) : (s.setRf k f n).hot = s.hot := (rfl)
@[simp] theorem State.setRf_adjAcc (s : State) (k f n) : (s.setRf k f n).adjAcc = s.adjAcc := (rfl)
@[simp] theorem State.setRf_adjWait (s : State) (k f n) : (s.setRf k f n).adjWait = s.adjWait := (rfl)
@[simp] theorem State.setRf_tap (s : State) (k f n) : (s.setRf k f n).tap = s.tap := (rfl)

/-! incRf -/

@[simp] theorem State.incRf_pending (s : State) (k f) : (s.incRf k f).pending = s.pending := (rfl)
@[simp] theorem State.incRf_inReset (s : State) (k f) : (s.incRf k f).inReset = s.inReset := (rfl)
@[simp] theorem State.incRf_mode (s : State) (k f) : (s.incRf k f).mode = s.mode := (rfl)
@[simp] theorem State.incRf_time (s : State) (k f) : (s.incRf k f).time = s.time := (rfl)
@[simp] theorem State.incRf_free (s : State) (k f) : (s.incRf k f).free = s.free := (rfl)
@[simp] theorem State.incRf_cores (s : State) (k f) : (s.incRf k f).cores = s.cores := (rfl)
@[simp] theorem State.incRf_socket (s : State) (k f) : (s.incRf k f).socket = s.socket := (rfl)
@[simp] theorem State.incRf_mem (s : State) (k f) : (s.incRf k f).mem = s.mem := (rfl)
@[simp] theorem State.incRf_tags (s : State) (k f) : (s.incRf k f).tags = s.tags := (rfl)
@[simp] theorem State.incRf_poison (s : State) (k f) : (s.incRf k f).poison = s.poison := (rfl)
@[simp] theorem State.incRf_back (s : State) (k f) : (s.incRf k f).back = s.back := (rfl)
@[simp] theorem State.incRf_dirty (s : State) (k f) : (s.incRf k f).dirty = s.dirty := (rfl)
@[simp] theorem State.incRf_purseDir (s : State) (k f) : (s.incRf k f).purseDir = s.purseDir := (rfl)
@[simp] theorem State.incRf_purseWrs (s : State) (k f) : (s.incRf k f).purseWrs = s.purseWrs := (rfl)
@[simp] theorem State.incRf_purseDone (s : State) (k f) : (s.incRf k f).purseDone = s.purseDone := (rfl)
@[simp] theorem State.incRf_fences (s : State) (k f) : (s.incRf k f).fences = s.fences := (rfl)
@[simp] theorem State.incRf_nextId (s : State) (k f) : (s.incRf k f).nextId = s.nextId := (rfl)
@[simp] theorem State.incRf_sweep (s : State) (k f) : (s.incRf k f).sweep = s.sweep := (rfl)
@[simp] theorem State.incRf_dbCnt (s : State) (k f) : (s.incRf k f).dbCnt = s.dbCnt := (rfl)
@[simp] theorem State.incRf_dbDue (s : State) (k f) : (s.incRf k f).dbDue = s.dbDue := (rfl)
@[simp] theorem State.incRf_dbPriv (s : State) (k f) : (s.incRf k f).dbPriv = s.dbPriv := (rfl)
@[simp] theorem State.incRf_dbLine (s : State) (k f) : (s.incRf k f).dbLine = s.dbLine := (rfl)
@[simp] theorem State.incRf_dbMsgs (s : State) (k f) : (s.incRf k f).dbMsgs = s.dbMsgs := (rfl)
@[simp] theorem State.incRf_dbOld (s : State) (k f) : (s.incRf k f).dbOld = s.dbOld := (rfl)
@[simp] theorem State.incRf_seq (s : State) (k f) : (s.incRf k f).seq = s.seq := (rfl)
@[simp] theorem State.incRf_sram (s : State) (k f) : (s.incRf k f).sram = s.sram := (rfl)
@[simp] theorem State.incRf_rlines (s : State) (k f) : (s.incRf k f).rlines = s.rlines := (rfl)
@[simp] theorem State.incRf_peerTx (s : State) (k f) : (s.incRf k f).peerTx = s.peerTx := (rfl)
@[simp] theorem State.incRf_peerOut (s : State) (k f) : (s.incRf k f).peerOut = s.peerOut := (rfl)
@[simp] theorem State.incRf_blocked (s : State) (k f) : (s.incRf k f).blocked = s.blocked := (rfl)
@[simp] theorem State.incRf_postings (s : State) (k f) : (s.incRf k f).postings = s.postings := (rfl)
@[simp] theorem State.incRf_cellLocks (s : State) (k f) : (s.incRf k f).cellLocks = s.cellLocks := (rfl)
@[simp] theorem State.incRf_lockWaits (s : State) (k f) : (s.incRf k f).lockWaits = s.lockWaits := (rfl)
@[simp] theorem State.incRf_lockRels (s : State) (k f) : (s.incRf k f).lockRels = s.lockRels := (rfl)
@[simp] theorem State.incRf_staging (s : State) (k f) : (s.incRf k f).staging = s.staging := (rfl)
@[simp] theorem State.incRf_jPrev (s : State) (k f) : (s.incRf k f).jPrev = s.jPrev := (rfl)
@[simp] theorem State.incRf_jMirPend (s : State) (k f) : (s.incRf k f).jMirPend = s.jMirPend := (rfl)
@[simp] theorem State.incRf_jSeen (s : State) (k f) : (s.incRf k f).jSeen = s.jSeen := (rfl)
@[simp] theorem State.incRf_flushes (s : State) (k f) : (s.incRf k f).flushes = s.flushes := (rfl)
@[simp] theorem State.incRf_jDirty (s : State) (k f) : (s.incRf k f).jDirty = s.jDirty := (rfl)
@[simp] theorem State.incRf_parts (s : State) (k f) : (s.incRf k f).parts = s.parts := (rfl)
@[simp] theorem State.incRf_cmtNotes (s : State) (k f) : (s.incRf k f).cmtNotes = s.cmtNotes := (rfl)
@[simp] theorem State.incRf_jWait (s : State) (k f) : (s.incRf k f).jWait = s.jWait := (rfl)
@[simp] theorem State.incRf_sealed (s : State) (k f) : (s.incRf k f).sealed = s.sealed := (rfl)
@[simp] theorem State.incRf_xcache (s : State) (k f) : (s.incRf k f).xcache = s.xcache := (rfl)
@[simp] theorem State.incRf_drained (s : State) (k f) : (s.incRf k f).drained = s.drained := (rfl)
@[simp] theorem State.incRf_jParts (s : State) (k f) : (s.incRf k f).jParts = s.jParts := (rfl)
@[simp] theorem State.incRf_l2dir (s : State) (k f) : (s.incRf k f).l2dir = s.l2dir := (rfl)
@[simp] theorem State.incRf_l2s (s : State) (k f) : (s.incRf k f).l2s = s.l2s := (rfl)
@[simp] theorem State.incRf_dramBad (s : State) (k f) : (s.incRf k f).dramBad = s.dramBad := (rfl)
@[simp] theorem State.incRf_rdir (s : State) (k f) : (s.incRf k f).rdir = s.rdir := (rfl)
@[simp] theorem State.incRf_snoops (s : State) (k f) : (s.incRf k f).snoops = s.snoops := (rfl)
@[simp] theorem State.incRf_homeReqs (s : State) (k f) : (s.incRf k f).homeReqs = s.homeReqs := (rfl)
@[simp] theorem State.incRf_devMem (s : State) (k f) : (s.incRf k f).devMem = s.devMem := (rfl)
@[simp] theorem State.incRf_devPoison (s : State) (k f) : (s.incRf k f).devPoison = s.devPoison := (rfl)
@[simp] theorem State.incRf_held (s : State) (k f) : (s.incRf k f).held = s.held := (rfl)
@[simp] theorem State.incRf_layouts (s : State) (k f) : (s.incRf k f).layouts = s.layouts := (rfl)
@[simp] theorem State.incRf_links (s : State) (k f) : (s.incRf k f).links = s.links := (rfl)
@[simp] theorem State.incRf_atsInvs (s : State) (k f) : (s.incRf k f).atsInvs = s.atsInvs := (rfl)
@[simp] theorem State.incRf_invHeld (s : State) (k f) : (s.incRf k f).invHeld = s.invHeld := (rfl)
@[simp] theorem State.incRf_answer (s : State) (k f) : (s.incRf k f).answer = s.answer := (rfl)
@[simp] theorem State.incRf_guardOld (s : State) (k f) : (s.incRf k f).guardOld = s.guardOld := (rfl)
@[simp] theorem State.incRf_fncs (s : State) (k f) : (s.incRf k f).fncs = s.fncs := (rfl)
@[simp] theorem State.incRf_ringWaits (s : State) (k f) : (s.incRf k f).ringWaits = s.ringWaits := (rfl)
@[simp] theorem State.incRf_laneWrites (s : State) (k f) : (s.incRf k f).laneWrites = s.laneWrites := (rfl)
@[simp] theorem State.incRf_dmaOut (s : State) (k f) : (s.incRf k f).dmaOut = s.dmaOut := (rfl)
@[simp] theorem State.incRf_pfwParts (s : State) (k f) : (s.incRf k f).pfwParts = s.pfwParts := (rfl)
@[simp] theorem State.incRf_cxlLost (s : State) (k f) : (s.incRf k f).cxlLost = s.cxlLost := (rfl)
@[simp] theorem State.incRf_prq (s : State) (k f) : (s.incRf k f).prq = s.prq := (rfl)
@[simp] theorem State.incRf_follow (s : State) (k f) : (s.incRf k f).follow = s.follow := (rfl)
@[simp] theorem State.incRf_followRate (s : State) (k f) : (s.incRf k f).followRate = s.followRate := (rfl)
@[simp] theorem State.incRf_pins (s : State) (k f) : (s.incRf k f).pins = s.pins := (rfl)
@[simp] theorem State.incRf_flash (s : State) (k f) : (s.incRf k f).flash = s.flash := (rfl)
@[simp] theorem State.incRf_flashSize (s : State) (k f) : (s.incRf k f).flashSize = s.flashSize := (rfl)
@[simp] theorem State.incRf_flashOp (s : State) (k f) : (s.incRf k f).flashOp = s.flashOp := (rfl)
@[simp] theorem State.incRf_boot (s : State) (k f) : (s.incRf k f).boot = s.boot := (rfl)
@[simp] theorem State.incRf_unitOps (s : State) (k f) : (s.incRf k f).unitOps = s.unitOps := (rfl)
@[simp] theorem State.incRf_byCluster (s : State) (k f) : (s.incRf k f).byCluster = s.byCluster := (rfl)
@[simp] theorem State.incRf_clkStopped (s : State) (k f) : (s.incRf k f).clkStopped = s.clkStopped := (rfl)
@[simp] theorem State.incRf_brum (s : State) (k f) : (s.incRf k f).brum = s.brum := (rfl)
@[simp] theorem State.incRf_injDue (s : State) (k f) : (s.incRf k f).injDue = s.injDue := (rfl)
@[simp] theorem State.incRf_injNext (s : State) (k f) : (s.incRf k f).injNext = s.injNext := (rfl)
@[simp] theorem State.incRf_snapAt (s : State) (k f) : (s.incRf k f).snapAt = s.snapAt := (rfl)
@[simp] theorem State.incRf_dbgFailAt (s : State) (k f) : (s.incRf k f).dbgFailAt = s.dbgFailAt := (rfl)
@[simp] theorem State.incRf_pwrLow (s : State) (k f) : (s.incRf k f).pwrLow = s.pwrLow := (rfl)
@[simp] theorem State.incRf_pwrHeld (s : State) (k f) : (s.incRf k f).pwrHeld = s.pwrHeld := (rfl)
@[simp] theorem State.incRf_hot (s : State) (k f) : (s.incRf k f).hot = s.hot := (rfl)
@[simp] theorem State.incRf_adjAcc (s : State) (k f) : (s.incRf k f).adjAcc = s.adjAcc := (rfl)
@[simp] theorem State.incRf_adjWait (s : State) (k f) : (s.incRf k f).adjWait = s.adjWait := (rfl)
@[simp] theorem State.incRf_tap (s : State) (k f) : (s.incRf k f).tap = s.tap := (rfl)

/-! setMemB -/

@[simp] theorem State.setMemB_pending (s : State) (a b) : (s.setMemB a b).pending = s.pending := (rfl)
@[simp] theorem State.setMemB_inReset (s : State) (a b) : (s.setMemB a b).inReset = s.inReset := (rfl)
@[simp] theorem State.setMemB_mode (s : State) (a b) : (s.setMemB a b).mode = s.mode := (rfl)
@[simp] theorem State.setMemB_time (s : State) (a b) : (s.setMemB a b).time = s.time := (rfl)
@[simp] theorem State.setMemB_free (s : State) (a b) : (s.setMemB a b).free = s.free := (rfl)
@[simp] theorem State.setMemB_csr (s : State) (a b) : (s.setMemB a b).csr = s.csr := (rfl)
@[simp] theorem State.setMemB_cores (s : State) (a b) : (s.setMemB a b).cores = s.cores := (rfl)
@[simp] theorem State.setMemB_socket (s : State) (a b) : (s.setMemB a b).socket = s.socket := (rfl)
@[simp] theorem State.setMemB_tags (s : State) (a b) : (s.setMemB a b).tags = s.tags := (rfl)
@[simp] theorem State.setMemB_poison (s : State) (a b) : (s.setMemB a b).poison = s.poison := (rfl)
@[simp] theorem State.setMemB_back (s : State) (a b) : (s.setMemB a b).back = s.back := (rfl)
@[simp] theorem State.setMemB_dirty (s : State) (a b) : (s.setMemB a b).dirty = s.dirty := (rfl)
@[simp] theorem State.setMemB_purseDir (s : State) (a b) : (s.setMemB a b).purseDir = s.purseDir := (rfl)
@[simp] theorem State.setMemB_purseWrs (s : State) (a b) : (s.setMemB a b).purseWrs = s.purseWrs := (rfl)
@[simp] theorem State.setMemB_purseDone (s : State) (a b) : (s.setMemB a b).purseDone = s.purseDone := (rfl)
@[simp] theorem State.setMemB_fences (s : State) (a b) : (s.setMemB a b).fences = s.fences := (rfl)
@[simp] theorem State.setMemB_nextId (s : State) (a b) : (s.setMemB a b).nextId = s.nextId := (rfl)
@[simp] theorem State.setMemB_sweep (s : State) (a b) : (s.setMemB a b).sweep = s.sweep := (rfl)
@[simp] theorem State.setMemB_dbCnt (s : State) (a b) : (s.setMemB a b).dbCnt = s.dbCnt := (rfl)
@[simp] theorem State.setMemB_dbDue (s : State) (a b) : (s.setMemB a b).dbDue = s.dbDue := (rfl)
@[simp] theorem State.setMemB_dbPriv (s : State) (a b) : (s.setMemB a b).dbPriv = s.dbPriv := (rfl)
@[simp] theorem State.setMemB_dbLine (s : State) (a b) : (s.setMemB a b).dbLine = s.dbLine := (rfl)
@[simp] theorem State.setMemB_dbMsgs (s : State) (a b) : (s.setMemB a b).dbMsgs = s.dbMsgs := (rfl)
@[simp] theorem State.setMemB_dbOld (s : State) (a b) : (s.setMemB a b).dbOld = s.dbOld := (rfl)
@[simp] theorem State.setMemB_seq (s : State) (a b) : (s.setMemB a b).seq = s.seq := (rfl)
@[simp] theorem State.setMemB_sram (s : State) (a b) : (s.setMemB a b).sram = s.sram := (rfl)
@[simp] theorem State.setMemB_rlines (s : State) (a b) : (s.setMemB a b).rlines = s.rlines := (rfl)
@[simp] theorem State.setMemB_peerTx (s : State) (a b) : (s.setMemB a b).peerTx = s.peerTx := (rfl)
@[simp] theorem State.setMemB_peerOut (s : State) (a b) : (s.setMemB a b).peerOut = s.peerOut := (rfl)
@[simp] theorem State.setMemB_blocked (s : State) (a b) : (s.setMemB a b).blocked = s.blocked := (rfl)
@[simp] theorem State.setMemB_postings (s : State) (a b) : (s.setMemB a b).postings = s.postings := (rfl)
@[simp] theorem State.setMemB_cellLocks (s : State) (a b) : (s.setMemB a b).cellLocks = s.cellLocks := (rfl)
@[simp] theorem State.setMemB_lockWaits (s : State) (a b) : (s.setMemB a b).lockWaits = s.lockWaits := (rfl)
@[simp] theorem State.setMemB_lockRels (s : State) (a b) : (s.setMemB a b).lockRels = s.lockRels := (rfl)
@[simp] theorem State.setMemB_staging (s : State) (a b) : (s.setMemB a b).staging = s.staging := (rfl)
@[simp] theorem State.setMemB_jPrev (s : State) (a b) : (s.setMemB a b).jPrev = s.jPrev := (rfl)
@[simp] theorem State.setMemB_jMirPend (s : State) (a b) : (s.setMemB a b).jMirPend = s.jMirPend := (rfl)
@[simp] theorem State.setMemB_jSeen (s : State) (a b) : (s.setMemB a b).jSeen = s.jSeen := (rfl)
@[simp] theorem State.setMemB_flushes (s : State) (a b) : (s.setMemB a b).flushes = s.flushes := (rfl)
@[simp] theorem State.setMemB_jDirty (s : State) (a b) : (s.setMemB a b).jDirty = s.jDirty := (rfl)
@[simp] theorem State.setMemB_parts (s : State) (a b) : (s.setMemB a b).parts = s.parts := (rfl)
@[simp] theorem State.setMemB_cmtNotes (s : State) (a b) : (s.setMemB a b).cmtNotes = s.cmtNotes := (rfl)
@[simp] theorem State.setMemB_jWait (s : State) (a b) : (s.setMemB a b).jWait = s.jWait := (rfl)
@[simp] theorem State.setMemB_sealed (s : State) (a b) : (s.setMemB a b).sealed = s.sealed := (rfl)
@[simp] theorem State.setMemB_xcache (s : State) (a b) : (s.setMemB a b).xcache = s.xcache := (rfl)
@[simp] theorem State.setMemB_drained (s : State) (a b) : (s.setMemB a b).drained = s.drained := (rfl)
@[simp] theorem State.setMemB_jParts (s : State) (a b) : (s.setMemB a b).jParts = s.jParts := (rfl)
@[simp] theorem State.setMemB_l2dir (s : State) (a b) : (s.setMemB a b).l2dir = s.l2dir := (rfl)
@[simp] theorem State.setMemB_l2s (s : State) (a b) : (s.setMemB a b).l2s = s.l2s := (rfl)
@[simp] theorem State.setMemB_dramBad (s : State) (a b) : (s.setMemB a b).dramBad = s.dramBad := (rfl)
@[simp] theorem State.setMemB_rdir (s : State) (a b) : (s.setMemB a b).rdir = s.rdir := (rfl)
@[simp] theorem State.setMemB_snoops (s : State) (a b) : (s.setMemB a b).snoops = s.snoops := (rfl)
@[simp] theorem State.setMemB_homeReqs (s : State) (a b) : (s.setMemB a b).homeReqs = s.homeReqs := (rfl)
@[simp] theorem State.setMemB_devMem (s : State) (a b) : (s.setMemB a b).devMem = s.devMem := (rfl)
@[simp] theorem State.setMemB_devPoison (s : State) (a b) : (s.setMemB a b).devPoison = s.devPoison := (rfl)
@[simp] theorem State.setMemB_held (s : State) (a b) : (s.setMemB a b).held = s.held := (rfl)
@[simp] theorem State.setMemB_layouts (s : State) (a b) : (s.setMemB a b).layouts = s.layouts := (rfl)
@[simp] theorem State.setMemB_links (s : State) (a b) : (s.setMemB a b).links = s.links := (rfl)
@[simp] theorem State.setMemB_atsInvs (s : State) (a b) : (s.setMemB a b).atsInvs = s.atsInvs := (rfl)
@[simp] theorem State.setMemB_invHeld (s : State) (a b) : (s.setMemB a b).invHeld = s.invHeld := (rfl)
@[simp] theorem State.setMemB_answer (s : State) (a b) : (s.setMemB a b).answer = s.answer := (rfl)
@[simp] theorem State.setMemB_guardOld (s : State) (a b) : (s.setMemB a b).guardOld = s.guardOld := (rfl)
@[simp] theorem State.setMemB_fncs (s : State) (a b) : (s.setMemB a b).fncs = s.fncs := (rfl)
@[simp] theorem State.setMemB_ringWaits (s : State) (a b) : (s.setMemB a b).ringWaits = s.ringWaits := (rfl)
@[simp] theorem State.setMemB_laneWrites (s : State) (a b) : (s.setMemB a b).laneWrites = s.laneWrites := (rfl)
@[simp] theorem State.setMemB_dmaOut (s : State) (a b) : (s.setMemB a b).dmaOut = s.dmaOut := (rfl)
@[simp] theorem State.setMemB_pfwParts (s : State) (a b) : (s.setMemB a b).pfwParts = s.pfwParts := (rfl)
@[simp] theorem State.setMemB_cxlLost (s : State) (a b) : (s.setMemB a b).cxlLost = s.cxlLost := (rfl)
@[simp] theorem State.setMemB_prq (s : State) (a b) : (s.setMemB a b).prq = s.prq := (rfl)
@[simp] theorem State.setMemB_follow (s : State) (a b) : (s.setMemB a b).follow = s.follow := (rfl)
@[simp] theorem State.setMemB_followRate (s : State) (a b) : (s.setMemB a b).followRate = s.followRate := (rfl)
@[simp] theorem State.setMemB_pins (s : State) (a b) : (s.setMemB a b).pins = s.pins := (rfl)
@[simp] theorem State.setMemB_flash (s : State) (a b) : (s.setMemB a b).flash = s.flash := (rfl)
@[simp] theorem State.setMemB_flashSize (s : State) (a b) : (s.setMemB a b).flashSize = s.flashSize := (rfl)
@[simp] theorem State.setMemB_flashOp (s : State) (a b) : (s.setMemB a b).flashOp = s.flashOp := (rfl)
@[simp] theorem State.setMemB_boot (s : State) (a b) : (s.setMemB a b).boot = s.boot := (rfl)
@[simp] theorem State.setMemB_unitOps (s : State) (a b) : (s.setMemB a b).unitOps = s.unitOps := (rfl)
@[simp] theorem State.setMemB_byCluster (s : State) (a b) : (s.setMemB a b).byCluster = s.byCluster := (rfl)
@[simp] theorem State.setMemB_clkStopped (s : State) (a b) : (s.setMemB a b).clkStopped = s.clkStopped := (rfl)
@[simp] theorem State.setMemB_brum (s : State) (a b) : (s.setMemB a b).brum = s.brum := (rfl)
@[simp] theorem State.setMemB_injDue (s : State) (a b) : (s.setMemB a b).injDue = s.injDue := (rfl)
@[simp] theorem State.setMemB_injNext (s : State) (a b) : (s.setMemB a b).injNext = s.injNext := (rfl)
@[simp] theorem State.setMemB_snapAt (s : State) (a b) : (s.setMemB a b).snapAt = s.snapAt := (rfl)
@[simp] theorem State.setMemB_dbgFailAt (s : State) (a b) : (s.setMemB a b).dbgFailAt = s.dbgFailAt := (rfl)
@[simp] theorem State.setMemB_pwrLow (s : State) (a b) : (s.setMemB a b).pwrLow = s.pwrLow := (rfl)
@[simp] theorem State.setMemB_pwrHeld (s : State) (a b) : (s.setMemB a b).pwrHeld = s.pwrHeld := (rfl)
@[simp] theorem State.setMemB_hot (s : State) (a b) : (s.setMemB a b).hot = s.hot := (rfl)
@[simp] theorem State.setMemB_adjAcc (s : State) (a b) : (s.setMemB a b).adjAcc = s.adjAcc := (rfl)
@[simp] theorem State.setMemB_adjWait (s : State) (a b) : (s.setMemB a b).adjWait = s.adjWait := (rfl)
@[simp] theorem State.setMemB_tap (s : State) (a b) : (s.setMemB a b).tap = s.tap := (rfl)

/-! setTag -/

@[simp] theorem State.setTag_pending (s : State) (a t) : (s.setTag a t).pending = s.pending := (rfl)
@[simp] theorem State.setTag_inReset (s : State) (a t) : (s.setTag a t).inReset = s.inReset := (rfl)
@[simp] theorem State.setTag_mode (s : State) (a t) : (s.setTag a t).mode = s.mode := (rfl)
@[simp] theorem State.setTag_time (s : State) (a t) : (s.setTag a t).time = s.time := (rfl)
@[simp] theorem State.setTag_free (s : State) (a t) : (s.setTag a t).free = s.free := (rfl)
@[simp] theorem State.setTag_csr (s : State) (a t) : (s.setTag a t).csr = s.csr := (rfl)
@[simp] theorem State.setTag_cores (s : State) (a t) : (s.setTag a t).cores = s.cores := (rfl)
@[simp] theorem State.setTag_socket (s : State) (a t) : (s.setTag a t).socket = s.socket := (rfl)
@[simp] theorem State.setTag_mem (s : State) (a t) : (s.setTag a t).mem = s.mem := (rfl)
@[simp] theorem State.setTag_poison (s : State) (a t) : (s.setTag a t).poison = s.poison := (rfl)
@[simp] theorem State.setTag_back (s : State) (a t) : (s.setTag a t).back = s.back := (rfl)
@[simp] theorem State.setTag_dirty (s : State) (a t) : (s.setTag a t).dirty = s.dirty := (rfl)
@[simp] theorem State.setTag_purseDir (s : State) (a t) : (s.setTag a t).purseDir = s.purseDir := (rfl)
@[simp] theorem State.setTag_purseWrs (s : State) (a t) : (s.setTag a t).purseWrs = s.purseWrs := (rfl)
@[simp] theorem State.setTag_purseDone (s : State) (a t) : (s.setTag a t).purseDone = s.purseDone := (rfl)
@[simp] theorem State.setTag_fences (s : State) (a t) : (s.setTag a t).fences = s.fences := (rfl)
@[simp] theorem State.setTag_nextId (s : State) (a t) : (s.setTag a t).nextId = s.nextId := (rfl)
@[simp] theorem State.setTag_sweep (s : State) (a t) : (s.setTag a t).sweep = s.sweep := (rfl)
@[simp] theorem State.setTag_dbCnt (s : State) (a t) : (s.setTag a t).dbCnt = s.dbCnt := (rfl)
@[simp] theorem State.setTag_dbDue (s : State) (a t) : (s.setTag a t).dbDue = s.dbDue := (rfl)
@[simp] theorem State.setTag_dbPriv (s : State) (a t) : (s.setTag a t).dbPriv = s.dbPriv := (rfl)
@[simp] theorem State.setTag_dbLine (s : State) (a t) : (s.setTag a t).dbLine = s.dbLine := (rfl)
@[simp] theorem State.setTag_dbMsgs (s : State) (a t) : (s.setTag a t).dbMsgs = s.dbMsgs := (rfl)
@[simp] theorem State.setTag_dbOld (s : State) (a t) : (s.setTag a t).dbOld = s.dbOld := (rfl)
@[simp] theorem State.setTag_seq (s : State) (a t) : (s.setTag a t).seq = s.seq := (rfl)
@[simp] theorem State.setTag_sram (s : State) (a t) : (s.setTag a t).sram = s.sram := (rfl)
@[simp] theorem State.setTag_rlines (s : State) (a t) : (s.setTag a t).rlines = s.rlines := (rfl)
@[simp] theorem State.setTag_peerTx (s : State) (a t) : (s.setTag a t).peerTx = s.peerTx := (rfl)
@[simp] theorem State.setTag_peerOut (s : State) (a t) : (s.setTag a t).peerOut = s.peerOut := (rfl)
@[simp] theorem State.setTag_blocked (s : State) (a t) : (s.setTag a t).blocked = s.blocked := (rfl)
@[simp] theorem State.setTag_postings (s : State) (a t) : (s.setTag a t).postings = s.postings := (rfl)
@[simp] theorem State.setTag_cellLocks (s : State) (a t) : (s.setTag a t).cellLocks = s.cellLocks := (rfl)
@[simp] theorem State.setTag_lockWaits (s : State) (a t) : (s.setTag a t).lockWaits = s.lockWaits := (rfl)
@[simp] theorem State.setTag_lockRels (s : State) (a t) : (s.setTag a t).lockRels = s.lockRels := (rfl)
@[simp] theorem State.setTag_staging (s : State) (a t) : (s.setTag a t).staging = s.staging := (rfl)
@[simp] theorem State.setTag_jPrev (s : State) (a t) : (s.setTag a t).jPrev = s.jPrev := (rfl)
@[simp] theorem State.setTag_jMirPend (s : State) (a t) : (s.setTag a t).jMirPend = s.jMirPend := (rfl)
@[simp] theorem State.setTag_jSeen (s : State) (a t) : (s.setTag a t).jSeen = s.jSeen := (rfl)
@[simp] theorem State.setTag_flushes (s : State) (a t) : (s.setTag a t).flushes = s.flushes := (rfl)
@[simp] theorem State.setTag_jDirty (s : State) (a t) : (s.setTag a t).jDirty = s.jDirty := (rfl)
@[simp] theorem State.setTag_parts (s : State) (a t) : (s.setTag a t).parts = s.parts := (rfl)
@[simp] theorem State.setTag_cmtNotes (s : State) (a t) : (s.setTag a t).cmtNotes = s.cmtNotes := (rfl)
@[simp] theorem State.setTag_jWait (s : State) (a t) : (s.setTag a t).jWait = s.jWait := (rfl)
@[simp] theorem State.setTag_sealed (s : State) (a t) : (s.setTag a t).sealed = s.sealed := (rfl)
@[simp] theorem State.setTag_xcache (s : State) (a t) : (s.setTag a t).xcache = s.xcache := (rfl)
@[simp] theorem State.setTag_drained (s : State) (a t) : (s.setTag a t).drained = s.drained := (rfl)
@[simp] theorem State.setTag_jParts (s : State) (a t) : (s.setTag a t).jParts = s.jParts := (rfl)
@[simp] theorem State.setTag_l2dir (s : State) (a t) : (s.setTag a t).l2dir = s.l2dir := (rfl)
@[simp] theorem State.setTag_l2s (s : State) (a t) : (s.setTag a t).l2s = s.l2s := (rfl)
@[simp] theorem State.setTag_dramBad (s : State) (a t) : (s.setTag a t).dramBad = s.dramBad := (rfl)
@[simp] theorem State.setTag_rdir (s : State) (a t) : (s.setTag a t).rdir = s.rdir := (rfl)
@[simp] theorem State.setTag_snoops (s : State) (a t) : (s.setTag a t).snoops = s.snoops := (rfl)
@[simp] theorem State.setTag_homeReqs (s : State) (a t) : (s.setTag a t).homeReqs = s.homeReqs := (rfl)
@[simp] theorem State.setTag_devMem (s : State) (a t) : (s.setTag a t).devMem = s.devMem := (rfl)
@[simp] theorem State.setTag_devPoison (s : State) (a t) : (s.setTag a t).devPoison = s.devPoison := (rfl)
@[simp] theorem State.setTag_held (s : State) (a t) : (s.setTag a t).held = s.held := (rfl)
@[simp] theorem State.setTag_layouts (s : State) (a t) : (s.setTag a t).layouts = s.layouts := (rfl)
@[simp] theorem State.setTag_links (s : State) (a t) : (s.setTag a t).links = s.links := (rfl)
@[simp] theorem State.setTag_atsInvs (s : State) (a t) : (s.setTag a t).atsInvs = s.atsInvs := (rfl)
@[simp] theorem State.setTag_invHeld (s : State) (a t) : (s.setTag a t).invHeld = s.invHeld := (rfl)
@[simp] theorem State.setTag_answer (s : State) (a t) : (s.setTag a t).answer = s.answer := (rfl)
@[simp] theorem State.setTag_guardOld (s : State) (a t) : (s.setTag a t).guardOld = s.guardOld := (rfl)
@[simp] theorem State.setTag_fncs (s : State) (a t) : (s.setTag a t).fncs = s.fncs := (rfl)
@[simp] theorem State.setTag_ringWaits (s : State) (a t) : (s.setTag a t).ringWaits = s.ringWaits := (rfl)
@[simp] theorem State.setTag_laneWrites (s : State) (a t) : (s.setTag a t).laneWrites = s.laneWrites := (rfl)
@[simp] theorem State.setTag_dmaOut (s : State) (a t) : (s.setTag a t).dmaOut = s.dmaOut := (rfl)
@[simp] theorem State.setTag_pfwParts (s : State) (a t) : (s.setTag a t).pfwParts = s.pfwParts := (rfl)
@[simp] theorem State.setTag_cxlLost (s : State) (a t) : (s.setTag a t).cxlLost = s.cxlLost := (rfl)
@[simp] theorem State.setTag_prq (s : State) (a t) : (s.setTag a t).prq = s.prq := (rfl)
@[simp] theorem State.setTag_follow (s : State) (a t) : (s.setTag a t).follow = s.follow := (rfl)
@[simp] theorem State.setTag_followRate (s : State) (a t) : (s.setTag a t).followRate = s.followRate := (rfl)
@[simp] theorem State.setTag_pins (s : State) (a t) : (s.setTag a t).pins = s.pins := (rfl)
@[simp] theorem State.setTag_flash (s : State) (a t) : (s.setTag a t).flash = s.flash := (rfl)
@[simp] theorem State.setTag_flashSize (s : State) (a t) : (s.setTag a t).flashSize = s.flashSize := (rfl)
@[simp] theorem State.setTag_flashOp (s : State) (a t) : (s.setTag a t).flashOp = s.flashOp := (rfl)
@[simp] theorem State.setTag_boot (s : State) (a t) : (s.setTag a t).boot = s.boot := (rfl)
@[simp] theorem State.setTag_unitOps (s : State) (a t) : (s.setTag a t).unitOps = s.unitOps := (rfl)
@[simp] theorem State.setTag_byCluster (s : State) (a t) : (s.setTag a t).byCluster = s.byCluster := (rfl)
@[simp] theorem State.setTag_clkStopped (s : State) (a t) : (s.setTag a t).clkStopped = s.clkStopped := (rfl)
@[simp] theorem State.setTag_brum (s : State) (a t) : (s.setTag a t).brum = s.brum := (rfl)
@[simp] theorem State.setTag_injDue (s : State) (a t) : (s.setTag a t).injDue = s.injDue := (rfl)
@[simp] theorem State.setTag_injNext (s : State) (a t) : (s.setTag a t).injNext = s.injNext := (rfl)
@[simp] theorem State.setTag_snapAt (s : State) (a t) : (s.setTag a t).snapAt = s.snapAt := (rfl)
@[simp] theorem State.setTag_dbgFailAt (s : State) (a t) : (s.setTag a t).dbgFailAt = s.dbgFailAt := (rfl)
@[simp] theorem State.setTag_pwrLow (s : State) (a t) : (s.setTag a t).pwrLow = s.pwrLow := (rfl)
@[simp] theorem State.setTag_pwrHeld (s : State) (a t) : (s.setTag a t).pwrHeld = s.pwrHeld := (rfl)
@[simp] theorem State.setTag_hot (s : State) (a t) : (s.setTag a t).hot = s.hot := (rfl)
@[simp] theorem State.setTag_adjAcc (s : State) (a t) : (s.setTag a t).adjAcc = s.adjAcc := (rfl)
@[simp] theorem State.setTag_adjWait (s : State) (a t) : (s.setTag a t).adjWait = s.adjWait := (rfl)
@[simp] theorem State.setTag_tap (s : State) (a t) : (s.setTag a t).tap = s.tap := (rfl)

/-! setPoison -/

@[simp] theorem State.setPoison_pending (s : State) (a p) : (s.setPoison a p).pending = s.pending := (rfl)
@[simp] theorem State.setPoison_inReset (s : State) (a p) : (s.setPoison a p).inReset = s.inReset := (rfl)
@[simp] theorem State.setPoison_mode (s : State) (a p) : (s.setPoison a p).mode = s.mode := (rfl)
@[simp] theorem State.setPoison_time (s : State) (a p) : (s.setPoison a p).time = s.time := (rfl)
@[simp] theorem State.setPoison_free (s : State) (a p) : (s.setPoison a p).free = s.free := (rfl)
@[simp] theorem State.setPoison_csr (s : State) (a p) : (s.setPoison a p).csr = s.csr := (rfl)
@[simp] theorem State.setPoison_cores (s : State) (a p) : (s.setPoison a p).cores = s.cores := (rfl)
@[simp] theorem State.setPoison_socket (s : State) (a p) : (s.setPoison a p).socket = s.socket := (rfl)
@[simp] theorem State.setPoison_mem (s : State) (a p) : (s.setPoison a p).mem = s.mem := (rfl)
@[simp] theorem State.setPoison_tags (s : State) (a p) : (s.setPoison a p).tags = s.tags := (rfl)
@[simp] theorem State.setPoison_back (s : State) (a p) : (s.setPoison a p).back = s.back := (rfl)
@[simp] theorem State.setPoison_dirty (s : State) (a p) : (s.setPoison a p).dirty = s.dirty := (rfl)
@[simp] theorem State.setPoison_purseDir (s : State) (a p) : (s.setPoison a p).purseDir = s.purseDir := (rfl)
@[simp] theorem State.setPoison_purseWrs (s : State) (a p) : (s.setPoison a p).purseWrs = s.purseWrs := (rfl)
@[simp] theorem State.setPoison_purseDone (s : State) (a p) : (s.setPoison a p).purseDone = s.purseDone := (rfl)
@[simp] theorem State.setPoison_fences (s : State) (a p) : (s.setPoison a p).fences = s.fences := (rfl)
@[simp] theorem State.setPoison_nextId (s : State) (a p) : (s.setPoison a p).nextId = s.nextId := (rfl)
@[simp] theorem State.setPoison_sweep (s : State) (a p) : (s.setPoison a p).sweep = s.sweep := (rfl)
@[simp] theorem State.setPoison_dbCnt (s : State) (a p) : (s.setPoison a p).dbCnt = s.dbCnt := (rfl)
@[simp] theorem State.setPoison_dbDue (s : State) (a p) : (s.setPoison a p).dbDue = s.dbDue := (rfl)
@[simp] theorem State.setPoison_dbPriv (s : State) (a p) : (s.setPoison a p).dbPriv = s.dbPriv := (rfl)
@[simp] theorem State.setPoison_dbLine (s : State) (a p) : (s.setPoison a p).dbLine = s.dbLine := (rfl)
@[simp] theorem State.setPoison_dbMsgs (s : State) (a p) : (s.setPoison a p).dbMsgs = s.dbMsgs := (rfl)
@[simp] theorem State.setPoison_dbOld (s : State) (a p) : (s.setPoison a p).dbOld = s.dbOld := (rfl)
@[simp] theorem State.setPoison_seq (s : State) (a p) : (s.setPoison a p).seq = s.seq := (rfl)
@[simp] theorem State.setPoison_sram (s : State) (a p) : (s.setPoison a p).sram = s.sram := (rfl)
@[simp] theorem State.setPoison_rlines (s : State) (a p) : (s.setPoison a p).rlines = s.rlines := (rfl)
@[simp] theorem State.setPoison_peerTx (s : State) (a p) : (s.setPoison a p).peerTx = s.peerTx := (rfl)
@[simp] theorem State.setPoison_peerOut (s : State) (a p) : (s.setPoison a p).peerOut = s.peerOut := (rfl)
@[simp] theorem State.setPoison_blocked (s : State) (a p) : (s.setPoison a p).blocked = s.blocked := (rfl)
@[simp] theorem State.setPoison_postings (s : State) (a p) : (s.setPoison a p).postings = s.postings := (rfl)
@[simp] theorem State.setPoison_cellLocks (s : State) (a p) : (s.setPoison a p).cellLocks = s.cellLocks := (rfl)
@[simp] theorem State.setPoison_lockWaits (s : State) (a p) : (s.setPoison a p).lockWaits = s.lockWaits := (rfl)
@[simp] theorem State.setPoison_lockRels (s : State) (a p) : (s.setPoison a p).lockRels = s.lockRels := (rfl)
@[simp] theorem State.setPoison_staging (s : State) (a p) : (s.setPoison a p).staging = s.staging := (rfl)
@[simp] theorem State.setPoison_jPrev (s : State) (a p) : (s.setPoison a p).jPrev = s.jPrev := (rfl)
@[simp] theorem State.setPoison_jMirPend (s : State) (a p) : (s.setPoison a p).jMirPend = s.jMirPend := (rfl)
@[simp] theorem State.setPoison_jSeen (s : State) (a p) : (s.setPoison a p).jSeen = s.jSeen := (rfl)
@[simp] theorem State.setPoison_flushes (s : State) (a p) : (s.setPoison a p).flushes = s.flushes := (rfl)
@[simp] theorem State.setPoison_jDirty (s : State) (a p) : (s.setPoison a p).jDirty = s.jDirty := (rfl)
@[simp] theorem State.setPoison_parts (s : State) (a p) : (s.setPoison a p).parts = s.parts := (rfl)
@[simp] theorem State.setPoison_cmtNotes (s : State) (a p) : (s.setPoison a p).cmtNotes = s.cmtNotes := (rfl)
@[simp] theorem State.setPoison_jWait (s : State) (a p) : (s.setPoison a p).jWait = s.jWait := (rfl)
@[simp] theorem State.setPoison_sealed (s : State) (a p) : (s.setPoison a p).sealed = s.sealed := (rfl)
@[simp] theorem State.setPoison_xcache (s : State) (a p) : (s.setPoison a p).xcache = s.xcache := (rfl)
@[simp] theorem State.setPoison_drained (s : State) (a p) : (s.setPoison a p).drained = s.drained := (rfl)
@[simp] theorem State.setPoison_jParts (s : State) (a p) : (s.setPoison a p).jParts = s.jParts := (rfl)
@[simp] theorem State.setPoison_l2dir (s : State) (a p) : (s.setPoison a p).l2dir = s.l2dir := (rfl)
@[simp] theorem State.setPoison_l2s (s : State) (a p) : (s.setPoison a p).l2s = s.l2s := (rfl)
@[simp] theorem State.setPoison_dramBad (s : State) (a p) : (s.setPoison a p).dramBad = s.dramBad := (rfl)
@[simp] theorem State.setPoison_rdir (s : State) (a p) : (s.setPoison a p).rdir = s.rdir := (rfl)
@[simp] theorem State.setPoison_snoops (s : State) (a p) : (s.setPoison a p).snoops = s.snoops := (rfl)
@[simp] theorem State.setPoison_homeReqs (s : State) (a p) : (s.setPoison a p).homeReqs = s.homeReqs := (rfl)
@[simp] theorem State.setPoison_devMem (s : State) (a p) : (s.setPoison a p).devMem = s.devMem := (rfl)
@[simp] theorem State.setPoison_devPoison (s : State) (a p) : (s.setPoison a p).devPoison = s.devPoison := (rfl)
@[simp] theorem State.setPoison_held (s : State) (a p) : (s.setPoison a p).held = s.held := (rfl)
@[simp] theorem State.setPoison_layouts (s : State) (a p) : (s.setPoison a p).layouts = s.layouts := (rfl)
@[simp] theorem State.setPoison_links (s : State) (a p) : (s.setPoison a p).links = s.links := (rfl)
@[simp] theorem State.setPoison_atsInvs (s : State) (a p) : (s.setPoison a p).atsInvs = s.atsInvs := (rfl)
@[simp] theorem State.setPoison_invHeld (s : State) (a p) : (s.setPoison a p).invHeld = s.invHeld := (rfl)
@[simp] theorem State.setPoison_answer (s : State) (a p) : (s.setPoison a p).answer = s.answer := (rfl)
@[simp] theorem State.setPoison_guardOld (s : State) (a p) : (s.setPoison a p).guardOld = s.guardOld := (rfl)
@[simp] theorem State.setPoison_fncs (s : State) (a p) : (s.setPoison a p).fncs = s.fncs := (rfl)
@[simp] theorem State.setPoison_ringWaits (s : State) (a p) : (s.setPoison a p).ringWaits = s.ringWaits := (rfl)
@[simp] theorem State.setPoison_laneWrites (s : State) (a p) : (s.setPoison a p).laneWrites = s.laneWrites := (rfl)
@[simp] theorem State.setPoison_dmaOut (s : State) (a p) : (s.setPoison a p).dmaOut = s.dmaOut := (rfl)
@[simp] theorem State.setPoison_pfwParts (s : State) (a p) : (s.setPoison a p).pfwParts = s.pfwParts := (rfl)
@[simp] theorem State.setPoison_cxlLost (s : State) (a p) : (s.setPoison a p).cxlLost = s.cxlLost := (rfl)
@[simp] theorem State.setPoison_prq (s : State) (a p) : (s.setPoison a p).prq = s.prq := (rfl)
@[simp] theorem State.setPoison_follow (s : State) (a p) : (s.setPoison a p).follow = s.follow := (rfl)
@[simp] theorem State.setPoison_followRate (s : State) (a p) : (s.setPoison a p).followRate = s.followRate := (rfl)
@[simp] theorem State.setPoison_pins (s : State) (a p) : (s.setPoison a p).pins = s.pins := (rfl)
@[simp] theorem State.setPoison_flash (s : State) (a p) : (s.setPoison a p).flash = s.flash := (rfl)
@[simp] theorem State.setPoison_flashSize (s : State) (a p) : (s.setPoison a p).flashSize = s.flashSize := (rfl)
@[simp] theorem State.setPoison_flashOp (s : State) (a p) : (s.setPoison a p).flashOp = s.flashOp := (rfl)
@[simp] theorem State.setPoison_boot (s : State) (a p) : (s.setPoison a p).boot = s.boot := (rfl)
@[simp] theorem State.setPoison_unitOps (s : State) (a p) : (s.setPoison a p).unitOps = s.unitOps := (rfl)
@[simp] theorem State.setPoison_byCluster (s : State) (a p) : (s.setPoison a p).byCluster = s.byCluster := (rfl)
@[simp] theorem State.setPoison_clkStopped (s : State) (a p) : (s.setPoison a p).clkStopped = s.clkStopped := (rfl)
@[simp] theorem State.setPoison_brum (s : State) (a p) : (s.setPoison a p).brum = s.brum := (rfl)
@[simp] theorem State.setPoison_injDue (s : State) (a p) : (s.setPoison a p).injDue = s.injDue := (rfl)
@[simp] theorem State.setPoison_injNext (s : State) (a p) : (s.setPoison a p).injNext = s.injNext := (rfl)
@[simp] theorem State.setPoison_snapAt (s : State) (a p) : (s.setPoison a p).snapAt = s.snapAt := (rfl)
@[simp] theorem State.setPoison_dbgFailAt (s : State) (a p) : (s.setPoison a p).dbgFailAt = s.dbgFailAt := (rfl)
@[simp] theorem State.setPoison_pwrLow (s : State) (a p) : (s.setPoison a p).pwrLow = s.pwrLow := (rfl)
@[simp] theorem State.setPoison_pwrHeld (s : State) (a p) : (s.setPoison a p).pwrHeld = s.pwrHeld := (rfl)
@[simp] theorem State.setPoison_hot (s : State) (a p) : (s.setPoison a p).hot = s.hot := (rfl)
@[simp] theorem State.setPoison_adjAcc (s : State) (a p) : (s.setPoison a p).adjAcc = s.adjAcc := (rfl)
@[simp] theorem State.setPoison_adjWait (s : State) (a p) : (s.setPoison a p).adjWait = s.adjWait := (rfl)
@[simp] theorem State.setPoison_tap (s : State) (a p) : (s.setPoison a p).tap = s.tap := (rfl)

/-! setDirty -/

@[simp] theorem State.setDirty_pending (s : State) (a d) : (s.setDirty a d).pending = s.pending := (rfl)
@[simp] theorem State.setDirty_inReset (s : State) (a d) : (s.setDirty a d).inReset = s.inReset := (rfl)
@[simp] theorem State.setDirty_mode (s : State) (a d) : (s.setDirty a d).mode = s.mode := (rfl)
@[simp] theorem State.setDirty_time (s : State) (a d) : (s.setDirty a d).time = s.time := (rfl)
@[simp] theorem State.setDirty_free (s : State) (a d) : (s.setDirty a d).free = s.free := (rfl)
@[simp] theorem State.setDirty_csr (s : State) (a d) : (s.setDirty a d).csr = s.csr := (rfl)
@[simp] theorem State.setDirty_cores (s : State) (a d) : (s.setDirty a d).cores = s.cores := (rfl)
@[simp] theorem State.setDirty_socket (s : State) (a d) : (s.setDirty a d).socket = s.socket := (rfl)
@[simp] theorem State.setDirty_mem (s : State) (a d) : (s.setDirty a d).mem = s.mem := (rfl)
@[simp] theorem State.setDirty_tags (s : State) (a d) : (s.setDirty a d).tags = s.tags := (rfl)
@[simp] theorem State.setDirty_poison (s : State) (a d) : (s.setDirty a d).poison = s.poison := (rfl)
@[simp] theorem State.setDirty_back (s : State) (a d) : (s.setDirty a d).back = s.back := (rfl)
@[simp] theorem State.setDirty_purseDir (s : State) (a d) : (s.setDirty a d).purseDir = s.purseDir := (rfl)
@[simp] theorem State.setDirty_purseWrs (s : State) (a d) : (s.setDirty a d).purseWrs = s.purseWrs := (rfl)
@[simp] theorem State.setDirty_purseDone (s : State) (a d) : (s.setDirty a d).purseDone = s.purseDone := (rfl)
@[simp] theorem State.setDirty_fences (s : State) (a d) : (s.setDirty a d).fences = s.fences := (rfl)
@[simp] theorem State.setDirty_nextId (s : State) (a d) : (s.setDirty a d).nextId = s.nextId := (rfl)
@[simp] theorem State.setDirty_sweep (s : State) (a d) : (s.setDirty a d).sweep = s.sweep := (rfl)
@[simp] theorem State.setDirty_dbCnt (s : State) (a d) : (s.setDirty a d).dbCnt = s.dbCnt := (rfl)
@[simp] theorem State.setDirty_dbDue (s : State) (a d) : (s.setDirty a d).dbDue = s.dbDue := (rfl)
@[simp] theorem State.setDirty_dbPriv (s : State) (a d) : (s.setDirty a d).dbPriv = s.dbPriv := (rfl)
@[simp] theorem State.setDirty_dbLine (s : State) (a d) : (s.setDirty a d).dbLine = s.dbLine := (rfl)
@[simp] theorem State.setDirty_dbMsgs (s : State) (a d) : (s.setDirty a d).dbMsgs = s.dbMsgs := (rfl)
@[simp] theorem State.setDirty_dbOld (s : State) (a d) : (s.setDirty a d).dbOld = s.dbOld := (rfl)
@[simp] theorem State.setDirty_seq (s : State) (a d) : (s.setDirty a d).seq = s.seq := (rfl)
@[simp] theorem State.setDirty_sram (s : State) (a d) : (s.setDirty a d).sram = s.sram := (rfl)
@[simp] theorem State.setDirty_rlines (s : State) (a d) : (s.setDirty a d).rlines = s.rlines := (rfl)
@[simp] theorem State.setDirty_peerTx (s : State) (a d) : (s.setDirty a d).peerTx = s.peerTx := (rfl)
@[simp] theorem State.setDirty_peerOut (s : State) (a d) : (s.setDirty a d).peerOut = s.peerOut := (rfl)
@[simp] theorem State.setDirty_blocked (s : State) (a d) : (s.setDirty a d).blocked = s.blocked := (rfl)
@[simp] theorem State.setDirty_postings (s : State) (a d) : (s.setDirty a d).postings = s.postings := (rfl)
@[simp] theorem State.setDirty_cellLocks (s : State) (a d) : (s.setDirty a d).cellLocks = s.cellLocks := (rfl)
@[simp] theorem State.setDirty_lockWaits (s : State) (a d) : (s.setDirty a d).lockWaits = s.lockWaits := (rfl)
@[simp] theorem State.setDirty_lockRels (s : State) (a d) : (s.setDirty a d).lockRels = s.lockRels := (rfl)
@[simp] theorem State.setDirty_staging (s : State) (a d) : (s.setDirty a d).staging = s.staging := (rfl)
@[simp] theorem State.setDirty_jPrev (s : State) (a d) : (s.setDirty a d).jPrev = s.jPrev := (rfl)
@[simp] theorem State.setDirty_jMirPend (s : State) (a d) : (s.setDirty a d).jMirPend = s.jMirPend := (rfl)
@[simp] theorem State.setDirty_jSeen (s : State) (a d) : (s.setDirty a d).jSeen = s.jSeen := (rfl)
@[simp] theorem State.setDirty_flushes (s : State) (a d) : (s.setDirty a d).flushes = s.flushes := (rfl)
@[simp] theorem State.setDirty_jDirty (s : State) (a d) : (s.setDirty a d).jDirty = s.jDirty := (rfl)
@[simp] theorem State.setDirty_parts (s : State) (a d) : (s.setDirty a d).parts = s.parts := (rfl)
@[simp] theorem State.setDirty_cmtNotes (s : State) (a d) : (s.setDirty a d).cmtNotes = s.cmtNotes := (rfl)
@[simp] theorem State.setDirty_jWait (s : State) (a d) : (s.setDirty a d).jWait = s.jWait := (rfl)
@[simp] theorem State.setDirty_sealed (s : State) (a d) : (s.setDirty a d).sealed = s.sealed := (rfl)
@[simp] theorem State.setDirty_xcache (s : State) (a d) : (s.setDirty a d).xcache = s.xcache := (rfl)
@[simp] theorem State.setDirty_drained (s : State) (a d) : (s.setDirty a d).drained = s.drained := (rfl)
@[simp] theorem State.setDirty_jParts (s : State) (a d) : (s.setDirty a d).jParts = s.jParts := (rfl)
@[simp] theorem State.setDirty_l2dir (s : State) (a d) : (s.setDirty a d).l2dir = s.l2dir := (rfl)
@[simp] theorem State.setDirty_l2s (s : State) (a d) : (s.setDirty a d).l2s = s.l2s := (rfl)
@[simp] theorem State.setDirty_dramBad (s : State) (a d) : (s.setDirty a d).dramBad = s.dramBad := (rfl)
@[simp] theorem State.setDirty_rdir (s : State) (a d) : (s.setDirty a d).rdir = s.rdir := (rfl)
@[simp] theorem State.setDirty_snoops (s : State) (a d) : (s.setDirty a d).snoops = s.snoops := (rfl)
@[simp] theorem State.setDirty_homeReqs (s : State) (a d) : (s.setDirty a d).homeReqs = s.homeReqs := (rfl)
@[simp] theorem State.setDirty_devMem (s : State) (a d) : (s.setDirty a d).devMem = s.devMem := (rfl)
@[simp] theorem State.setDirty_devPoison (s : State) (a d) : (s.setDirty a d).devPoison = s.devPoison := (rfl)
@[simp] theorem State.setDirty_held (s : State) (a d) : (s.setDirty a d).held = s.held := (rfl)
@[simp] theorem State.setDirty_layouts (s : State) (a d) : (s.setDirty a d).layouts = s.layouts := (rfl)
@[simp] theorem State.setDirty_links (s : State) (a d) : (s.setDirty a d).links = s.links := (rfl)
@[simp] theorem State.setDirty_atsInvs (s : State) (a d) : (s.setDirty a d).atsInvs = s.atsInvs := (rfl)
@[simp] theorem State.setDirty_invHeld (s : State) (a d) : (s.setDirty a d).invHeld = s.invHeld := (rfl)
@[simp] theorem State.setDirty_answer (s : State) (a d) : (s.setDirty a d).answer = s.answer := (rfl)
@[simp] theorem State.setDirty_guardOld (s : State) (a d) : (s.setDirty a d).guardOld = s.guardOld := (rfl)
@[simp] theorem State.setDirty_fncs (s : State) (a d) : (s.setDirty a d).fncs = s.fncs := (rfl)
@[simp] theorem State.setDirty_ringWaits (s : State) (a d) : (s.setDirty a d).ringWaits = s.ringWaits := (rfl)
@[simp] theorem State.setDirty_laneWrites (s : State) (a d) : (s.setDirty a d).laneWrites = s.laneWrites := (rfl)
@[simp] theorem State.setDirty_dmaOut (s : State) (a d) : (s.setDirty a d).dmaOut = s.dmaOut := (rfl)
@[simp] theorem State.setDirty_pfwParts (s : State) (a d) : (s.setDirty a d).pfwParts = s.pfwParts := (rfl)
@[simp] theorem State.setDirty_cxlLost (s : State) (a d) : (s.setDirty a d).cxlLost = s.cxlLost := (rfl)
@[simp] theorem State.setDirty_prq (s : State) (a d) : (s.setDirty a d).prq = s.prq := (rfl)
@[simp] theorem State.setDirty_follow (s : State) (a d) : (s.setDirty a d).follow = s.follow := (rfl)
@[simp] theorem State.setDirty_followRate (s : State) (a d) : (s.setDirty a d).followRate = s.followRate := (rfl)
@[simp] theorem State.setDirty_pins (s : State) (a d) : (s.setDirty a d).pins = s.pins := (rfl)
@[simp] theorem State.setDirty_flash (s : State) (a d) : (s.setDirty a d).flash = s.flash := (rfl)
@[simp] theorem State.setDirty_flashSize (s : State) (a d) : (s.setDirty a d).flashSize = s.flashSize := (rfl)
@[simp] theorem State.setDirty_flashOp (s : State) (a d) : (s.setDirty a d).flashOp = s.flashOp := (rfl)
@[simp] theorem State.setDirty_boot (s : State) (a d) : (s.setDirty a d).boot = s.boot := (rfl)
@[simp] theorem State.setDirty_unitOps (s : State) (a d) : (s.setDirty a d).unitOps = s.unitOps := (rfl)
@[simp] theorem State.setDirty_byCluster (s : State) (a d) : (s.setDirty a d).byCluster = s.byCluster := (rfl)
@[simp] theorem State.setDirty_clkStopped (s : State) (a d) : (s.setDirty a d).clkStopped = s.clkStopped := (rfl)
@[simp] theorem State.setDirty_brum (s : State) (a d) : (s.setDirty a d).brum = s.brum := (rfl)
@[simp] theorem State.setDirty_injDue (s : State) (a d) : (s.setDirty a d).injDue = s.injDue := (rfl)
@[simp] theorem State.setDirty_injNext (s : State) (a d) : (s.setDirty a d).injNext = s.injNext := (rfl)
@[simp] theorem State.setDirty_snapAt (s : State) (a d) : (s.setDirty a d).snapAt = s.snapAt := (rfl)
@[simp] theorem State.setDirty_dbgFailAt (s : State) (a d) : (s.setDirty a d).dbgFailAt = s.dbgFailAt := (rfl)
@[simp] theorem State.setDirty_pwrLow (s : State) (a d) : (s.setDirty a d).pwrLow = s.pwrLow := (rfl)
@[simp] theorem State.setDirty_pwrHeld (s : State) (a d) : (s.setDirty a d).pwrHeld = s.pwrHeld := (rfl)
@[simp] theorem State.setDirty_hot (s : State) (a d) : (s.setDirty a d).hot = s.hot := (rfl)
@[simp] theorem State.setDirty_adjAcc (s : State) (a d) : (s.setDirty a d).adjAcc = s.adjAcc := (rfl)
@[simp] theorem State.setDirty_adjWait (s : State) (a d) : (s.setDirty a d).adjWait = s.adjWait := (rfl)
@[simp] theorem State.setDirty_tap (s : State) (a d) : (s.setDirty a d).tap = s.tap := (rfl)

/-! block -/

@[simp] theorem State.block_pending (s : State) : (s.block).pending = s.pending := (rfl)
@[simp] theorem State.block_inReset (s : State) : (s.block).inReset = s.inReset := (rfl)
@[simp] theorem State.block_mode (s : State) : (s.block).mode = s.mode := (rfl)
@[simp] theorem State.block_time (s : State) : (s.block).time = s.time := (rfl)
@[simp] theorem State.block_free (s : State) : (s.block).free = s.free := (rfl)
@[simp] theorem State.block_csr (s : State) : (s.block).csr = s.csr := (rfl)
@[simp] theorem State.block_cores (s : State) : (s.block).cores = s.cores := (rfl)
@[simp] theorem State.block_socket (s : State) : (s.block).socket = s.socket := (rfl)
@[simp] theorem State.block_mem (s : State) : (s.block).mem = s.mem := (rfl)
@[simp] theorem State.block_tags (s : State) : (s.block).tags = s.tags := (rfl)
@[simp] theorem State.block_poison (s : State) : (s.block).poison = s.poison := (rfl)
@[simp] theorem State.block_back (s : State) : (s.block).back = s.back := (rfl)
@[simp] theorem State.block_dirty (s : State) : (s.block).dirty = s.dirty := (rfl)
@[simp] theorem State.block_purseDir (s : State) : (s.block).purseDir = s.purseDir := (rfl)
@[simp] theorem State.block_purseWrs (s : State) : (s.block).purseWrs = s.purseWrs := (rfl)
@[simp] theorem State.block_purseDone (s : State) : (s.block).purseDone = s.purseDone := (rfl)
@[simp] theorem State.block_fences (s : State) : (s.block).fences = s.fences := (rfl)
@[simp] theorem State.block_nextId (s : State) : (s.block).nextId = s.nextId := (rfl)
@[simp] theorem State.block_sweep (s : State) : (s.block).sweep = s.sweep := (rfl)
@[simp] theorem State.block_dbCnt (s : State) : (s.block).dbCnt = s.dbCnt := (rfl)
@[simp] theorem State.block_dbDue (s : State) : (s.block).dbDue = s.dbDue := (rfl)
@[simp] theorem State.block_dbPriv (s : State) : (s.block).dbPriv = s.dbPriv := (rfl)
@[simp] theorem State.block_dbLine (s : State) : (s.block).dbLine = s.dbLine := (rfl)
@[simp] theorem State.block_dbMsgs (s : State) : (s.block).dbMsgs = s.dbMsgs := (rfl)
@[simp] theorem State.block_dbOld (s : State) : (s.block).dbOld = s.dbOld := (rfl)
@[simp] theorem State.block_seq (s : State) : (s.block).seq = s.seq := (rfl)
@[simp] theorem State.block_sram (s : State) : (s.block).sram = s.sram := (rfl)
@[simp] theorem State.block_rlines (s : State) : (s.block).rlines = s.rlines := (rfl)
@[simp] theorem State.block_peerTx (s : State) : (s.block).peerTx = s.peerTx := (rfl)
@[simp] theorem State.block_peerOut (s : State) : (s.block).peerOut = s.peerOut := (rfl)
@[simp] theorem State.block_postings (s : State) : (s.block).postings = s.postings := (rfl)
@[simp] theorem State.block_cellLocks (s : State) : (s.block).cellLocks = s.cellLocks := (rfl)
@[simp] theorem State.block_lockWaits (s : State) : (s.block).lockWaits = s.lockWaits := (rfl)
@[simp] theorem State.block_lockRels (s : State) : (s.block).lockRels = s.lockRels := (rfl)
@[simp] theorem State.block_staging (s : State) : (s.block).staging = s.staging := (rfl)
@[simp] theorem State.block_jPrev (s : State) : (s.block).jPrev = s.jPrev := (rfl)
@[simp] theorem State.block_jMirPend (s : State) : (s.block).jMirPend = s.jMirPend := (rfl)
@[simp] theorem State.block_jSeen (s : State) : (s.block).jSeen = s.jSeen := (rfl)
@[simp] theorem State.block_flushes (s : State) : (s.block).flushes = s.flushes := (rfl)
@[simp] theorem State.block_jDirty (s : State) : (s.block).jDirty = s.jDirty := (rfl)
@[simp] theorem State.block_parts (s : State) : (s.block).parts = s.parts := (rfl)
@[simp] theorem State.block_cmtNotes (s : State) : (s.block).cmtNotes = s.cmtNotes := (rfl)
@[simp] theorem State.block_jWait (s : State) : (s.block).jWait = s.jWait := (rfl)
@[simp] theorem State.block_sealed (s : State) : (s.block).sealed = s.sealed := (rfl)
@[simp] theorem State.block_xcache (s : State) : (s.block).xcache = s.xcache := (rfl)
@[simp] theorem State.block_drained (s : State) : (s.block).drained = s.drained := (rfl)
@[simp] theorem State.block_jParts (s : State) : (s.block).jParts = s.jParts := (rfl)
@[simp] theorem State.block_l2dir (s : State) : (s.block).l2dir = s.l2dir := (rfl)
@[simp] theorem State.block_l2s (s : State) : (s.block).l2s = s.l2s := (rfl)
@[simp] theorem State.block_dramBad (s : State) : (s.block).dramBad = s.dramBad := (rfl)
@[simp] theorem State.block_rdir (s : State) : (s.block).rdir = s.rdir := (rfl)
@[simp] theorem State.block_snoops (s : State) : (s.block).snoops = s.snoops := (rfl)
@[simp] theorem State.block_homeReqs (s : State) : (s.block).homeReqs = s.homeReqs := (rfl)
@[simp] theorem State.block_devMem (s : State) : (s.block).devMem = s.devMem := (rfl)
@[simp] theorem State.block_devPoison (s : State) : (s.block).devPoison = s.devPoison := (rfl)
@[simp] theorem State.block_held (s : State) : (s.block).held = s.held := (rfl)
@[simp] theorem State.block_layouts (s : State) : (s.block).layouts = s.layouts := (rfl)
@[simp] theorem State.block_links (s : State) : (s.block).links = s.links := (rfl)
@[simp] theorem State.block_atsInvs (s : State) : (s.block).atsInvs = s.atsInvs := (rfl)
@[simp] theorem State.block_invHeld (s : State) : (s.block).invHeld = s.invHeld := (rfl)
@[simp] theorem State.block_answer (s : State) : (s.block).answer = s.answer := (rfl)
@[simp] theorem State.block_guardOld (s : State) : (s.block).guardOld = s.guardOld := (rfl)
@[simp] theorem State.block_fncs (s : State) : (s.block).fncs = s.fncs := (rfl)
@[simp] theorem State.block_ringWaits (s : State) : (s.block).ringWaits = s.ringWaits := (rfl)
@[simp] theorem State.block_laneWrites (s : State) : (s.block).laneWrites = s.laneWrites := (rfl)
@[simp] theorem State.block_dmaOut (s : State) : (s.block).dmaOut = s.dmaOut := (rfl)
@[simp] theorem State.block_pfwParts (s : State) : (s.block).pfwParts = s.pfwParts := (rfl)
@[simp] theorem State.block_cxlLost (s : State) : (s.block).cxlLost = s.cxlLost := (rfl)
@[simp] theorem State.block_prq (s : State) : (s.block).prq = s.prq := (rfl)
@[simp] theorem State.block_follow (s : State) : (s.block).follow = s.follow := (rfl)
@[simp] theorem State.block_followRate (s : State) : (s.block).followRate = s.followRate := (rfl)
@[simp] theorem State.block_pins (s : State) : (s.block).pins = s.pins := (rfl)
@[simp] theorem State.block_flash (s : State) : (s.block).flash = s.flash := (rfl)
@[simp] theorem State.block_flashSize (s : State) : (s.block).flashSize = s.flashSize := (rfl)
@[simp] theorem State.block_flashOp (s : State) : (s.block).flashOp = s.flashOp := (rfl)
@[simp] theorem State.block_boot (s : State) : (s.block).boot = s.boot := (rfl)
@[simp] theorem State.block_unitOps (s : State) : (s.block).unitOps = s.unitOps := (rfl)
@[simp] theorem State.block_byCluster (s : State) : (s.block).byCluster = s.byCluster := (rfl)
@[simp] theorem State.block_clkStopped (s : State) : (s.block).clkStopped = s.clkStopped := (rfl)
@[simp] theorem State.block_brum (s : State) : (s.block).brum = s.brum := (rfl)
@[simp] theorem State.block_injDue (s : State) : (s.block).injDue = s.injDue := (rfl)
@[simp] theorem State.block_injNext (s : State) : (s.block).injNext = s.injNext := (rfl)
@[simp] theorem State.block_snapAt (s : State) : (s.block).snapAt = s.snapAt := (rfl)
@[simp] theorem State.block_dbgFailAt (s : State) : (s.block).dbgFailAt = s.dbgFailAt := (rfl)
@[simp] theorem State.block_pwrLow (s : State) : (s.block).pwrLow = s.pwrLow := (rfl)
@[simp] theorem State.block_pwrHeld (s : State) : (s.block).pwrHeld = s.pwrHeld := (rfl)
@[simp] theorem State.block_hot (s : State) : (s.block).hot = s.hot := (rfl)
@[simp] theorem State.block_adjAcc (s : State) : (s.block).adjAcc = s.adjAcc := (rfl)
@[simp] theorem State.block_adjWait (s : State) : (s.block).adjWait = s.adjWait := (rfl)
@[simp] theorem State.block_tap (s : State) : (s.block).tap = s.tap := (rfl)

/-! unblock -/

@[simp] theorem State.unblock_pending (s : State) : (s.unblock).pending = s.pending := (rfl)
@[simp] theorem State.unblock_inReset (s : State) : (s.unblock).inReset = s.inReset := (rfl)
@[simp] theorem State.unblock_mode (s : State) : (s.unblock).mode = s.mode := (rfl)
@[simp] theorem State.unblock_time (s : State) : (s.unblock).time = s.time := (rfl)
@[simp] theorem State.unblock_free (s : State) : (s.unblock).free = s.free := (rfl)
@[simp] theorem State.unblock_csr (s : State) : (s.unblock).csr = s.csr := (rfl)
@[simp] theorem State.unblock_cores (s : State) : (s.unblock).cores = s.cores := (rfl)
@[simp] theorem State.unblock_socket (s : State) : (s.unblock).socket = s.socket := (rfl)
@[simp] theorem State.unblock_mem (s : State) : (s.unblock).mem = s.mem := (rfl)
@[simp] theorem State.unblock_tags (s : State) : (s.unblock).tags = s.tags := (rfl)
@[simp] theorem State.unblock_poison (s : State) : (s.unblock).poison = s.poison := (rfl)
@[simp] theorem State.unblock_back (s : State) : (s.unblock).back = s.back := (rfl)
@[simp] theorem State.unblock_dirty (s : State) : (s.unblock).dirty = s.dirty := (rfl)
@[simp] theorem State.unblock_purseDir (s : State) : (s.unblock).purseDir = s.purseDir := (rfl)
@[simp] theorem State.unblock_purseWrs (s : State) : (s.unblock).purseWrs = s.purseWrs := (rfl)
@[simp] theorem State.unblock_purseDone (s : State) : (s.unblock).purseDone = s.purseDone := (rfl)
@[simp] theorem State.unblock_fences (s : State) : (s.unblock).fences = s.fences := (rfl)
@[simp] theorem State.unblock_nextId (s : State) : (s.unblock).nextId = s.nextId := (rfl)
@[simp] theorem State.unblock_sweep (s : State) : (s.unblock).sweep = s.sweep := (rfl)
@[simp] theorem State.unblock_dbCnt (s : State) : (s.unblock).dbCnt = s.dbCnt := (rfl)
@[simp] theorem State.unblock_dbDue (s : State) : (s.unblock).dbDue = s.dbDue := (rfl)
@[simp] theorem State.unblock_dbPriv (s : State) : (s.unblock).dbPriv = s.dbPriv := (rfl)
@[simp] theorem State.unblock_dbLine (s : State) : (s.unblock).dbLine = s.dbLine := (rfl)
@[simp] theorem State.unblock_dbMsgs (s : State) : (s.unblock).dbMsgs = s.dbMsgs := (rfl)
@[simp] theorem State.unblock_dbOld (s : State) : (s.unblock).dbOld = s.dbOld := (rfl)
@[simp] theorem State.unblock_seq (s : State) : (s.unblock).seq = s.seq := (rfl)
@[simp] theorem State.unblock_sram (s : State) : (s.unblock).sram = s.sram := (rfl)
@[simp] theorem State.unblock_rlines (s : State) : (s.unblock).rlines = s.rlines := (rfl)
@[simp] theorem State.unblock_peerTx (s : State) : (s.unblock).peerTx = s.peerTx := (rfl)
@[simp] theorem State.unblock_peerOut (s : State) : (s.unblock).peerOut = s.peerOut := (rfl)
@[simp] theorem State.unblock_postings (s : State) : (s.unblock).postings = s.postings := (rfl)
@[simp] theorem State.unblock_cellLocks (s : State) : (s.unblock).cellLocks = s.cellLocks := (rfl)
@[simp] theorem State.unblock_lockWaits (s : State) : (s.unblock).lockWaits = s.lockWaits := (rfl)
@[simp] theorem State.unblock_lockRels (s : State) : (s.unblock).lockRels = s.lockRels := (rfl)
@[simp] theorem State.unblock_staging (s : State) : (s.unblock).staging = s.staging := (rfl)
@[simp] theorem State.unblock_jPrev (s : State) : (s.unblock).jPrev = s.jPrev := (rfl)
@[simp] theorem State.unblock_jMirPend (s : State) : (s.unblock).jMirPend = s.jMirPend := (rfl)
@[simp] theorem State.unblock_jSeen (s : State) : (s.unblock).jSeen = s.jSeen := (rfl)
@[simp] theorem State.unblock_flushes (s : State) : (s.unblock).flushes = s.flushes := (rfl)
@[simp] theorem State.unblock_jDirty (s : State) : (s.unblock).jDirty = s.jDirty := (rfl)
@[simp] theorem State.unblock_parts (s : State) : (s.unblock).parts = s.parts := (rfl)
@[simp] theorem State.unblock_cmtNotes (s : State) : (s.unblock).cmtNotes = s.cmtNotes := (rfl)
@[simp] theorem State.unblock_jWait (s : State) : (s.unblock).jWait = s.jWait := (rfl)
@[simp] theorem State.unblock_sealed (s : State) : (s.unblock).sealed = s.sealed := (rfl)
@[simp] theorem State.unblock_xcache (s : State) : (s.unblock).xcache = s.xcache := (rfl)
@[simp] theorem State.unblock_drained (s : State) : (s.unblock).drained = s.drained := (rfl)
@[simp] theorem State.unblock_jParts (s : State) : (s.unblock).jParts = s.jParts := (rfl)
@[simp] theorem State.unblock_l2dir (s : State) : (s.unblock).l2dir = s.l2dir := (rfl)
@[simp] theorem State.unblock_l2s (s : State) : (s.unblock).l2s = s.l2s := (rfl)
@[simp] theorem State.unblock_dramBad (s : State) : (s.unblock).dramBad = s.dramBad := (rfl)
@[simp] theorem State.unblock_rdir (s : State) : (s.unblock).rdir = s.rdir := (rfl)
@[simp] theorem State.unblock_snoops (s : State) : (s.unblock).snoops = s.snoops := (rfl)
@[simp] theorem State.unblock_homeReqs (s : State) : (s.unblock).homeReqs = s.homeReqs := (rfl)
@[simp] theorem State.unblock_devMem (s : State) : (s.unblock).devMem = s.devMem := (rfl)
@[simp] theorem State.unblock_devPoison (s : State) : (s.unblock).devPoison = s.devPoison := (rfl)
@[simp] theorem State.unblock_held (s : State) : (s.unblock).held = s.held := (rfl)
@[simp] theorem State.unblock_layouts (s : State) : (s.unblock).layouts = s.layouts := (rfl)
@[simp] theorem State.unblock_links (s : State) : (s.unblock).links = s.links := (rfl)
@[simp] theorem State.unblock_atsInvs (s : State) : (s.unblock).atsInvs = s.atsInvs := (rfl)
@[simp] theorem State.unblock_invHeld (s : State) : (s.unblock).invHeld = s.invHeld := (rfl)
@[simp] theorem State.unblock_answer (s : State) : (s.unblock).answer = s.answer := (rfl)
@[simp] theorem State.unblock_guardOld (s : State) : (s.unblock).guardOld = s.guardOld := (rfl)
@[simp] theorem State.unblock_fncs (s : State) : (s.unblock).fncs = s.fncs := (rfl)
@[simp] theorem State.unblock_ringWaits (s : State) : (s.unblock).ringWaits = s.ringWaits := (rfl)
@[simp] theorem State.unblock_laneWrites (s : State) : (s.unblock).laneWrites = s.laneWrites := (rfl)
@[simp] theorem State.unblock_dmaOut (s : State) : (s.unblock).dmaOut = s.dmaOut := (rfl)
@[simp] theorem State.unblock_pfwParts (s : State) : (s.unblock).pfwParts = s.pfwParts := (rfl)
@[simp] theorem State.unblock_cxlLost (s : State) : (s.unblock).cxlLost = s.cxlLost := (rfl)
@[simp] theorem State.unblock_prq (s : State) : (s.unblock).prq = s.prq := (rfl)
@[simp] theorem State.unblock_follow (s : State) : (s.unblock).follow = s.follow := (rfl)
@[simp] theorem State.unblock_followRate (s : State) : (s.unblock).followRate = s.followRate := (rfl)
@[simp] theorem State.unblock_pins (s : State) : (s.unblock).pins = s.pins := (rfl)
@[simp] theorem State.unblock_flash (s : State) : (s.unblock).flash = s.flash := (rfl)
@[simp] theorem State.unblock_flashSize (s : State) : (s.unblock).flashSize = s.flashSize := (rfl)
@[simp] theorem State.unblock_flashOp (s : State) : (s.unblock).flashOp = s.flashOp := (rfl)
@[simp] theorem State.unblock_boot (s : State) : (s.unblock).boot = s.boot := (rfl)
@[simp] theorem State.unblock_unitOps (s : State) : (s.unblock).unitOps = s.unitOps := (rfl)
@[simp] theorem State.unblock_byCluster (s : State) : (s.unblock).byCluster = s.byCluster := (rfl)
@[simp] theorem State.unblock_clkStopped (s : State) : (s.unblock).clkStopped = s.clkStopped := (rfl)
@[simp] theorem State.unblock_brum (s : State) : (s.unblock).brum = s.brum := (rfl)
@[simp] theorem State.unblock_injDue (s : State) : (s.unblock).injDue = s.injDue := (rfl)
@[simp] theorem State.unblock_injNext (s : State) : (s.unblock).injNext = s.injNext := (rfl)
@[simp] theorem State.unblock_snapAt (s : State) : (s.unblock).snapAt = s.snapAt := (rfl)
@[simp] theorem State.unblock_dbgFailAt (s : State) : (s.unblock).dbgFailAt = s.dbgFailAt := (rfl)
@[simp] theorem State.unblock_pwrLow (s : State) : (s.unblock).pwrLow = s.pwrLow := (rfl)
@[simp] theorem State.unblock_pwrHeld (s : State) : (s.unblock).pwrHeld = s.pwrHeld := (rfl)
@[simp] theorem State.unblock_hot (s : State) : (s.unblock).hot = s.hot := (rfl)
@[simp] theorem State.unblock_adjAcc (s : State) : (s.unblock).adjAcc = s.adjAcc := (rfl)
@[simp] theorem State.unblock_adjWait (s : State) : (s.unblock).adjWait = s.adjWait := (rfl)
@[simp] theorem State.unblock_tap (s : State) : (s.unblock).tap = s.tap := (rfl)

/-! The fields that the updates write -/

@[simp] theorem State.bumpFree_free (s : State) : s.bumpFree.free = s.free + 1 := (rfl)
@[simp] theorem State.block_blocked (s : State) : s.block.blocked = true := (rfl)
@[simp] theorem State.unblock_blocked (s : State) : s.unblock.blocked = false := (rfl)
@[simp] theorem State.blockIf_false (s : State) : s.blockIf false = s := (rfl)
@[simp] theorem State.blockIf_true (s : State) : s.blockIf true = s.block := (rfl)

/-! Cores -/

@[simp] theorem State.core_setCore_same (s : State) (k : CoreId) (c) : (s.setCore k c).core k = c := by simp [State.core, State.setCore]
theorem State.core_setCore_other (s : State) {k j : CoreId} (c) (h : j ≠ k) : (s.setCore k c).core j = s.core j := by
  simp only [State.core, State.setCore, Fin.getElem_fin]
  exact Vector.getElem_set_ne _ _ fun h' => h (Fin.ext h'.symm)
@[simp] theorem State.core_modCore_same (s : State) (k : CoreId) (f) : (s.modCore k f).core k = f (s.core k) := State.core_setCore_same ..
theorem State.core_modCore_other (s : State) {k j : CoreId} (f) (h : j ≠ k) : (s.modCore k f).core j = s.core j := State.core_setCore_other _ _ h
@[simp] theorem State.setCore_setCore (s : State) (k : CoreId) (c d) : (s.setCore k c).setCore k d = s.setCore k d := by
  simp [State.setCore]
@[simp] theorem State.modCore_modCore (s : State) (k : CoreId) (f g) : (s.modCore k f).modCore k g = s.modCore k fun c => g (f c) := by
  simp [State.modCore]
@[simp] theorem State.setCore_self (s : State) (k : CoreId) : s.setCore k (s.core k) = s := by simp [State.setCore, State.core]
theorem State.modCore_eq_setCore (s : State) (k : CoreId) (f) : s.modCore k f = s.setCore k (f (s.core k)) := (rfl)
@[simp] theorem State.core_setReg (s : State) (n v) (k : CoreId) : (s.setReg n v).core k = s.core k := (rfl)
@[simp] theorem State.core_setRf (s : State) (n f v) (k : CoreId) : (s.setRf n f v).core k = s.core k := (rfl)
@[simp] theorem State.core_incRf (s : State) (n f) (k : CoreId) : (s.incRf n f).core k = s.core k := (rfl)
@[simp] theorem State.core_setMemB (s : State) (a b) (k : CoreId) : (s.setMemB a b).core k = s.core k := (rfl)
@[simp] theorem State.core_bumpFree (s : State) (k : CoreId) : s.bumpFree.core k = s.core k := (rfl)
@[simp] theorem State.core_block (s : State) (k : CoreId) : s.block.core k = s.core k := (rfl)
@[simp] theorem State.core_unblock (s : State) (k : CoreId) : s.unblock.core k = s.core k := (rfl)

/-! Control-space registers -/

@[simp] theorem State.reg_setReg_same (s : State) (k v) : (s.setReg k v).reg k = v := by simp [State.reg, State.setReg]
theorem State.reg_setReg_other (s : State) {k j : Nat} (v) (h : j ≠ k) : (s.setReg k v).reg j = s.reg j := SMap.get_set_other _ _ h
theorem State.reg_setReg (s : State) (k j v) : (s.setReg k v).reg j = if j = k then v else s.reg j := SMap.get_set ..
theorem State.reg_setRf_other (s : State) {k j : Nat} (f n) (h : j ≠ k) : (s.setRf k f n).reg j = s.reg j := SMap.get_set_other _ _ h
theorem State.reg_incRf_other (s : State) {k j : Nat} (f) (h : j ≠ k) : (s.incRf k f).reg j = s.reg j := SMap.get_set_other _ _ h
@[simp] theorem State.reg_setRf_same (s : State) (k f n) : (s.setRf k f n).reg k = setF (s.reg k) f n := State.reg_setReg_same ..
@[simp] theorem State.reg_setCore (s : State) (k c n) : (s.setCore k c).reg n = s.reg n := (rfl)
@[simp] theorem State.reg_modCore (s : State) (k f n) : (s.modCore k f).reg n = s.reg n := (rfl)
@[simp] theorem State.reg_setMemB (s : State) (a b n) : (s.setMemB a b).reg n = s.reg n := (rfl)
@[simp] theorem State.reg_setTag (s : State) (a b n) : (s.setTag a b).reg n = s.reg n := (rfl)
@[simp] theorem State.reg_setPoison (s : State) (a b n) : (s.setPoison a b).reg n = s.reg n := (rfl)
@[simp] theorem State.reg_bumpFree (s : State) (n) : s.bumpFree.reg n = s.reg n := (rfl)

/-! Bytes, tags and poison -/

@[simp] theorem State.memB_setMemB_same (s : State) (a b) : (s.setMemB a b).memB a = b := by simp [State.memB, State.setMemB]
theorem State.memB_setMemB_other (s : State) {a x : Nat} (b) (h : x ≠ a) : (s.setMemB a b).memB x = s.memB x := SMap.get_set_other _ _ h
theorem State.memB_setMemB (s : State) (a x b) : (s.setMemB a b).memB x = if x = a then b else s.memB x := SMap.get_set ..
theorem State.tagAt_setTag (s : State) (a x t) : (s.setTag a t).tagAt x = if x / 16 = a / 16 then t else s.tagAt x := SMap.get_set ..
theorem State.poisoned_setPoison (s : State) (a x p) : (s.setPoison a p).poisoned x = if x / 64 = a / 64 then p else s.poisoned x :=
  SMap.get_set ..
@[simp] theorem State.memB_setCore (s : State) (k c a) : (s.setCore k c).memB a = s.memB a := (rfl)
@[simp] theorem State.memB_modCore (s : State) (k f a) : (s.modCore k f).memB a = s.memB a := (rfl)
@[simp] theorem State.memB_setReg (s : State) (k v a) : (s.setReg k v).memB a = s.memB a := (rfl)
@[simp] theorem State.memB_setTag (s : State) (k v a) : (s.setTag k v).memB a = s.memB a := (rfl)

/-- The bytes written read back, and every other byte reads as before. -/
theorem State.memB_putBytes (s : State) (a x : Nat) (bs : List Byte) :
    (s.putBytes a bs).memB x = if a ≤ x ∧ x < a + bs.length then bs.getD (x - a) 0 else s.memB x := by
  induction bs generalizing s a with
  | nil => simp [State.putBytes]
  | cons b bs ih =>
    simp only [State.putBytes, ih, State.memB_setMemB, List.length_cons]
    by_cases h : x = a
    · subst h; simp
    · by_cases h2 : a + 1 ≤ x ∧ x < a + 1 + bs.length
      · rw [if_pos h2, if_pos (by omega), show x - a = x - (a + 1) + 1 by omega]; simp
      · rw [if_neg h2, if_neg h, if_neg (by omega)]

@[simp] theorem State.readBytes_length (s : State) (a n : Nat) : (s.readBytes a n).length = n := by
  induction n generalizing a with
  | zero => rfl
  | succ n ih => simp [State.readBytes, ih]

theorem State.readBytes_getD (s : State) (a n j : Nat) (h : j < n) : (s.readBytes a n).getD j 0 = s.memB (a + j) := by
  induction n generalizing a j with
  | zero => omega
  | succ n ih =>
    cases j with
    | zero => simp [State.readBytes]
    | succ j =>
      have := ih (a + 1) j (by omega)
      simp only [State.readBytes, List.getD_cons_succ, this]
      congr 1; omega

/-- putBytes writes memory and nothing else. -/
theorem State.putBytes_mem (s : State) (a : Nat) (bs : List Byte) : s.putBytes a bs = { s with mem := (s.putBytes a bs).mem } := by
  induction bs generalizing s a with
  | nil => rfl
  | cons b bs ih => simp only [State.putBytes]; rw [ih]; rfl

/-- Each memory operation keeps the canonical form of the map it writes. -/
theorem State.setMemB_wf {s : State} (a b) (h : SMap.wf zeroByte s.mem = true) : SMap.wf zeroByte (s.setMemB a b).mem = true :=
  SMap.wf_set _ _ h
theorem State.putBytes_wf {s : State} (a : Nat) (bs : List Byte) (h : SMap.wf zeroByte s.mem = true) :
    SMap.wf zeroByte (s.putBytes a bs).mem = true := by
  induction bs generalizing s a with
  | nil => exact h
  | cons b bs ih => exact ih _ (State.setMemB_wf a b h)
theorem State.setTag_wf {s : State} (a t) (h : SMap.wf noFlag s.tags = true) : SMap.wf noFlag (s.setTag a t).tags = true := SMap.wf_set _ _ h
theorem State.setPoison_wf {s : State} (a p) (h : SMap.wf noFlag s.poison = true) : SMap.wf noFlag (s.setPoison a p).poison = true :=
  SMap.wf_set _ _ h
theorem State.setReg_wf {s : State} (k v) (h : SMap.wf ctlReset s.csr = true) : SMap.wf ctlReset (s.setReg k v).csr = true := SMap.wf_set _ _ h

/-! Core state registers -/

@[simp] theorem CoreState.csGet_csSet_same (c : CoreState) (i v) : (c.csSet i v).csGet i = v := by simp [CoreState.csGet, CoreState.csSet]
theorem CoreState.csGet_csSet (c : CoreState) (i j v) : (c.csSet i v).csGet j = if j = i then v else c.csGet j := SMap.get_set ..
theorem CoreState.csGet_csSetF (c : CoreState) (i j f n) :
    (c.csSetF i f n).csGet j = if j = i then setF (c.csGet i) f n else c.csGet j := SMap.get_set ..
@[simp] theorem CoreState.ccGet_ccSet_same (c : CoreState) (i v) : (c.ccSet i v).ccGet i = v := by simp [CoreState.ccGet, CoreState.ccSet]
theorem CoreState.ccGet_ccSet (c : CoreState) (i j v) : (c.ccSet i v).ccGet j = if j = i then v else c.ccGet j := SMap.get_set ..
@[simp] theorem CoreState.ccGet_csSet (c : CoreState) (i v j) : (c.csSet i v).ccGet j = c.ccGet j := (rfl)
@[simp] theorem CoreState.csGet_ccSet (c : CoreState) (i v j) : (c.ccSet i v).csGet j = c.csGet j := (rfl)

@[simp] theorem CoreState.csSet_run (c : CoreState) (i v) : (c.csSet i v).run = c.run := (rfl)
@[simp] theorem CoreState.csSet_g (c : CoreState) (i v) : (c.csSet i v).g = c.g := (rfl)
@[simp] theorem CoreState.csSet_gg (c : CoreState) (i v) : (c.csSet i v).gg = c.gg := (rfl)
@[simp] theorem CoreState.csSet_c (c : CoreState) (i v) : (c.csSet i v).c = c.c := (rfl)
@[simp] theorem CoreState.csSet_gc (c : CoreState) (i v) : (c.csSet i v).gc = c.gc := (rfl)
@[simp] theorem CoreState.csSet_v (c : CoreState) (i v) : (c.csSet i v).v = c.v := (rfl)
@[simp] theorem CoreState.csSet_m (c : CoreState) (i v) : (c.csSet i v).m = c.m := (rfl)
@[simp] theorem CoreState.csSet_h (c : CoreState) (i v) : (c.csSet i v).h = c.h := (rfl)
@[simp] theorem CoreState.csSet_pcc (c : CoreState) (i v) : (c.csSet i v).pcc = c.pcc := (rfl)
@[simp] theorem CoreState.csSet_ccs (c : CoreState) (i v) : (c.csSet i v).ccs = c.ccs := (rfl)
@[simp] theorem CoreState.csSet_pfx (c : CoreState) (i v) : (c.csSet i v).pfx = c.pfx := (rfl)
@[simp] theorem CoreState.csSet_shadow (c : CoreState) (i v) : (c.csSet i v).shadow = c.shadow := (rfl)
@[simp] theorem CoreState.csSet_loads (c : CoreState) (i v) : (c.csSet i v).loads = c.loads := (rfl)
@[simp] theorem CoreState.csSet_longs (c : CoreState) (i v) : (c.csSet i v).longs = c.longs := (rfl)
@[simp] theorem CoreState.csSet_opCount (c : CoreState) (i v) : (c.csSet i v).opCount = c.opCount := (rfl)
@[simp] theorem CoreState.csSet_sb (c : CoreState) (i v) : (c.csSet i v).sb = c.sb := (rfl)
@[simp] theorem CoreState.csSet_fenceLL (c : CoreState) (i v) : (c.csSet i v).fenceLL = c.fenceLL := (rfl)
@[simp] theorem CoreState.csSet_fenceSL (c : CoreState) (i v) : (c.csSet i v).fenceSL = c.fenceSL := (rfl)
@[simp] theorem CoreState.csSet_ax (c : CoreState) (i v) : (c.csSet i v).ax = c.ax := (rfl)
@[simp] theorem CoreState.csSet_refused (c : CoreState) (i v) : (c.csSet i v).refused = c.refused := (rfl)
@[simp] theorem CoreState.csSet_notices (c : CoreState) (i v) : (c.csSet i v).notices = c.notices := (rfl)
@[simp] theorem CoreState.csSet_lineN (c : CoreState) (i v) : (c.csSet i v).lineN = c.lineN := (rfl)
@[simp] theorem CoreState.csSet_lineG (c : CoreState) (i v) : (c.csSet i v).lineG = c.lineG := (rfl)
@[simp] theorem CoreState.csSet_tlb (c : CoreState) (i v) : (c.csSet i v).tlb = c.tlb := (rfl)
@[simp] theorem CoreState.csSet_walk (c : CoreState) (i v) : (c.csSet i v).walk = c.walk := (rfl)
@[simp] theorem CoreState.csSet_pcache (c : CoreState) (i v) : (c.csSet i v).pcache = c.pcache := (rfl)
@[simp] theorem CoreState.csSet_reserve (c : CoreState) (i v) : (c.csSet i v).reserve = c.reserve := (rfl)
@[simp] theorem CoreState.csSet_refill (c : CoreState) (i v) : (c.csSet i v).refill = c.refill := (rfl)
@[simp] theorem CoreState.csSet_recallW (c : CoreState) (i v) : (c.csSet i v).recallW = c.recallW := (rfl)
@[simp] theorem CoreState.csSet_posts (c : CoreState) (i v) : (c.csSet i v).posts = c.posts := (rfl)
@[simp] theorem CoreState.csSet_lastTime (c : CoreState) (i v) : (c.csSet i v).lastTime = c.lastTime := (rfl)
@[simp] theorem CoreState.csSet_flight (c : CoreState) (i v) : (c.csSet i v).flight = c.flight := (rfl)
@[simp] theorem CoreState.csSet_skipSet (c : CoreState) (i v) : (c.csSet i v).skipSet = c.skipSet := (rfl)
@[simp] theorem CoreState.csSet_step (c : CoreState) (i v) : (c.csSet i v).step = c.step := (rfl)
@[simp] theorem CoreState.csSetF_run (c : CoreState) (i f n) : (c.csSetF i f n).run = c.run := (rfl)
@[simp] theorem CoreState.csSetF_g (c : CoreState) (i f n) : (c.csSetF i f n).g = c.g := (rfl)
@[simp] theorem CoreState.csSetF_gg (c : CoreState) (i f n) : (c.csSetF i f n).gg = c.gg := (rfl)
@[simp] theorem CoreState.csSetF_c (c : CoreState) (i f n) : (c.csSetF i f n).c = c.c := (rfl)
@[simp] theorem CoreState.csSetF_gc (c : CoreState) (i f n) : (c.csSetF i f n).gc = c.gc := (rfl)
@[simp] theorem CoreState.csSetF_v (c : CoreState) (i f n) : (c.csSetF i f n).v = c.v := (rfl)
@[simp] theorem CoreState.csSetF_m (c : CoreState) (i f n) : (c.csSetF i f n).m = c.m := (rfl)
@[simp] theorem CoreState.csSetF_h (c : CoreState) (i f n) : (c.csSetF i f n).h = c.h := (rfl)
@[simp] theorem CoreState.csSetF_pcc (c : CoreState) (i f n) : (c.csSetF i f n).pcc = c.pcc := (rfl)
@[simp] theorem CoreState.csSetF_ccs (c : CoreState) (i f n) : (c.csSetF i f n).ccs = c.ccs := (rfl)
@[simp] theorem CoreState.csSetF_pfx (c : CoreState) (i f n) : (c.csSetF i f n).pfx = c.pfx := (rfl)
@[simp] theorem CoreState.csSetF_shadow (c : CoreState) (i f n) : (c.csSetF i f n).shadow = c.shadow := (rfl)
@[simp] theorem CoreState.csSetF_loads (c : CoreState) (i f n) : (c.csSetF i f n).loads = c.loads := (rfl)
@[simp] theorem CoreState.csSetF_longs (c : CoreState) (i f n) : (c.csSetF i f n).longs = c.longs := (rfl)
@[simp] theorem CoreState.csSetF_opCount (c : CoreState) (i f n) : (c.csSetF i f n).opCount = c.opCount := (rfl)
@[simp] theorem CoreState.csSetF_sb (c : CoreState) (i f n) : (c.csSetF i f n).sb = c.sb := (rfl)
@[simp] theorem CoreState.csSetF_fenceLL (c : CoreState) (i f n) : (c.csSetF i f n).fenceLL = c.fenceLL := (rfl)
@[simp] theorem CoreState.csSetF_fenceSL (c : CoreState) (i f n) : (c.csSetF i f n).fenceSL = c.fenceSL := (rfl)
@[simp] theorem CoreState.csSetF_ax (c : CoreState) (i f n) : (c.csSetF i f n).ax = c.ax := (rfl)
@[simp] theorem CoreState.csSetF_refused (c : CoreState) (i f n) : (c.csSetF i f n).refused = c.refused := (rfl)
@[simp] theorem CoreState.csSetF_notices (c : CoreState) (i f n) : (c.csSetF i f n).notices = c.notices := (rfl)
@[simp] theorem CoreState.csSetF_lineN (c : CoreState) (i f n) : (c.csSetF i f n).lineN = c.lineN := (rfl)
@[simp] theorem CoreState.csSetF_lineG (c : CoreState) (i f n) : (c.csSetF i f n).lineG = c.lineG := (rfl)
@[simp] theorem CoreState.csSetF_tlb (c : CoreState) (i f n) : (c.csSetF i f n).tlb = c.tlb := (rfl)
@[simp] theorem CoreState.csSetF_walk (c : CoreState) (i f n) : (c.csSetF i f n).walk = c.walk := (rfl)
@[simp] theorem CoreState.csSetF_pcache (c : CoreState) (i f n) : (c.csSetF i f n).pcache = c.pcache := (rfl)
@[simp] theorem CoreState.csSetF_reserve (c : CoreState) (i f n) : (c.csSetF i f n).reserve = c.reserve := (rfl)
@[simp] theorem CoreState.csSetF_refill (c : CoreState) (i f n) : (c.csSetF i f n).refill = c.refill := (rfl)
@[simp] theorem CoreState.csSetF_recallW (c : CoreState) (i f n) : (c.csSetF i f n).recallW = c.recallW := (rfl)
@[simp] theorem CoreState.csSetF_posts (c : CoreState) (i f n) : (c.csSetF i f n).posts = c.posts := (rfl)
@[simp] theorem CoreState.csSetF_lastTime (c : CoreState) (i f n) : (c.csSetF i f n).lastTime = c.lastTime := (rfl)
@[simp] theorem CoreState.csSetF_flight (c : CoreState) (i f n) : (c.csSetF i f n).flight = c.flight := (rfl)
@[simp] theorem CoreState.csSetF_skipSet (c : CoreState) (i f n) : (c.csSetF i f n).skipSet = c.skipSet := (rfl)
@[simp] theorem CoreState.csSetF_step (c : CoreState) (i f n) : (c.csSetF i f n).step = c.step := (rfl)
@[simp] theorem CoreState.ccSet_run (c : CoreState) (i v) : (c.ccSet i v).run = c.run := (rfl)
@[simp] theorem CoreState.ccSet_g (c : CoreState) (i v) : (c.ccSet i v).g = c.g := (rfl)
@[simp] theorem CoreState.ccSet_gg (c : CoreState) (i v) : (c.ccSet i v).gg = c.gg := (rfl)
@[simp] theorem CoreState.ccSet_c (c : CoreState) (i v) : (c.ccSet i v).c = c.c := (rfl)
@[simp] theorem CoreState.ccSet_gc (c : CoreState) (i v) : (c.ccSet i v).gc = c.gc := (rfl)
@[simp] theorem CoreState.ccSet_v (c : CoreState) (i v) : (c.ccSet i v).v = c.v := (rfl)
@[simp] theorem CoreState.ccSet_m (c : CoreState) (i v) : (c.ccSet i v).m = c.m := (rfl)
@[simp] theorem CoreState.ccSet_h (c : CoreState) (i v) : (c.ccSet i v).h = c.h := (rfl)
@[simp] theorem CoreState.ccSet_pcc (c : CoreState) (i v) : (c.ccSet i v).pcc = c.pcc := (rfl)
@[simp] theorem CoreState.ccSet_cs (c : CoreState) (i v) : (c.ccSet i v).cs = c.cs := (rfl)
@[simp] theorem CoreState.ccSet_pfx (c : CoreState) (i v) : (c.ccSet i v).pfx = c.pfx := (rfl)
@[simp] theorem CoreState.ccSet_shadow (c : CoreState) (i v) : (c.ccSet i v).shadow = c.shadow := (rfl)
@[simp] theorem CoreState.ccSet_loads (c : CoreState) (i v) : (c.ccSet i v).loads = c.loads := (rfl)
@[simp] theorem CoreState.ccSet_longs (c : CoreState) (i v) : (c.ccSet i v).longs = c.longs := (rfl)
@[simp] theorem CoreState.ccSet_opCount (c : CoreState) (i v) : (c.ccSet i v).opCount = c.opCount := (rfl)
@[simp] theorem CoreState.ccSet_sb (c : CoreState) (i v) : (c.ccSet i v).sb = c.sb := (rfl)
@[simp] theorem CoreState.ccSet_fenceLL (c : CoreState) (i v) : (c.ccSet i v).fenceLL = c.fenceLL := (rfl)
@[simp] theorem CoreState.ccSet_fenceSL (c : CoreState) (i v) : (c.ccSet i v).fenceSL = c.fenceSL := (rfl)
@[simp] theorem CoreState.ccSet_ax (c : CoreState) (i v) : (c.ccSet i v).ax = c.ax := (rfl)
@[simp] theorem CoreState.ccSet_refused (c : CoreState) (i v) : (c.ccSet i v).refused = c.refused := (rfl)
@[simp] theorem CoreState.ccSet_notices (c : CoreState) (i v) : (c.ccSet i v).notices = c.notices := (rfl)
@[simp] theorem CoreState.ccSet_lineN (c : CoreState) (i v) : (c.ccSet i v).lineN = c.lineN := (rfl)
@[simp] theorem CoreState.ccSet_lineG (c : CoreState) (i v) : (c.ccSet i v).lineG = c.lineG := (rfl)
@[simp] theorem CoreState.ccSet_tlb (c : CoreState) (i v) : (c.ccSet i v).tlb = c.tlb := (rfl)
@[simp] theorem CoreState.ccSet_walk (c : CoreState) (i v) : (c.ccSet i v).walk = c.walk := (rfl)
@[simp] theorem CoreState.ccSet_pcache (c : CoreState) (i v) : (c.ccSet i v).pcache = c.pcache := (rfl)
@[simp] theorem CoreState.ccSet_reserve (c : CoreState) (i v) : (c.ccSet i v).reserve = c.reserve := (rfl)
@[simp] theorem CoreState.ccSet_refill (c : CoreState) (i v) : (c.ccSet i v).refill = c.refill := (rfl)
@[simp] theorem CoreState.ccSet_recallW (c : CoreState) (i v) : (c.ccSet i v).recallW = c.recallW := (rfl)
@[simp] theorem CoreState.ccSet_posts (c : CoreState) (i v) : (c.ccSet i v).posts = c.posts := (rfl)
@[simp] theorem CoreState.ccSet_lastTime (c : CoreState) (i v) : (c.ccSet i v).lastTime = c.lastTime := (rfl)
@[simp] theorem CoreState.ccSet_flight (c : CoreState) (i v) : (c.ccSet i v).flight = c.flight := (rfl)
@[simp] theorem CoreState.ccSet_skipSet (c : CoreState) (i v) : (c.ccSet i v).skipSet = c.skipSet := (rfl)
@[simp] theorem CoreState.ccSet_step (c : CoreState) (i v) : (c.ccSet i v).step = c.step := (rfl)

/-! A register write (R99): what it leaves alone -/

@[simp] theorem CoreState.write_run (c : CoreState) (d x) : (c.write d x).run = c.run := by
  unfold CoreState.write; repeat' split
  all_goals rfl
@[simp] theorem CoreState.write_pcc (c : CoreState) (d x) : (c.write d x).pcc = c.pcc := by
  unfold CoreState.write; repeat' split
  all_goals rfl
@[simp] theorem CoreState.write_cs (c : CoreState) (d x) : (c.write d x).cs = c.cs := by
  unfold CoreState.write; repeat' split
  all_goals rfl
@[simp] theorem CoreState.write_ccs (c : CoreState) (d x) : (c.write d x).ccs = c.ccs := by
  unfold CoreState.write; repeat' split
  all_goals rfl
@[simp] theorem CoreState.write_pfx (c : CoreState) (d x) : (c.write d x).pfx = c.pfx := by
  unfold CoreState.write; repeat' split
  all_goals rfl
@[simp] theorem CoreState.write_shadow (c : CoreState) (d x) : (c.write d x).shadow = c.shadow := by
  unfold CoreState.write; repeat' split
  all_goals rfl
@[simp] theorem CoreState.write_loads (c : CoreState) (d x) : (c.write d x).loads = c.loads := by
  unfold CoreState.write; repeat' split
  all_goals rfl
@[simp] theorem CoreState.write_longs (c : CoreState) (d x) : (c.write d x).longs = c.longs := by
  unfold CoreState.write; repeat' split
  all_goals rfl
@[simp] theorem CoreState.write_opCount (c : CoreState) (d x) : (c.write d x).opCount = c.opCount := by
  unfold CoreState.write; repeat' split
  all_goals rfl
@[simp] theorem CoreState.write_sb (c : CoreState) (d x) : (c.write d x).sb = c.sb := by
  unfold CoreState.write; repeat' split
  all_goals rfl
@[simp] theorem CoreState.write_fenceLL (c : CoreState) (d x) : (c.write d x).fenceLL = c.fenceLL := by
  unfold CoreState.write; repeat' split
  all_goals rfl
@[simp] theorem CoreState.write_fenceSL (c : CoreState) (d x) : (c.write d x).fenceSL = c.fenceSL := by
  unfold CoreState.write; repeat' split
  all_goals rfl
@[simp] theorem CoreState.write_ax (c : CoreState) (d x) : (c.write d x).ax = c.ax := by
  unfold CoreState.write; repeat' split
  all_goals rfl
@[simp] theorem CoreState.write_refused (c : CoreState) (d x) : (c.write d x).refused = c.refused := by
  unfold CoreState.write; repeat' split
  all_goals rfl
@[simp] theorem CoreState.write_notices (c : CoreState) (d x) : (c.write d x).notices = c.notices := by
  unfold CoreState.write; repeat' split
  all_goals rfl
@[simp] theorem CoreState.write_lineN (c : CoreState) (d x) : (c.write d x).lineN = c.lineN := by
  unfold CoreState.write; repeat' split
  all_goals rfl
@[simp] theorem CoreState.write_lineG (c : CoreState) (d x) : (c.write d x).lineG = c.lineG := by
  unfold CoreState.write; repeat' split
  all_goals rfl
@[simp] theorem CoreState.write_tlb (c : CoreState) (d x) : (c.write d x).tlb = c.tlb := by
  unfold CoreState.write; repeat' split
  all_goals rfl
@[simp] theorem CoreState.write_walk (c : CoreState) (d x) : (c.write d x).walk = c.walk := by
  unfold CoreState.write; repeat' split
  all_goals rfl
@[simp] theorem CoreState.write_pcache (c : CoreState) (d x) : (c.write d x).pcache = c.pcache := by
  unfold CoreState.write; repeat' split
  all_goals rfl
@[simp] theorem CoreState.write_reserve (c : CoreState) (d x) : (c.write d x).reserve = c.reserve := by
  unfold CoreState.write; repeat' split
  all_goals rfl
@[simp] theorem CoreState.write_refill (c : CoreState) (d x) : (c.write d x).refill = c.refill := by
  unfold CoreState.write; repeat' split
  all_goals rfl
@[simp] theorem CoreState.write_recallW (c : CoreState) (d x) : (c.write d x).recallW = c.recallW := by
  unfold CoreState.write; repeat' split
  all_goals rfl
@[simp] theorem CoreState.write_posts (c : CoreState) (d x) : (c.write d x).posts = c.posts := by
  unfold CoreState.write; repeat' split
  all_goals rfl
@[simp] theorem CoreState.write_lastTime (c : CoreState) (d x) : (c.write d x).lastTime = c.lastTime := by
  unfold CoreState.write; repeat' split
  all_goals rfl
@[simp] theorem CoreState.write_flight (c : CoreState) (d x) : (c.write d x).flight = c.flight := by
  unfold CoreState.write; repeat' split
  all_goals rfl
@[simp] theorem CoreState.write_skipSet (c : CoreState) (d x) : (c.write d x).skipSet = c.skipSet := by
  unfold CoreState.write; repeat' split
  all_goals rfl
@[simp] theorem CoreState.write_step (c : CoreState) (d x) : (c.write d x).step = c.step := by
  unfold CoreState.write; repeat' split
  all_goals rfl

/-- No write reaches entry 0 of the general registers. -/
theorem CoreState.write_g0 (c : CoreState) (d x) : (c.write d x).g[0] = c.g[0] := by
  unfold CoreState.write
  repeat' split
  all_goals first | rfl | exact Vector.getElem_set_ne (Nat.mod_lt _ (by decide)) _ (by assumption)

end Sys2Proof.Machine
end

