-- ==== Sys2Proof/Laws/Issue.lean ====
section
/-!
SUPPORT. The one course of an instruction that reaches its own effect: what `coreInstr` and `k16` answer, given what the body does.
-/
namespace Sys2Proof.Machine

@[simp] theorem setTags_blocked (s : State) (a n t) : (s.setTags a n t).blocked = s.blocked := by
  unfold State.setTags
  rw [foldl_keeps State.blocked]; intro b a; rfl
@[simp] theorem markDirty_blocked (s : State) (a n) : (s.markDirty a n).blocked = s.blocked := by
  unfold State.markDirty
  rw [foldl_keeps State.blocked]; intro b a; rfl
@[simp] theorem putBytes_blocked (s : State) (a bs) : (s.putBytes a bs).blocked = s.blocked := by rw [State.putBytes_mem]

/-! A write that is over when the step is waits for nothing -/

@[simp] theorem eachCore_blocked (s : State) (f) : (s.eachCore f).blocked = s.blocked := by
  unfold State.eachCore
  generalize Vector.ofFn (fun k => f k s.cores[k]) = v
  rfl
@[simp] theorem purseDrop_blocked (s : State) (is n) : (s.purseDrop is n).blocked = s.blocked := by
  unfold State.purseDrop
  refine (foldl_keeps State.blocked _ ?_ is _).trans (eachCore_blocked ..)
  intro b a; rfl
@[simp] theorem purseInval_blocked (s : State) (id n) : (s.purseInval id n).blocked = s.blocked := by
  unfold State.purseInval
  split
  · exact purseDrop_blocked ..
  · split
    · exact purseDrop_blocked ..
    · rfl
@[simp] theorem signal_blocked (s : State) (a) : (s.signal a).blocked = s.blocked := by cases a <;> rfl
@[simp] theorem purseCompleted_blocked (s : State) (id) : (s.purseCompleted id).blocked = s.blocked := by
  have h := eachCore_blocked s fun _ c => { c with sb := sbDrop (·.wait == .purse id) false c.sb }
  unfold State.purseCompleted
  generalize (s.eachCore fun _ c => { c with sb := sbDrop (·.wait == .purse id) false c.sb }) = t at *
  refine (foldl_keeps State.blocked _ ?_ _ _).trans h
  intro b a; exact signal_blocked b a.act
@[simp] theorem purseAck_blocked (s : State) (id n) : (s.purseAck id n).blocked = s.blocked := by
  unfold State.purseAck
  simp only
  split
  · exact purseCompleted_blocked ..
  · rfl
@[simp] theorem finishPurseWr_blocked (s : State) (id) : (s.finishPurseWr id).blocked = s.blocked := by
  unfold State.finishPurseWr
  rw [foldl_keeps State.blocked]; intro b a; simp
@[simp] theorem finishSince_blocked (s : State) (n) : (s.finishSince n).blocked = s.blocked := by
  unfold State.finishSince
  rw [foldl_keeps State.blocked]; intro b a; simp
@[simp] theorem finishLine_blocked (s : State) (a) : (s.finishLine a).blocked = s.blocked := by
  unfold State.finishLine
  rw [foldl_keeps State.blocked]; intro b a; simp
@[simp] theorem startPurseWr_blocked (s : State) (is c) : (s.startPurseWr is c).blocked = s.blocked := by
  unfold State.startPurseWr
  simp only
  split
  · rfl
  · simp
@[simp] theorem copyBack_blocked (s : State) (a n) : (s.copyBack a n).blocked = s.blocked := by
  induction n generalizing s a with
  | zero => rfl
  | succ n ih => simp [State.copyBack, ih]
@[simp] theorem localWrite_blocked (s : State) (a bs tr c k) : (s.localWrite a bs tr c k).s.blocked = s.blocked := by
  unfold State.localWrite
  simp only [startPurseWr_blocked]
  rw [foldl_keeps State.blocked, foldl_keeps State.blocked, foldl_keeps State.blocked]
  · intro b a; split <;> simp
  · intro b a; split <;> simp
  · intro b a
    split
    · simp only [State.setDirty_blocked]; repeat' split
      all_goals rfl
    · simp only [copyBack_blocked]; repeat' split
      all_goals rfl
@[simp] theorem settledWrite_blocked (s : State) (a bs c) : (s.settledWrite a bs c).s.blocked = s.blocked := by
  unfold State.settledWrite
  simp only [finishSince_blocked, localWrite_blocked]
  rw [foldl_keeps State.blocked]; intro b a; simp

/-- A trace record is written without a wait. -/
@[simp] theorem trace_blocked (s : State) (u ty src dst) : (s.trace u ty src dst).blocked = s.blocked := by
  unfold State.trace
  split
  · rfl
  · simp only
    split
    · rfl
    · split <;> simp

/-- An instruction completes without a wait, wherever it goes on. -/
@[simp] theorem complete_blocked (s : State) (k load len n) : (s.complete k load len n).blocked = s.blocked := by
  unfold State.complete
  split
  · rfl
  · cases n <;> simp [State.transfer]
@[simp] theorem complete_pend (s : State) (k load len) : s.complete k load len .pend = s := by simp [State.complete]

theorem Reaches.unblocked {k : CoreId} {i : Insn} {len : Nat} {s s₁ : State} (h : Reaches k i len s s₁) : s₁.blocked = false :=
  h.2.2.elim fun _ h => h.2.2.2.2
theorem ReachesK16.unblocked {k : CoreId} {i : Insn} {s s₁ : State} (h : ReachesK16 k i s s₁) : s₁.blocked = false :=
  h.2.2.elim fun _ h => h.2.2.2

/-- A watchpoint test that goes through leaves the state alone (R451). -/
theorem watch_ok {k : CoreId} {cb : Coin} {o : Int} {n : Nat} {rd wr : Bool} {s t : State} {u : Unit}
    (h : watch k cb o n rd wr s = .ok u t) : t = s := by
  unfold watch at h
  simp only at h
  split at h
  · simpa using h.symm
  · split at h <;> simp at h
theorem vWatch_ok {k : CoreId} {form : VForm} {store : Bool} {base : Coin} {n : Nat} {es : List (Nat × Int)} {s t : State} {u : Unit}
    (h : vWatch k form store base n es s = .ok u t) : t = s := by
  induction es generalizing s with
  | nil => simpa [vWatch, pure, EStateM.pure] using h.symm
  | cons e r ih =>
    obtain ⟨i, o⟩ := e
    simp only [vWatch, bind, EStateM.bind, vTrapped] at h
    cases hw : watch k base o n (!store) store s with
    | ok u s₁ =>
      simp only [hw] at h
      rw [ih h, watch_ok hw]
    | error e s₁ => cases e <;> simp [hw] at h

/-- An instruction that ends without a wait leaves what its computation leaves. -/
theorem runInsn_ok {s t : State} {k : CoreId} {w : Nat} {m : CM Unit} (h : m s = .ok () t) (hb : t.blocked = false) : s.runInsn k w m = t := by
  simp [State.runInsn, State.runOr, h, hb]

/-- The instruction in flight, if any, is the one that issues. -/
theorem flight_getD {o : Option Nat} {x : Nat} (h : ∀ w, o = some w → w = x) : (o.getD x == x) = true := by
  cases o with
  | none => simp
  | some w => simp [h w rfl]

/-- Every native instruction answers a next state. -/
theorem coreInstr_completes (k : CoreId) (i : Insn) (body : CM Next) (s : State) : ∃ t, coreInstr k i body s = .next t := by
  unfold coreInstr
  split <;> exact ⟨_, rfl⟩

/-- Every K16 instruction answers a next state. -/
theorem k16_completes (k : CoreId) (i : Insn) (body : CM Next) (s : State) : ∃ t, k16 k i body s = .next t := by
  unfold k16
  split <;> exact ⟨_, rfl⟩

/-- A native instruction that reaches its body, the body going on as `n` says without a wait, answers its completion. -/
theorem coreInstr_reaches {k : CoreId} {i : Insn} {len : Nat} {s s₁ s₂ : State} {body : CM Next} {n : Next}
    (h : Reaches k i len s s₁) (hb : body s₁ = .ok n s₂) (hn : ∀ r, n ≠ .enter r)
    (hbl : (s₂.complete k i.load len n).blocked = false) :
    coreInstr k i body s = Done k i len n s₂ := by
  obtain ⟨hi, hw, s₀, h0, hd, hl, hf, -⟩ := h
  subst hl
  have hdue : (if ((s₀.core k).pfx.isNone && (s₀.core k).flight.isNone) = true then (s₀.core k).due else none) = none := by
    split
    · next h =>
      rw [Bool.and_eq_true] at h
      exact hd (by simpa using h.1) (by simpa using h.2)
    · rfl
  have : insnM k i body s = .ok () (s₂.complete k i.load (if (s₀.core k).pfx.isSome then 8 else 4) n) := by
    unfold insnM
    simp only [bind, EStateM.bind, h0, getC, hdue, hf, hb]
    rfl
  unfold coreInstr Done
  simp only [hi, flight_getD hw, Bool.and_self, if_true, runInsn_ok this hbl]

/-- The same for a K16 instruction. -/
theorem k16_reaches {k : CoreId} {i : Insn} {s s₁ s₂ : State} {body : CM Next} {n : Next}
    (h : ReachesK16 k i s s₁) (hb : body s₁ = .ok n s₂) (hn : ∀ r, n ≠ .enter r)
    (hbl : (s₂.complete k i.load 2 n).blocked = false) :
    k16 k i body s = Done k i 2 n s₂ := by
  obtain ⟨hi, hw, s₀, h0, hd, hf, -⟩ := h
  have hdue : (if (s₀.core k).flight.isNone = true then (s₀.core k).due else none) = none := by
    split
    · next h => exact hd (by simpa using h)
    · rfl
  have : k16M k i body s = .ok () (s₂.complete k i.load 2 n) := by
    unfold k16M
    simp only [bind, EStateM.bind, h0, getC, hdue, hf, hb]
    rfl
  unfold k16 Done
  simp only [hi, flight_getD hw, Bool.and_self, if_true, runInsn_ok this hbl]

/-! Bodies that only change the core -/

/-- A native instruction whose body sets the core by `f`. -/
theorem onCore_reaches {k : CoreId} {i : Insn} {len : Nat} {s s₁ : State} (h : Reaches k i len s s₁) (f : CoreState → CoreState) :
    coreInstr k i (onCore k f) s = Done k i len .seq (s₁.modCore k f) :=
  coreInstr_reaches h rfl (by simp) (by simpa using h.unblocked)

/-- The same for a K16 instruction. -/
theorem onCore_reachesK16 {k : CoreId} {i : Insn} {s s₁ : State} (h : ReachesK16 k i s s₁) (f : CoreState → CoreState) :
    k16 k i (onCore k f) s = Done k i 2 .seq (s₁.modCore k f) :=
  k16_reaches h rfl (by simp) (by simpa using h.unblocked)

end Sys2Proof.Machine
end

