-- ==== Sys2Proof/Laws/Purse.lean ====
section
/-!
SUPPORT. What reading a purse entry through a core's cache, the coin check and the stack check can change, and what push leaves when
its parts go through.
-/
namespace Sys2Proof.Machine

/-- `t` differs from `s` in core k's purse cache, the cache directory, the free-value counter and the wait flag at most. -/
def State.PurseOnly (k : CoreId) (s t : State) : Prop :=
  ∃ p d f b, t = { (s.modCore k fun c => { c with pcache := p }) with purseDir := d, free := f, blocked := b }

theorem State.PurseOnly.refl (k : CoreId) (s : State) : s.PurseOnly k s :=
  ⟨(s.core k).pcache, s.purseDir, s.free, s.blocked, by
    have : s.modCore k (fun c => { c with pcache := (s.core k).pcache }) = s := State.setCore_self s k
    rw [this]⟩

theorem State.PurseOnly.trans {k : CoreId} {s t u : State} (h : s.PurseOnly k t) (g : t.PurseOnly k u) : s.PurseOnly k u := by
  obtain ⟨p, d, f, b, rfl⟩ := h
  obtain ⟨p', d', f', b', rfl⟩ := g
  refine ⟨p', d', f', b', ?_⟩
  simp [State.modCore, State.setCore, State.core]

theorem State.PurseOnly.bumpFree {k : CoreId} {s t : State} (h : s.PurseOnly k t) : s.PurseOnly k t.bumpFree := by
  obtain ⟨p, d, f, b, rfl⟩ := h
  exact ⟨p, d, f + 1, b, rfl⟩

/-- The fields that a check cannot reach. -/
theorem State.PurseOnly.frame {k : CoreId} {s t : State} (h : s.PurseOnly k t) :
    t.mem = s.mem ∧ t.tags = s.tags ∧ t.poison = s.poison ∧ t.csr = s.csr ∧ t.seq = s.seq ∧ t.mode = s.mode ∧ t.time = s.time ∧
    t.pending = s.pending ∧ t.inReset = s.inReset ∧ t.postings = s.postings ∧ t.staging = s.staging ∧ (∀ j, j ≠ k → t.core j = s.core j) ∧
    t.core k = { s.core k with pcache := (t.core k).pcache } := by
  obtain ⟨p, d, f, b, rfl⟩ := h
  refine ⟨rfl, rfl, rfl, rfl, rfl, rfl, rfl, rfl, rfl, rfl, rfl, fun j hj => ?_, ?_⟩
  · exact State.core_modCore_other s (fun c => { c with pcache := p }) hj
  · have h : State.core { (s.modCore k fun c => { c with pcache := p }) with purseDir := d, free := f, blocked := b } k =
        { s.core k with pcache := p } := State.core_modCore_same s k (fun c => { c with pcache := p })
    rw [h]

theorem State.purseLoad_only (s : State) (k : CoreId) (i : Nat) : s.PurseOnly k (s.purseLoad k i).2 := by
  have hb (s : State) (x : Bool) : s.PurseOnly k (s.blockIf x) := by
    cases x
    · exact .refl k s
    · obtain ⟨p, d, f, b, h⟩ := State.PurseOnly.refl k s
      exact ⟨p, d, f, true, by
        show { s with blocked := true } = _
        conv_lhs => rw [h]⟩
  refine (hb s (s.readHeld (s.entryAddr i) 32 || s.dirFull i)).trans ?_
  unfold State.purseLoad
  generalize s.blockIf (s.readHeld (s.entryAddr i) 32 || s.dirFull i) = t
  dsimp only
  split
  · next p _ =>
    exact ⟨capTo 512 t.free ((i, p) :: (t.core k).pcache.filter fun e => e.1 != i), _, t.free, t.blocked, rfl⟩
  · exact .refl k t

theorem State.purseCached_only (s : State) (k : CoreId) (i : Nat) : s.PurseOnly k (s.purseCached k i).2 := by
  unfold State.purseCached
  split
  · split
    · exact ((State.PurseOnly.refl k s).bumpFree).trans (State.purseLoad_only ..)
    · exact (State.PurseOnly.refl k s).bumpFree
  · exact State.purseLoad_only ..

theorem State.retire_only (s : State) (k : CoreId) (x : Coin) : s.PurseOnly k (s.retire k x).2 := by
  have h := State.purseCached_only s k x.purse
  unfold State.retire
  split
  · exact .refl ..
  · split
    · exact .refl ..
    · split
      · rename_i he; rw [he] at h; split <;> exact h
      · rename_i he; rw [he] at h; exact h

/-- R93: what is moved keeps its bits; only its tag may go. -/
theorem State.retire_bits (s : State) (k : CoreId) (x : Coin) : (s.retire k x).1.bits = x.bits ∧ ((s.retire k x).1.tag = true → x.tag = true) := by
  unfold State.retire
  split
  · exact ⟨rfl, id⟩
  · rename_i ht
    split
    · exact ⟨rfl, by simp⟩
    · split
      · split
        · exact ⟨rfl, by simp⟩
        · exact ⟨rfl, id⟩
      · exact ⟨rfl, by simp⟩

/-- The coin check, whether it passes or traps, changes only what a purse read may change. -/
theorem coinCheckN_only {need k creg c o size kind v flags extra} (s : State) :
    (∀ r t, coinCheckN need k creg c o size kind v flags extra s = .ok r t → s.PurseOnly k t) ∧
    (∀ e t, coinCheckN need k creg c o size kind v flags extra s = .error e t → s.PurseOnly k t ∧ ∃ r, e = .trap r) := by
  have h := State.purseCached_only s k c.purse
  unfold coinCheckN
  simp only
  split
  · exact ⟨fun r t he => by cases he; exact .refl k s, by simp⟩
  split
  · refine ⟨by simp, fun e t he => ?_⟩
    cases he
    exact ⟨(State.PurseOnly.refl k s).bumpFree.bumpFree, _, rfl⟩
  · split
    · rename_i hp; rw [hp] at h
      split
      · refine ⟨by simp, fun e t he => ?_⟩
        cases he
        exact ⟨h.bumpFree.bumpFree, _, rfl⟩
      · exact ⟨fun r t he => by cases he; exact h, by simp⟩
    · rename_i hp; rw [hp] at h
      exact ⟨by simp, fun e t he => by cases he; exact ⟨h, _, rfl⟩⟩
    · rename_i hp; rw [hp] at h
      exact ⟨by simp, fun e t he => by cases he; exact ⟨h, _, rfl⟩⟩

theorem firstCause_none {a b : Option CoinCause} (h : firstCause a b = none) : a = none ∧ b = none := by
  cases a <;> cases b <;> simp [firstCause] at h ⊢
  split at h <;> cases h

@[simp] theorem firstCause_left (a : Option CoinCause) : firstCause a none = a := by cases a <;> rfl

/-- A check passes only against an entry that passes the steps of R50 and what the instruction adds to them. -/
theorem coinCheckN_ok {need k creg c o size kind v flags extra va p} {s t : State} (hl : (s.core k).flight = none)
    (h : coinCheckN need k creg c o size kind v flags extra s = .ok (va, p) t) :
    checkBefore s.ptbCount c = none ∧ s.purseCached k c.purse = (.ok p, t) ∧
    checkEntryN need p c (checkAddr c o) size kind v (t.core k).ring (t.core k).asid = none ∧ extra p = none ∧ va = (checkAddr c o).toNat := by
  have hf := (State.purseCached_only s k c.purse).frame.2.2.2.2.2.2.2.2.2.2.2.2
  unfold coinCheckN at h
  simp only [hl, Option.isSome_none, Bool.false_eq_true, if_false] at h
  split at h
  · cases h
  · rename_i hb
    split at h
    · rename_i q u hp
      rw [hp] at hf
      split at h
      · cases h
      · rename_i hc
        obtain ⟨hc, hx⟩ := firstCause_none hc
        cases h
        refine ⟨hb, hp, ?_, hx, rfl⟩
        have hr : (t.core k).ring = (s.core k).ring := by rw [hf]; rfl
        have ha : (t.core k).asid = (s.core k).asid := by rw [hf]; rfl
        rw [hr, ha]; exact hc
    · cases h
    · cases h

/-! Reads that hit the cache -/

/-- Loading an entry that stands at the front of the cache and in the directory already changes nothing. -/
theorem State.purseLoad_same {s : State} {k : CoreId} {i : Nat} {p : Purse} (hh : s.readHeld (s.entryAddr i) 32 = false)
    (hf : s.dirFull i = false) (hr : s.purseRead i = .ok p)
    (hc : capTo 512 s.free ((i, p) :: (s.core k).pcache.filter (fun e => e.1 != i)) = (s.core k).pcache)
    (hd : (s.setDir i (s.dirOf i ||| BitVec.ofNat 16 (2 ^ (k.val / 8)))).purseDir = s.purseDir) : s.purseLoad k i = (.ok p, s) := by
  unfold State.purseLoad
  simp only [hh, hf, Bool.or_false, State.blockIf_false, hr]
  have h1 : s.modCore k (fun c => { c with pcache := capTo 512 s.free ((i, p) :: c.pcache.filter fun e => e.1 != i) }) = s := by
    refine Eq.trans ?_ (State.setCore_self s k)
    unfold State.modCore
    dsimp only
    rw [hc]
  rw [h1]
  refine Prod.ext rfl ?_
  show s.setDir i _ = s
  unfold State.setDir at hd ⊢
  simp only at hd
  rw [hd]

/-- Evicted or not, a cached entry that memory still holds reads as itself. -/
theorem State.purseCached_hit {s : State} {k : CoreId} {i : Nat} {p : Purse} (hf : (s.core k).pcache.find? (fun e => e.1 == i) = some (i, p))
    (hl : s.bumpFree.purseLoad k i = (.ok p, s.bumpFree)) : s.purseCached k i = (.ok p, s.bumpFree) := by
  unfold State.purseCached
  simp only [hf, hl, ite_self]

theorem State.retire_hit {s t : State} {k : CoreId} {x : Coin} {p : Purse} (ht : x.tag = true) (hn : x.purse < s.ptbCount)
    (hp : s.purseCached k x.purse = (.ok p, t)) (hs : p.state < 2) : s.retire k x = (x, t) := by
  unfold State.retire
  simp only [ht, Bool.not_true, Bool.false_eq_true, if_false, hp]
  rw [if_neg (by omega), if_neg (by omega)]

/-- rscheck against an entry that passes its rules. -/
theorem rscheck_hit {s t : State} {k : CoreId} {ring : Nat} {r : Coin} {a : Int} {p : Purse} (hl : (s.core k).flight = none) (ht : r.tag = true) (ha : a % 16 = 0)
    (hn : r.purse < s.ptbCount) (hp : s.purseCached k r.purse = (.ok p, t))
    (hr : r.issue = p.issue ∧ p.malformed = false ∧ p.state = 1 ∧ (p.owner = 0 ∨ p.owner = (t.core k).asid) ∧ p.type = 4 ∧ p.rstk = true ∧
      ring ≤ p.floor ∧ (p.base : Int) ≤ a ∧ a + 16 ≤ p.base + p.length) : rscheck k ring r a s = .ok a.toNat t := by
  obtain ⟨h1, h2, h3, h4, h5, h6, h7, h8, h9⟩ := hr
  unfold rscheck
  simp only [hl, Option.isSome_none, ht, Bool.not_true, Bool.false_eq_true, if_false, ha, ne_eq, not_true_eq_false, hp, h1, h2, h3, h5, h6, false_or]
  rw [if_neg (by omega), if_neg (by rintro ⟨g1, g2⟩; rcases h4 with h4 | h4 <;> contradiction), if_neg (by omega), if_neg (by omega),
    if_neg (by omega)]

/-- The coin check against an entry that passes its steps. -/
theorem coinCheckN_hit {need k creg c o size kind v flags p} {s t : State} (hl : (s.core k).flight = none) (hb : checkBefore s.ptbCount c = none)
    (hp : s.purseCached k c.purse = (.ok p, t)) (he : checkEntryN need p c (checkAddr c o) size kind v (s.core k).ring (s.core k).asid = none) :
    coinCheckN need k creg c o size kind v flags (fun _ => none) s = .ok ((checkAddr c o).toNat, p) t := by
  unfold coinCheckN
  simp only [hl, Option.isSome_none, Bool.false_eq_true, if_false, hb, hp, he, firstCause_left]

/-! Pushes, from their parts (R118, R189) -/

theorem push1_of {k : CoreId} {x y r : Coin} {n a : Nat} {h : Half} {s s₁ s₂ s₃ : State} (hn : (s.core k).ring = n)
    (hc : (s.core k).ccGet (R.CS_RSTK n) = r) (hr : rscheck k n r (checkAddr r (-16)) s = .ok a s₁)
    (hh : stackHalf k n a true s₁ = .ok h s₂) (hx : s₂.retire k x = (y, s₃)) :
    push1 k x s = .ok () ((s₃.modCore k fun c => { c with sb := c.sb ++ [SbEntry.of (.coin y.tag) h.pa (coinBytes y) h.mt false] }).modCore k fun c =>
      c.ccSet (R.CS_RSTK c.ring) (r.withCursor (BitVec.ofNat 64 a))) := by
  subst hn hc
  simp only [push1, bind, EStateM.bind, getC, hr, hh, retireM, liftS, hx, pushSb, modC]

theorem push2_of {k : CoreId} {n a a' : Nat} {x y z r : Coin} {hy hx : Half} {s s₁ s₂ s₃ s₄ s₅ : State}
    (hc : (s.core k).ccGet (R.CS_RSTK n) = r) (h1 : rscheck k n r (checkAddr r (-16)) s = .ok a' s₁)
    (h2 : rscheck k n r (checkAddr r (-32)) s₁ = .ok a s₂)
    (h3 : stackHalf k n (a + 16) true s₂ = .ok hx s₃) (h4 : stackHalf k n a true s₃ = .ok hy s₄) (h5 : s₄.retire k x = (z, s₅)) :
    push2 k n x y s = .ok () (((s₅.modCore k fun c => { c with sb := c.sb ++ [SbEntry.of (.coin z.tag) hx.pa (coinBytes z) hx.mt false] }).modCore k fun c =>
      { c with sb := c.sb ++ [SbEntry.of (.coin y.tag) hy.pa (coinBytes y) hy.mt false] }).modCore k fun c =>
      c.ccSet (R.CS_RSTK n) (r.withCursor (BitVec.ofNat 64 a))) := by
  subst hc
  simp only [push2, bind, EStateM.bind, getC, h1, h2, h3, h4, retireM, liftS, h5, pushSb, modC]

end Sys2Proof.Machine
end

