-- ==== Sys2Proof/WellFormed.lean ====
section
/-!
DEFINITION. When the operands of a command lie in the ranges the manual gives them. `exec` takes every command; an operand outside its
range is cut to the field that would carry it, or names nothing.
-/
namespace Sys2Proof

/-- A physical address (R34). -/
def pa48 (a : Nat) : Bool := a < 2 ^ 48
/-- A virtual or device address. -/
def va64 (a : Nat) : Bool := a < 2 ^ 64
/-- A unit number of R36. -/
def unitOk (u : Nat) : Bool := Machine.unitExists u
/-- A purse index (R38). -/
def purseIdx (i : Nat) : Bool := i < 2 ^ 32
/-- The data of one message or write: at most a line. -/
def lineData (bs : List Byte) : Bool := bs.length ≤ 64
/-- A shared doorbell source (R212). -/
def source (x : Nat) : Bool := x < 65536
/-- A guard of the bank: 64 in each of sets 0–22, 16 in sets 24 and 25. -/
def guardOk (set k : Nat) : Bool := (set ≤ 22 && k < 64) || ((set == 24 || set == 25) && k < 16)
/-- A transaction number of a message (R370). -/
def txid (t : Nat) : Bool := t < 65536
/-- The SRC field of a message (R370). -/
def srcUnit (u : Nat) : Bool := u < 512
/-- The ARG field of a message (R370). -/
def msgArg (a : Nat) : Bool := a < 65536
/-- A flit's bytes (R369). -/
def flitData (bs : List Byte) : Bool := bs.length ≤ 256
/-- A flit sequence number (R369). -/
def flitSeq (n : Nat) : Bool := n < 4096
/-- A socket ID (R35). -/
def socketOk (n : Nat) : Bool := n < 8
/-- The credits of the four classes (R369). -/
def creditsOk (cs : List Nat) : Bool := cs.length == 4 && cs.all fun c => c < 256
/-- A requester ID (R355). -/
def rid16 (r : Nat) : Bool := r < 65536
/-- The length of a DMA request. -/
def dmaLen (n : Nat) : Bool := 1 ≤ n && n ≤ 4096
/-- An AtomicOp of R350: FetchAdd, Swap or CAS of 32 or 64 bits. -/
def atomicOk (op len : Nat) : Bool := op ≤ 2 && (len == 4 || len == 8)
/-- The group index and page of a page request (R357). -/
def pageReq (prgi page : Nat) : Bool := prgi < 512 && page < 2 ^ 52
/-- A function entry of a lane group. -/
def fnOk (k : Nat) : Bool := k < 256
/-- Diode readings in quarters of a degree, as MGMT_THERM.TEMP holds them. -/
def tempsOk (ts : List (Nat × Int)) : Bool := ts.all fun t => decide (-2048 ≤ t.2) && decide (t.2 < 2048)
/-- A package power, as MGMT_PWR.PWR holds it. -/
def powerOk (n : Nat) : Bool := n < 1024
/-- What sixteen channels report. -/
def channels (fs : List ChanFind) : Bool := fs.length == 16
/-- The ARG field of MGMT_UCTL. -/
def uctlArg (n : Nat) : Bool := n < 256
/-- A detector number (R419). -/
def detNo (d : Nat) : Bool := d < 64
/-- An address that a record may hold. -/
def addrOk (a : Option Nat) : Bool := match a with | some a => pa48 a | none => true
/-- The DETAIL bytes of a record (R442). -/
def detailOk (bs : List Byte) : Bool := bs.length ≤ 24
/-- A key of control space and an access width. -/
def ctlAccessOk (key len : Nat) : Bool := key < 0x10000000000 && (len == 1 || len == 2 || len == 4 || len == 8)
/-- Where a register write goes. -/
def placeOk (p : RegPlace) : Bool := match p with
  | .ctl init key len => unitOk init && ctlAccessOk key len
  | .core _ idx => idx < 0x1000
  | .eftSram off len _ => decide (off + len ≤ 0x40000) && (len == 1 || len == 2 || len == 4 || len == 8)
  | .eft pa len _ => pa48 pa && (len == 1 || len == 2 || len == 4 || len == 8) && pa % len == 0
/-- The values of the package's 6,016 lands (R471). -/
def landsOk (n : Nat) : Bool := n < 2 ^ 6016

/-- The command's operands are in range. -/
def wellFormed : Instr → Bool
  | .registerWrite place _ => placeOk place
  | .controlStoreAccept _ _ => true
  | .pwrGoodRise => true
  | .deviceResetExit _ => true
  | .pwrGoodFall _ => true
  | .supplyInvalid _ => true
  | .pwrFail _ => true
  | .refclkLoss => true
  | .thermalRead temps => tempsOk temps
  | .thermtripAssert => true
  | .powerEvaluation pwr => powerOk pwr
  | .wakeLatchEdge _ _ => true
  | .timePpsEdge => true
  | .ppsTimeout => true
  | .timeAdjWrite _ => true
  | .stageFlash _ _ _ => true
  | .stageVerify => true
  | .stageApply _ => true
  | .stageMemtrain found => channels found
  | .stageTagclear => true
  | .stageLanes _ => true
  | .stageBootspan => true
  | .stageEft => true
  | .stageRelease => true
  | .imgApplyGo _ => true
  | .flashErase _ => true
  | .flashProgram _ => true
  | .flashCommandDone _ => true
  | .eftWatchdogExpiry => true
  | .eftKick => true
  | .eftSwap => true
  | .pldmDiscovery => true
  | .pldmPlatform _ => true
  | .pldmFru => true
  | .pldmFirmwareUpdate _ _ => true
  | .modeReqBrumation _ => true
  | .modeReqDiagnostic => true
  | .modeReqLeave => true
  | .brumationQuiesced => true
  | .brumationQuiesceTimeout => true
  | .brumationChangeComplete => true
  | .brumationTimeout => true
  | .unitFence u => unitOk u
  | .unitUnfence u => unitOk u
  | .unitOffline u => unitOk u
  | .unitOnline u => unitOk u
  | .unitRetire u => unitOk u
  | .unitHandover u arg => unitOk u && uctlArg arg
  | .unitRecal u => unitOk u
  | .unitOpComplete u _ => unitOk u
  | .handoverMapAck _ => true
  | .mgmtClkWrite _ _ => true
  | .clusterClockStop _ => true
  | .clusterClockRestart _ => true
  | .errorDetect unit det _ _ addr _ detail => unitOk unit && detNo det && addrOk addr && detailOk detail
  | .errinjOneshot unit det _ => unitOk unit && detNo det
  | .errinjPeriodic unit det _ => unitOk unit && detNo det
  | .errinjPeriodExpiry unit det => unitOk unit && detNo det
  | .telCounterWrap unit _ => unitOk unit
  | .snapshotArm _ => true
  | .snapshotLatch => true
  | .dbgUnlockGo _ => true
  | .dbgLock => true
  | .dbgMemoryAccess _ => true
  | .dbgHalt _ => true
  | .dbgResume _ => true
  | .dbgStep _ => true
  | .dbgRegisterAccess _ => true
  | .traceEnable _ => true
  | .tapControlAccess _ key len _ => ctlAccessOk key len
  | .tapExtest drive lands _ => landsOk drive && landsOk lands
  | .purseWrite a bytes => pa48 a && lineData bytes
  | .purseInvalidate _ _ => true
  | .purseInvalAck _ _ => true
  | .freeListPop _ => true
  | .freeListPush h idx => pa48 h && purseIdx idx
  | .recallArrive _ => true
  | .fenceMarker _ _ => true
  | .fenceAck _ _ => true
  | .sweepAdd _ => true
  | .sweepGo _ => true
  | .sweepClear => true
  | .tagEngineScanDone engine => unitOk engine
  | .ldc _ _ _ _ => true
  | .stc _ _ _ _ => true
  | .cmov _ _ _ => true
  | .clip _ _ _ _ => true
  | .csetc _ _ _ _ => true
  | .cadd _ _ _ _ => true
  | .cget _ _ _ _ => true
  | .ceq _ _ _ _ => true
  | .cprobe _ _ _ _ => true
  | .cclrt _ _ _ => true
  | .cpack _ _ _ _ => true
  | .caddi _ _ _ _ => true
  | .clipi _ _ _ _ => true
  | .mint _ _ _ _ => true
  | .recall _ _ _ _ => true
  | .recallf _ _ _ _ => true
  | .recalli _ _ _ => true
  | .recallif _ _ _ => true
  | .ld _ _ _ _ _ => true
  | .st _ _ _ _ _ => true
  | .ldf _ _ _ _ _ => true
  | .stf _ _ _ _ _ => true
  | .lx _ _ _ _ _ _ _ _ => true
  | .sx _ _ _ _ _ _ _ _ => true
  | .swp _ _ _ _ _ _ => true
  | .cas _ _ _ _ _ _ => true
  | .fadd _ _ _ _ _ _ => true
  | .fand _ _ _ _ _ _ => true
  | .fOr _ _ _ _ _ _ => true
  | .fxor _ _ _ _ _ _ => true
  | .fmax _ _ _ _ _ _ => true
  | .fmin _ _ _ _ _ _ => true
  | .loadDataReturn _ _ => true
  | .longOpComplete _ _ => true
  | .storeBufferDrain _ _ => true
  | .writeNotice _ => true
  | .pteMark ea _ => pa48 ea
  | .add _ _ _ _ => true
  | .sub _ _ _ _ => true
  | .andI _ _ _ _ => true
  | .orI _ _ _ _ => true
  | .xorI _ _ _ _ => true
  | .andn _ _ _ _ => true
  | .shl _ _ _ _ => true
  | .shr _ _ _ _ => true
  | .sar _ _ _ _ => true
  | .rol _ _ _ _ => true
  | .ror _ _ _ _ => true
  | .seq _ _ _ _ => true
  | .sne _ _ _ _ => true
  | .slt _ _ _ _ => true
  | .sltu _ _ _ _ => true
  | .sge _ _ _ _ => true
  | .sgeu _ _ _ _ => true
  | .movz _ _ _ _ => true
  | .movnz _ _ _ _ => true
  | .clz _ _ _ _ => true
  | .ctz _ _ _ _ => true
  | .popc _ _ _ _ => true
  | .addi _ _ _ _ => true
  | .andi _ _ _ _ => true
  | .ori _ _ _ _ => true
  | .xori _ _ _ _ => true
  | .slti _ _ _ _ => true
  | .sltiu _ _ _ _ => true
  | .shli _ _ _ _ => true
  | .shri _ _ _ _ => true
  | .sari _ _ _ _ => true
  | .rori _ _ _ _ => true
  | .seqi _ _ _ _ => true
  | .lui _ _ _ => true
  | .pfx _ _ => true
  | .beq _ _ _ _ => true
  | .bne _ _ _ _ => true
  | .blt _ _ _ _ => true
  | .bge _ _ _ _ => true
  | .bltu _ _ _ _ => true
  | .bgeu _ _ _ _ => true
  | .jmp _ _ => true
  | .call _ _ => true
  | .jmpc _ _ => true
  | .callc _ _ => true
  | .jmpr _ _ => true
  | .callr _ _ => true
  | .ret _ => true
  | .callg _ _ => true
  | .loopG _ _ _ => true
  | .loopi _ _ _ => true
  | .lexit _ => true
  | .mfs _ _ _ => true
  | .mts _ _ _ => true
  | .mfsc _ _ _ => true
  | .mtsc _ _ _ => true
  | .nop _ => true
  | .wait _ => true
  | .tret _ => true
  | .brk _ => true
  | .abar _ => true
  | .saveu _ => true
  | .savel _ => true
  | .restu _ => true
  | .restl _ => true
  | .fenceLl _ => true
  | .fenceLs _ => true
  | .fenceSl _ => true
  | .fenceSs _ => true
  | .fenceAll _ => true
  | .pref _ _ => true
  | .prefw _ _ => true
  | .cclean _ _ => true
  | .cflush _ _ => true
  | .czero _ _ => true
  | .invtlbAll _ => true
  | .invtlbAsid _ _ => true
  | .invtlbPage _ _ _ => true
  | .invtlbNg _ => true
  | .icsync _ => true
  | .bmov _ _ _ _ _ _ _ => true
  | .bfill _ _ _ _ _ _ _ => true
  | .bcmp _ _ _ _ _ _ _ => true
  | .bscan _ _ _ _ _ _ _ _ => true
  | .adc _ _ _ _ _ => true
  | .sbc _ _ _ _ _ => true
  | .mul _ _ _ _ => true
  | .mulw _ _ _ _ => true
  | .mulwu _ _ _ _ => true
  | .div _ _ _ _ => true
  | .divu _ _ _ _ => true
  | .rem _ _ _ _ => true
  | .remu _ _ _ _ => true
  | .daddu _ _ _ _ _ => true
  | .dsubu _ _ _ _ _ => true
  | .dadd _ _ _ _ => true
  | .dsub _ _ _ _ => true
  | .daddq _ _ _ _ => true
  | .dsubq _ _ _ _ => true
  | .dadj _ _ _ _ _ => true
  | .dmulw _ _ _ _ _ => true
  | .dshl _ _ _ _ _ => true
  | .dshr _ _ _ _ _ => true
  | .dcmp _ _ _ _ _ => true
  | .dcmpq _ _ _ _ _ => true
  | .dpack _ _ _ _ => true
  | .dunpk _ _ _ _ => true
  | .dcvtb _ _ _ _ => true
  | .dcvtd _ _ _ _ => true
  | .dchk _ _ _ _ => true
  | .fpAdd _ _ _ _ _ _ _ => true
  | .fpSub _ _ _ _ _ _ _ => true
  | .fpMul _ _ _ _ _ _ _ => true
  | .fpDiv _ _ _ _ _ _ _ => true
  | .fpSqrt _ _ _ _ _ _ => true
  | .fpMin _ _ _ _ _ _ => true
  | .fpMax _ _ _ _ _ _ => true
  | .fpCeq _ _ _ _ _ _ => true
  | .fpClt _ _ _ _ _ _ => true
  | .fpCle _ _ _ _ _ _ => true
  | .fpCun _ _ _ _ _ _ => true
  | .fpClass _ _ _ _ _ => true
  | .fpCvtw _ _ _ _ _ _ => true
  | .fpCvtx _ _ _ _ _ _ _ => true
  | .fpCvti _ _ _ _ _ _ => true
  | .fpCvtfi _ _ _ _ _ _ => true
  | .fpRint _ _ _ _ _ _ => true
  | .fpQuantize _ _ _ _ _ _ => true
  | .fpSameq _ _ _ _ _ => true
  | .fpSgn _ _ _ _ _ _ _ => true
  | .fpMvg _ _ _ _ _ => true
  | .fpMvf _ _ _ _ _ => true
  | .fpTopack _ _ _ _ _ _ => true
  | .fpFrompack _ _ _ _ _ _ => true
  | .fmadd _ _ _ _ _ _ => true
  | .fmsub _ _ _ _ _ _ => true
  | .fnmsub _ _ _ _ _ _ => true
  | .fnmadd _ _ _ _ _ _ => true
  | .vld _ _ _ _ => true
  | .vldp _ _ _ _ => true
  | .vlds _ _ _ _ _ => true
  | .vldx _ _ _ _ _ => true
  | .vst _ _ _ _ => true
  | .vstp _ _ _ _ => true
  | .vsts _ _ _ _ _ => true
  | .vstx _ _ _ _ _ => true
  | .vldm _ _ _ => true
  | .vstm _ _ _ => true
  | .vsetvl _ _ _ _ _ => true
  | .vsplat _ _ _ _ => true
  | .vins _ _ _ _ _ => true
  | .vext _ _ _ _ => true
  | .vmv _ _ _ _ => true
  | .vsldn _ _ _ _ _ => true
  | .vslup _ _ _ _ _ => true
  | .vrelease _ => true
  | .vadd _ _ _ _ _ => true
  | .vsub _ _ _ _ _ => true
  | .vmul _ _ _ _ _ => true
  | .vmulwl _ _ _ _ _ => true
  | .vmulwh _ _ _ _ _ => true
  | .vmulwlu _ _ _ _ _ => true
  | .vmulwhu _ _ _ _ _ => true
  | .vdot4 _ _ _ _ _ => true
  | .vand _ _ _ _ _ => true
  | .vor _ _ _ _ _ => true
  | .vxor _ _ _ _ _ => true
  | .vshl _ _ _ _ _ => true
  | .vshr _ _ _ _ _ => true
  | .vsar _ _ _ _ _ => true
  | .vmin _ _ _ _ _ => true
  | .vmax _ _ _ _ _ => true
  | .vminu _ _ _ _ _ => true
  | .vmaxu _ _ _ _ _ => true
  | .vaddsat _ _ _ _ _ => true
  | .vcmpeq _ _ _ _ _ => true
  | .vcmplt _ _ _ _ _ => true
  | .vcmpltu _ _ _ _ _ => true
  | .vredadd _ _ _ _ _ => true
  | .vredmax _ _ _ _ _ => true
  | .vfadd _ _ _ _ _ => true
  | .vfsub _ _ _ _ _ => true
  | .vfmul _ _ _ _ _ => true
  | .vfmadd _ _ _ _ _ => true
  | .vfmin _ _ _ _ _ => true
  | .vfmax _ _ _ _ _ => true
  | .vfcmpeq _ _ _ _ _ => true
  | .vfcmplt _ _ _ _ _ => true
  | .vdot2h _ _ _ _ _ => true
  | .vfwiden _ _ _ _ _ => true
  | .vfcvti _ _ _ _ => true
  | .vfcvtfi _ _ _ _ => true
  | .vdadd _ _ _ _ _ => true
  | .vdsub _ _ _ _ _ => true
  | .vdmul _ _ _ _ _ => true
  | .vdfma _ _ _ _ _ => true
  | .vdquant _ _ _ _ _ => true
  | .vdcmpeq _ _ _ _ _ => true
  | .vdcmplt _ _ _ _ _ => true
  | .vdfromi _ _ _ _ => true
  | .mand _ _ _ _ => true
  | .mor _ _ _ _ => true
  | .mxor _ _ _ _ => true
  | .mandn _ _ _ _ => true
  | .mpopc _ _ _ => true
  | .mfirst _ _ _ => true
  | .mmvg _ _ _ _ => true
  | .mmvm _ _ _ _ => true
  | .trapEntry _ _ => true
  | .dbhRing _ => true
  | .dbhTickFire x => source x
  | .dbhPend _ => true
  | .dbhUnpend _ => true
  | .dbhPpendWrite _ _ => true
  | .dbhIpi _ => true
  | .dbhClaim _ => true
  | .dbhClaimg _ => true
  | .dbhClaimn _ => true
  | .dbhPeek _ => true
  | .dbhDone _ _ => true
  | .dbhSrcWrite x _ => source x
  | .dbhHoldWrite _ => true
  | .dbhTctlWrite _ _ => true
  | .dbhTimerFire _ _ => true
  | .interruptLineChange _ => true
  | .coherentRequest unit a _ => unitOk unit && pa48 a
  | .snoop _ a => pa48 a
  | .patrolScrubRead _ a _ _ => pa48 a
  | .ddrInitPass _ upto => pa48 upto
  | .partitionEnable _ _ => true
  | .partitionFillDone _ => true
  | .partitionRelease _ _ => true
  | .partitionReleaseDone _ => true
  | .cxlRegionEnable _ _ _ => true
  | .cxlRegionReady _ _ _ => true
  | .cxlRegionDisable _ _ _ => true
  | .memCopyGo _ _ => true
  | .memCopyAbort _ _ => true
  | .memCopyPageDone _ => true
  | .post _ _ _ _ _ _ => true
  | .postReply _ _ => true
  | .tlrSubmitWrite _ _ => true
  | .submissionSlotIntake _ _ => true
  | .postingIntake _ => true
  | .postingLeadArrival _ => true
  | .cellLockRequest _ => true
  | .cellLockGrant _ => true
  | .sequenceRequest _ => true
  | .postingNumberReceived _ => true
  | .cellCommit _ pa => pa48 pa
  | .commitAck _ pa => pa48 pa
  | .completionReserveRetry _ => true
  | .durabilityWaitTimeout _ => true
  | .seqNextWrite _ => true
  | .seqCtlWrite _ => true
  | .tlrInvtlbWrite _ _ => true
  | .tlrSrcfgEnable _ _ _ => true
  | .journalWriteAccepted _ _ => true
  | .persistenceFlushComplete _ _ _ => true
  | .journalLocalSet _ _ => true
  | .journalMirrorSet _ _ => true
  | .journalLocalClear _ _ => true
  | .journalMirrorClear _ _ => true
  | .jtailWrite _ _ => true
  | .jmtailWrite _ _ => true
  | .jmbaseEnable _ _ => true
  | .sealRecordWrite _ => true
  | .drainComplete _ => true
  | .lgpApply _ => true
  | .portTrained _ _ _ _ _ => true
  | .dmaRead _ rid _ _ addr len => rid16 rid && va64 addr && dmaLen len
  | .dmaWrite _ rid _ _ addr bytes _ => rid16 rid && va64 addr && dmaLen bytes.length
  | .dmaAtomic _ rid _ _ addr op len _ _ => rid16 rid && va64 addr && atomicOk op len
  | .atsTranslationRequest _ rid _ addr _ => rid16 rid && va64 addr
  | .pageRequest _ _ rid _ _ _ prgi page => rid16 rid && pageReq prgi page
  | .lgpPrgrWrite _ _ => true
  | .lgpInvtlbWrite _ _ => true
  | .atsInvalidateTimeout _ fn => fnOk fn
  | .cxlMemTimeout a => pa48 a
  | .guardBindWrite set k _ => guardOk set k
  | .guardEvict _ => true
  | .peerCfgEnable _ _ => true
  | .flitReceive _ bytes _ => flitData bytes
  | .nakReceive _ ack => flitSeq ack
  | .ackTimeout _ => true
  | .retrainComplete _ _ => true
  | .downReceive _ => true
  | .identReceive _ socket credits _ => socketOk socket && creditsOk credits
  | .timeSyncRequest _ => true
  | .treqReceive _ _ => true
  | .trspReceive _ _ _ => true
  | .rds _ tx src _ => txid tx && srcUnit src
  | .rdx _ tx src _ => txid tx && srcUnit src
  | .rdu _ tx src arg _ => txid tx && srcUnit src && msgArg arg
  | .wrl _ tx src _ data _ => txid tx && srcUnit src && lineData data
  | .wrp _ tx src arg _ data _ => txid tx && srcUnit src && msgArg arg && lineData data
  | .wbk _ tx src _ data _ _ => txid tx && srcUnit src && lineData data
  | .atm _ tx src arg _ data => txid tx && srcUnit src && msgArg arg && lineData data
  | .rdc _ tx src _ => txid tx && srcUnit src
  | .wrc _ tx src _ data _ _ => txid tx && srcUnit src && lineData data
  | .snpi _ tx _ => txid tx
  | .snps _ tx _ => txid tx
  | .srsp _ tx _ data _ _ => txid tx && lineData data
  | .dat _ tx data _ _ => txid tx && lineData data
  | .cmp _ tx arg => txid tx && msgArg arg
  | .wnt _ tx _ => txid tx
  | .lck _ tx src _ => txid tx && srcUnit src
  | .lgr _ tx data _ => txid tx && lineData data
  | .cmt _ tx src _ data _ => txid tx && srcUnit src && lineData data
  | .rel _ tx src _ => txid tx && srcUnit src
  | .cak _ tx => txid tx
  | .pfw _ tx src arg _ data _ => txid tx && srcUnit src && msgArg arg && lineData data
  | .prp _ tx arg => txid tx && msgArg arg
  | .jrc _ tx src arg data => txid tx && srcUnit src && msgArg arg && lineData data
  | .jak _ tx _ => txid tx
  | .ipi _ arg => msgArg arg
  | .fnc _ tx _ => txid tx
  | .fak _ tx => txid tx
  | .swl _ tx arg data => txid tx && msgArg arg && lineData data
  | .swr _ tx arg => txid tx && msgArg arg
  | .henter _ _ => true
  | .hexit _ => true
  | .k16Nop _ => true
  | .k16Svc _ _ => true
  | .k16In _ _ => true
  | .k16Out _ _ => true
  | .k16Ei _ _ => true
  | .k16Di _ _ => true
  | .k16Reti _ _ => true
  | .k16Halt _ _ => true
  | .k16Mov _ _ _ => true
  | .k16Add _ _ _ => true
  | .k16Adc _ _ _ => true
  | .k16Sub _ _ _ => true
  | .k16Sbc _ _ _ => true
  | .k16And _ _ _ => true
  | .k16Or _ _ _ => true
  | .k16Xor _ _ _ => true
  | .k16Cmp _ _ _ => true
  | .k16Tst _ _ _ => true
  | .k16Shl _ _ _ => true
  | .k16Shr _ _ _ => true
  | .k16Sar _ _ _ => true
  | .k16Dadc _ _ _ => true
  | .k16Dsbc _ _ _ => true
  | .k16Mulu _ _ _ => true
  | .k16Addi _ _ _ => true
  | .k16Movi _ _ _ => true
  | .k16Movhi _ _ _ => true
  | .k16Cmpi _ _ _ => true
  | .k16Ld _ _ _ _ => true
  | .k16St _ _ _ _ => true
  | .k16Setdb _ _ => true
  | .k16Setdbr _ _ => true
  | .k16Getdb _ _ => true
  | .k16Jmpf _ _ => true
  | .k16Callf _ _ => true
  | .k16Bcc _ _ _ => true
  | .k16Call _ _ => true
  | .k16Jmp _ _ => true
  | .k16Loop _ _ _ => true
  | .k16LdPostinc _ _ _ => true
  | .k16StPostinc _ _ _ => true
  | .k16LdPredec _ _ _ => true
  | .k16StPredec _ _ _ => true
  | .supplyValid _ => true
  | .refclkReturn => true
  | .tapReset => true
  | .cellLockRelease line _ => pa48 line
  | .atsInvalidateCompletion _ fn => fnOk fn
  | .ptmRequest _ _ => true
  | .mctpControlMessage _ => true
  | .cxlMemResponse a _ => pa48 a
  | .dramRefresh _ => true

end Sys2Proof
end

