-- ==== Sys2Proof/Tests/Slice0.lean ====
section
/-!
SUPPORT. Tests: for every statement with hypotheses a state that meets them, ill-formed operands that are refused, and one-step
effects with the results the spec gives.
-/
namespace Sys2Proof.Tests
open Sys2Proof.Machine

/-! States -/

/-- Out of reset, in RUN, all sixteen channels up over 4 GiB of DDR, a purse table of 1,024 entries at 0x8000. -/
def live : State :=
  { State.reset with
    inReset := false,
    mode := .run,
    csr := ((List.range 16).flatMap fun n => [(R.VLT_PTBASE (0x100 + n), 0x800A#64), (R.VLT_ILV (0x100 + n), 0x100000001#64)]) ++
      (List.range 16).flatMap fun n => [(R.MEM_CFG (0x110 + n), 0x3000000000000#64), (R.MEM_INIT (0x110 + n), 0x8000000000000000#64)] }

/-- A live purse entry of type ty over [0, 2^20), ring floor 3, issue 5. -/
def entry (ty : Nat) : Purse := ⟨0, 0x100000, setF (setF (setF (0x00C00000 : Word) ⟨26, 24⟩ ty) ⟨21, 20⟩ 1) ⟨19, 0⟩ 5, 0⟩

/-- The bytes other than zero of such an entry as entry n of the table. -/
def cells (n ty : Nat) (more : List Host.Cell) : List Host.Cell :=
  [(0x800A + 32 * n, 16#8), (0x8010 + 32 * n, 5#8), (0x8012 + 32 * n, 208#8)] ++ (if ty = 0 then [] else [(0x8013 + 32 * n, BitVec.ofNat 8 ty)]) ++ more

/-- A coin of purse n at cursor a, with every right but GL's neighbours that seal or are reserved. -/
def coin (n a : Nat) (rights : BitVec 12 := 0x79F) : Coin := Coin.make (BitVec.ofNat 64 a) n 5 rights true

/-- Core 0 running at 0x100 in ring 0: purse 0 CODE; 1 DATA, coin in c1; 2 a return stack; 3 a gate to purse 6, coin in c3; 4 HERITAGE,
coin in c4; 5 DATA, coin in c5; 6 CODE. -/
def ready : State :=
  let mem := cells 0 1 [] ++ cells 1 0 [] ++ cells 2 4 [(0x8056, 4#8)] ++ ((0x8061, 4#8) :: cells 3 5 [(0x807C, 6#8)]) ++
    cells 4 6 [] ++ cells 5 0 [] ++ cells 6 1 []
  let s : State := { live with mem := mem }
  s.modCore 0 fun c => ({ c with
    run := .running, pcc := coin 0 0x100 0x004,
    g := (c.g.set 4 7).set 5 0x10000,
    c := (((c.c.set 1 (coin 1 0x2000)).set 3 (coin 3 0x400 0x040)).set 4 (coin 4 0x1000)).set 5 (coin 5 0x3000) }).ccSet (R.CS_RSTK 0)
      (coin 2 0x5000)

/-! Steps of a chain of hypotheses -/

/-- Every condition of a list. -/
def allOf (l : List Bool) : Bool := l.all id

/-- The state after the core's fetch, where it gets that far. -/
def afterFetch (k : CoreId) (i : Insn) (s : State) : State :=
  match interlock k i s with
  | .ok _ s => (match front k i s with | .ok _ s => s | .error _ s => s)
  | .error _ s => s

/-- A computation that goes through with a result and a state as asked. -/
def gives {α : Type} (m : CM α) (s : State) (p : α → State → Bool) : Bool := match m s with | .ok a t => p a t | .error .. => false

def reachesB (k : CoreId) (i : Insn) (s : State) : Bool :=
  s.canIssue k false && (s.core k).flight.isNone && gives (interlock k i) s fun _ s₀ =>
    (s₀.core k).pfx.isNone && (s₀.core k).due.isNone && gives (front k i) s₀ fun _ s₁ => !s₁.blocked

theorem reaches_of {k : CoreId} {i : Insn} {s : State} (h : reachesB k i s = true) : Reaches k i 4 s (afterFetch k i s) := by
  unfold reachesB gives at h
  unfold afterFetch
  simp only [Bool.and_eq_true] at h
  obtain ⟨⟨h1, h2⟩, h⟩ := h
  refine ⟨h1, by simp [Option.isNone_iff_eq_none.mp h2], ?_⟩
  cases hi : interlock k i s with
  | error e s₀ => simp [hi] at h
  | ok u s₀ =>
    simp only [hi, Bool.and_eq_true] at h ⊢
    obtain ⟨⟨hp, hd⟩, h⟩ := h
    cases hf : front k i s₀ with
    | error e s₁ => simp [hf] at h
    | ok u s₁ =>
      simp only [hf] at h
      refine ⟨s₀, rfl, fun _ _ => by simpa using hd, ?_, hf, by simpa using h⟩
      simp only [Option.isNone_iff_eq_none] at hp
      simp [hp]

/-- The state in which a computation ends. -/
def okState {α : Type} (m : CM α) (s : State) : State := match m s with | .ok _ t => t | .error _ t => t

theorem gives_ok {α : Type} {m : CM α} {s : State} {p : α → State → Bool} (h : gives m s p = true) :
    ∃ a, m s = .ok a (okState m s) ∧ p a (okState m s) = true := by
  unfold gives at h
  unfold okState
  split at h
  · rename_i a t he; exact ⟨a, by simp [he], by simpa [he] using h⟩
  · cases h

/-- A purse entry that the core has cached and memory still holds is read without a wait, evicted or not. -/
theorem cached_ok {s : State} {k : CoreId} {i : Nat} {p : Purse} (hf : (s.core k).pcache.find? (fun e => e.1 == i) = some (i, p))
    (hh : s.readHeld (s.entryAddr i) 32 = false) (hd : s.dirFull i = false) (hr : s.purseRead i = .ok p) :
    ∃ t, s.purseCached k i = (.ok p, t) ∧ t.blocked = s.blocked := by
  unfold State.purseCached
  simp only [hf]
  split
  · unfold State.purseLoad
    have h1 : s.bumpFree.readHeld (s.bumpFree.entryAddr i) 32 = false := hh
    have h2 : s.bumpFree.dirFull i = false := hd
    have h3 : s.bumpFree.purseRead i = .ok p := hr
    simp only [h1, h2, Bool.or_false, State.blockIf_false, h3]
    exact ⟨_, rfl, rfl⟩
  · exact ⟨_, rfl, rfl⟩

/-- Coin x is tagged, and its entry p, not retired, stands cached and readable. -/
def retires (k : CoreId) (x : Coin) (p : Purse) (s : State) : Prop :=
  x.tag = true ∧ x.purse < s.ptbCount ∧ p.state < 2 ∧ (s.core k).pcache.find? (fun e => e.1 == x.purse) = some (x.purse, p) ∧
    s.readHeld (s.entryAddr x.purse) 32 = false ∧ s.dirFull x.purse = false ∧ s.purseRead x.purse = .ok p

theorem retire_ok {s : State} {k : CoreId} {x : Coin} {p : Purse} (h : retires k x p s) :
    ∃ t, s.retire k x = (x, t) ∧ t.blocked = s.blocked ∧ (t.core k).cs = (s.core k).cs := by
  obtain ⟨ht, hn, hs, hf, hh, hd, hr⟩ := h
  obtain ⟨t, h, hb⟩ := cached_ok hf hh hd hr
  have hx := State.retire_hit ht hn h hs
  have := (State.retire_only s k x).frame.2.2.2.2.2.2.2.2.2.2.2.2
  rw [hx] at this
  exact ⟨t, hx, hb, by rw [this]⟩

/-- Entry i stands at the front of core k's cache, is in the directory, and memory holds it. -/
def cachedFirst (k : CoreId) (i : Nat) (p : Purse) (s : State) : Bool :=
  !s.readHeld (s.entryAddr i) 32 && !s.dirFull i && s.purseRead i == .ok p && (s.core k).pcache.find? (fun e => e.1 == i) == some (i, p) &&
    capTo 512 (s.free + 1) ((i, p) :: (s.core k).pcache.filter fun e => e.1 != i) == (s.core k).pcache &&
    (s.setDir i (s.dirOf i ||| BitVec.ofNat 16 (2 ^ (k.val / 8)))).purseDir == s.purseDir

theorem cachedFirst_hit {k : CoreId} {i : Nat} {p : Purse} {s : State} (h : cachedFirst k i p s = true) :
    s.purseCached k i = (.ok p, s.bumpFree) := by
  unfold cachedFirst at h
  simp only [Bool.and_eq_true, Bool.not_eq_true', beq_iff_eq] at h
  obtain ⟨⟨⟨⟨⟨h1, h0⟩, h2⟩, h3⟩, h4⟩, h5⟩ := h
  exact State.purseCached_hit h3 (State.purseLoad_same (s := s.bumpFree) h1 h0 h2 h4 h5)

/-- push2 onto a stack of purse r.purse, its two checks against the same entry. -/
theorem push2_goes {s : State} {k : CoreId} {n a : Nat} {x y r : Coin} {p q : Purse} (hc : (s.core k).ccGet (R.CS_RSTK n) = r)
    (h1 : gives (rscheck k n r (checkAddr r (-16))) s (fun _ t => (t.core k).flight.isNone && cachedFirst k r.purse p t && decide (r.purse < t.ptbCount) &&
      decide (p.owner = 0 ∨ p.owner = (t.core k).asid) && gives (stackHalf k n (a + 16) true) t.bumpFree fun _ t =>
      gives (stackHalf k n a true) t fun _ t => !t.blocked && !(t.core k).vUsed && decide (x.purse < t.ptbCount) &&
        (t.core k).pcache.find? (fun e => e.1 == x.purse) == some (x.purse, q) && !t.readHeld (t.entryAddr x.purse) 32 && !t.dirFull x.purse && t.purseRead x.purse == .ok q) = true)
    (hr : r.tag = true ∧ checkAddr r (-32) = a ∧ a % 16 = 0 ∧ r.issue = p.issue ∧ p.malformed = false ∧ p.state = 1 ∧ p.type = 4 ∧ p.rstk = true ∧
      n ≤ p.floor ∧ p.base ≤ a ∧ a + 16 ≤ p.base + p.length) (hx : x.tag = true ∧ q.state < 2) :
    ∃ t, push2 k n x y s = .ok () t ∧ t.blocked = false ∧ (t.core k).vUsed = false := by
  obtain ⟨a', g1, h1⟩ := gives_ok h1
  simp only [Bool.and_eq_true, decide_eq_true_eq] at h1
  obtain ⟨⟨⟨⟨hl, hf⟩, hn⟩, ho⟩, h2⟩ := h1
  obtain ⟨hx', g3, h3⟩ := gives_ok h2
  obtain ⟨hy, g4, h4⟩ := gives_ok h3
  simp only [Bool.and_eq_true, Bool.not_eq_true', decide_eq_true_eq, beq_iff_eq] at h4
  obtain ⟨⟨⟨⟨⟨⟨hb, hv⟩, hn'⟩, hf'⟩, hh'⟩, hd'⟩, hr'⟩ := h4
  obtain ⟨r1, r2, r3, r4, r5, r6, r7, r8, r9, r10, r11⟩ := hr
  obtain ⟨t, ht, hb', hcs⟩ := retire_ok ⟨hx.1, hn', hx.2, hf', hh', hd', hr'⟩
  have g2 := rscheck_hit (k := k) (ring := n) (r := r) (a := (a : Int)) (p := p) (Option.isNone_iff_eq_none.mp hl) r1 (by omega) hn (cachedFirst_hit hf)
    ⟨r4, r5, r6, ho, r7, r8, r9, by omega, by omega⟩
  rw [← r2, r2, Int.toNat_natCast] at g2
  refine ⟨_, push2_of hc g1 (r2 ▸ g2) g3 g4 ht, ?_⟩
  rw [State.modCore_blocked, State.modCore_blocked, State.modCore_blocked, hb', hb]
  refine ⟨rfl, ?_⟩
  unfold CoreState.vUsed CoreState.csF CoreState.csGet at hv ⊢
  simpa only [State.core_modCore_same, CoreState.ccSet_cs, hcs] using hv

/-- A computation whose first part has gone through. -/
theorem bind_ok {α β : Type} {m : CM α} {f : α → CM β} {a : α} {s t : State} (h : m s = .ok a t) : (m >>= f) s = f a t := by
  simp [bind, EStateM.bind, h]

section
set_option Elab.async false
set_option maxRecDepth 100000

/-! States that meet the hypotheses of the statements: the machine as a whole -/

theorem witness_StepTakesTheFrontCommand : live.pending = [] := rfl

theorem witness_StepKeepsTheSequencer : live.seqOk ∧ ∃ t, step { live with pending := [.pwrGoodRise] } = .next t :=
  ⟨⟨by unfold Sequencer.ok; decide +kernel, by simp [live, State.reset]⟩, _, rfl⟩

theorem witness_StepKeepsMapsAndZeroRegister : ready.mapsOk ∧ ready.zeroOk ∧ ∃ t, step { ready with pending := [.pwrGoodRise] } = .next t :=
  ⟨⟨by decide +kernel, by decide +kernel, by decide +kernel, by decide +kernel, by decide +kernel⟩, by unfold State.zeroOk; decide +kernel, _, rfl⟩

theorem witness_StepConsumesOnlyTheFront : (∃ t, step { live with pending := [.pwrGoodRise] } = .next t) ∧ ∃ t, exec .pwrGoodRise live = .next t :=
  ⟨⟨_, rfl⟩, _, rfl⟩

/-- A malformed entry under a coin of its issue: a reserved type. -/
theorem witness_MalformedEntryFails : (entry 7).malformed = true ∧ (coin 1 0).issue = (entry 7).issue := by decide +kernel

theorem witness_PurseTypePermitsKinds : typePermits 2 false 1 3 = false ∧ typePermits 2 false 1 0 = true := by decide +kernel

/-- Set 0 with its first n guards over the page at 0x1000, permitting reads of every function; STRICT as given. -/
def guarded (strict n : Nat) : State :=
  (List.range n).foldl (fun (s : State) k => ((s.setReg (R.GUARD_LO 0 k) 0x1001).setReg (R.GUARD_HI 0 k) 0x1000).setReg (R.GUARD_ATTR 0 k) 0x11)
    (live.setRf (R.GUARD_CTL 0) F.GUARD_CTL_STRICT strict)

theorem witness_GuardOverlapRule : ((guarded 0 1).guardMatches 0 0 5 0x1800 && (guarded 1 2).guardMatches 0 0 5 0x1FFF &&
    (guarded 1 2).guardMatches 0 1 5 0x1000 && (guarded 1 1).guardMatches 0 0 5 0x1000) = true ∧ 2 ≤ guardCount 0 ∧
    (guarded 0 1).rf (R.GUARD_CTL 0) F.GUARD_CTL_STRICT = 0 ∧ (guarded 1 2).rf (R.GUARD_CTL 0) F.GUARD_CTL_STRICT = 1 ∧
    (List.range (guardCount 0)).all (fun j => !(guarded 1 1).guardMatches 0 j 5 0x1000 || j == 0) = true := by decide +kernel

/-! Instructions of the core -/

def addI : Insn := mkInsn (encRR 0x10 1 2 3 0 0) [gN 2, gN 3] [gN 1]

theorem witness_AluResult : reachesB 0 addI ready = true ∧ (ready.core 0).gR 3 = 0 ∧
    (∀ j < 64, bitB ((ready.core 0).gR 2) (63 - j) = false) := by decide +kernel

theorem witness_AluImmediateResult : reachesB 0 { mkInsn (encRI 0x11 1 2 0 5) [gN 2] [gN 1] with pfx := true } ready = true := by decide +kernel

def callI : Insn := mkInsn (0x19 + 2 ^ 7 + 5 * 2 ^ 8) [] []

def callPushed : State := okState (stackHalf 0 0 0x4FF0 true) (okState (rscheck 0 0 (coin 2 0x5000) 0x4FF0) (afterFetch 0 callI ready))

/-- CALL's push goes through: the stack check, the granule's translation, the return coin. -/
theorem witness_call : ∃ s₁ s₂, Reaches 0 callI 4 ready s₁ ∧
    push1 0 ((s₁.core 0).pcc.withCursor ((s₁.core 0).pcc.cursor + 4)) s₁ = .ok () s₂ ∧ s₂.blocked = false := by
  obtain ⟨a, ha, hp⟩ := gives_ok (m := rscheck 0 0 (coin 2 0x5000) 0x4FF0) (s := afterFetch 0 callI ready) (p := fun a _ => a == 0x4FF0) (by decide +kernel)
  obtain rfl : a = 0x4FF0 := by simpa using hp
  obtain ⟨h, hh, _⟩ := gives_ok (m := stackHalf 0 0 0x4FF0 true) (s := okState (rscheck 0 0 (coin 2 0x5000) 0x4FF0) (afterFetch 0 callI ready))
    (p := fun _ _ => true) (by decide +kernel)
  obtain ⟨t, ht, hb, _⟩ := retire_ok (show retires 0 (coin 0 0x104 0x004) (entry 1) callPushed by unfold retires; decide +kernel)
  have hx : ((afterFetch 0 callI ready).core 0).pcc.withCursor (((afterFetch 0 callI ready).core 0).pcc.cursor + 4) = coin 0 0x104 0x004 := by decide +kernel
  refine ⟨_, _, reaches_of (by decide +kernel), hx ▸ push1_of (n := 0) (r := coin 2 0x5000) (by decide +kernel) (by decide +kernel) ha hh ht, ?_⟩
  rw [State.modCore_blocked, State.modCore_blocked, hb]; decide +kernel

theorem witness_ControlTransferResult : reachesB 0 (mkInsn (encRI 0x18 2 3 0 4) [gN 2, gN 3] []) ready = true ∧
    (ready.core 0).gR 2 = (ready.core 0).gR 3 ∧ (ready.core 0).gR 2 ≠ (ready.core 0).gR 4 ∧
    gives (pop1 0) (afterFetch 0 (mkInsn (encRI 0x1A 0 0 4 0) [] []) ready)
      (fun r t => (r.1.tag || !bitB r.1.bits 127) && !t.blocked) = true := by decide +kernel

theorem witness_PushEffect : gives (push1 0 Coin.zero) ready (fun _ _ => true) = true := by decide +kernel

theorem witness_LoopResult : reachesB 0 (mkInsn (encLP 4 0 0 1 0) [gN 4] []) ready = true ∧ (ready.core 0).gR 2 = 0 ∧ (ready.core 0).gR 4 ≠ 0 ∧
    (ready.core 0).csF R.CS_LDEPTH F.CS_LDEPTH_DEPTH < 3 ∧
    reachesB 0 (mkInsn (encLP 0 0 1 0 0) [] []) (ready.modCore 0 fun c => c.csSet R.CS_LDEPTH 1) = true := by decide +kernel

theorem witness_CompletionMovesOn : ((1 : Nat) ≤ ((ready.modCore 0 fun c => ((c.csSet R.CS_LDEPTH 1).csSet R.CS_LEND 0x100)).core 0).csF R.CS_LDEPTH
    F.CS_LDEPTH_DEPTH) ∧ (ready.core 0).pcc.purse = 0 ∧ (ready.core 0).csF R.CS_LDEPTH F.CS_LDEPTH_DEPTH = 0 := by decide +kernel

theorem witness_RegisterWriteLands : (ready.core 0).shadow = none := by decide +kernel

theorem witness_CoreStateMoveAndAccessResult :
    gives (csAccess 0 R.CS_ASID false true) (afterFetch 0 (mkInsn (encRI 0x1C 0 4 1 R.CS_ASID) [gN 4] []) ready) (fun r s => !r.ro &&
      gives (csRead 0 R.CS_ASID) s (fun _ t => !t.blocked) && gives (csWrite 0 R.CS_ASID 7) s (fun _ t => !t.blocked)) = true ∧
    gives (csAccess 0 (R.CS_RSTK 0) true true) ready (fun r s => !r.ro && gives (ccRead 0 (R.CS_RSTK 0)) s (fun _ t => !t.blocked) &&
      gives (ccWrite 0 (R.CS_RSTK 0) Coin.zero) s (fun _ t => !t.blocked)) = true ∧
    csRule 0 0xFFF = none ∧ (csRule 0 0).any (·.wr < 1) = true ∧ (csRule 0 1).any (·.ro) = true := by
  decide +kernel

theorem witness_SimpleControlAndPrefixResult : reachesB 0 (mkInsn (encMT 0 0 0 15) [] []) ready = true ∧
    (((afterFetch 0 (mkInsn (encMT 0 0 0 15) [] []) ready).loadFences 0).performAll 0).blocked = false ∧
    (ready.core 0).longsDone.ax = [] ∧ ready.canIssue 0 false = true ∧ (ready.core 0).due = none ∧
    ((ready.modCore 0 fun c => { c with lineN := true }).core 0).due.isSome = true := by decide +kernel

/-- `ready` with the descriptors of traps 0x12 and 0x13 at 0x10000: purse 6 at 0x800, ring 0, KEEP, VALID. -/
def trapReady : State :=
  let desc (n : Nat) : List Host.Cell :=
    [(0x10001 + 32 * n, 8#8), (0x10008 + 32 * n, 6#8), (0x1000C + 32 * n, 5#8), (0x1000E + 32 * n, 0x40#8), (0x10010 + 32 * n, 0x90#8)]
  { ready with mem := ready.mem ++ desc 0x12 ++ desc 0x13, tags := [(0x1024, true), (0x1026, true)] }.modCore 0 fun c => c.csSetF R.CS_TDT F.CS_TDT_BASE 32

def deep (s : State) : State := s.modCore 0 fun c => c.csSetF R.CS_EMINFO F.CS_EMINFO_EMDEPTH 2

def brkI : Insn := mkInsn (encRI 0x1C 0 0 4 3) [] []

theorem witness_TrapInstructionResult : reachesB 0 brkI (deep trapReady) = true ∧
    gives (enter 0 ⟨0x13, 0, [(R.CS_DBGCTL, 0)]⟩ 0x104 0x100 id) ((afterFetch 0 brkI (deep trapReady)).complete 0 false 4 .done)
      (fun _ t => !t.blocked) = true := by decide +kernel

theorem witness_TrapReturnResult : reachesB 0 (mkInsn (encRI 0x1C 0 0 4 2) [] []) (deep ready) = true ∧
    (let y : Coin := statusGranule 0 0 false false
     let s := (deep ready).modCore 0 fun c => (c.ccSet (R.CS_EMRSTK 1) y).ccSet (R.CS_EMRSTK 0) (coin 0 0x700)
     gives (tretFrame 0) (s.modCore 0 CoreState.longsDone) fun r t => r.1 == y && !y.tag && bitB y.bits 127 && (t.core 0).ring == 0 &&
       gives (tailChain 0 y) t fun b t => !b && !(t.core 0).vUsed && gives (vectorReturn 0) t fun _ t => !t.blocked) = true := by decide +kernel

def callgI : Insn := mkInsn (encRI 0x1A 0 3 5 0) [cN 3] []

def gate : Purse := { entry 5 with w0 := 0x400, w3 := 6 <<< 32 }

def stack : Purse := { entry 4 with w2 := setF (entry 4).w2 ⟨50, 50⟩ 1 }

def gated : State := okState (readPurse 0 6) (okState (coinCheckP 0 3 (coin 3 0x400 0x040) 0 0 12 none 0) (afterFetch 0 callgI ready))

theorem witness_GateCallResult : ∃ va s₁ s₂ s₃ s₄, Reaches 0 callgI 4 ready s₁ ∧ coinCheckP 0 3 (coin 3 0x400 0x040) 0 0 12 none 0 (fun _ => none) s₁ = .ok (va, gate) s₂ ∧
    ¬ (0xFFFFFF20 ≤ gate.link ∧ gate.link ≤ 0xFFFFFF2F) ∧ gateBefore s₂.ptbCount 0 gate = none ∧ readPurse 0 gate.link s₂ = .ok (entry 1) s₃ ∧ gateAfter 0 gate (entry 1) = none ∧
    push2 0 gate.tring (coin 0 0x104 0x004) (statusGranule 0 0 true false) s₃ = .ok () s₄ ∧ s₄.blocked = false := by
  obtain ⟨r, h1, h2⟩ := gives_ok (m := coinCheckP 0 3 (coin 3 0x400 0x040) 0 0 12 none 0) (s := afterFetch 0 callgI ready)
    (p := fun r t => r.2 == gate && gateBefore t.ptbCount 0 gate == none && gives (readPurse 0 6) t fun p _ => p == entry 1) (by decide +kernel)
  simp only [Bool.and_eq_true, beq_iff_eq] at h2
  obtain ⟨⟨h2, h3⟩, h4⟩ := h2
  obtain ⟨p, h5, h6⟩ := gives_ok h4
  obtain ⟨t, h7, h8, _⟩ := push2_goes (s := gated) (k := 0) (n := 0) (a := 0x4FE0) (x := coin 0 0x104 0x004) (y := statusGranule 0 0 true false)
    (r := coin 2 0x5000) (p := stack) (q := entry 1) (by decide +kernel) (by decide +kernel) (by decide +kernel) (by decide +kernel)
  obtain ⟨va, g⟩ := r
  simp only at h2
  subst h2
  rw [beq_iff_eq] at h6
  subst h6
  exact ⟨va, _, _, _, t, reaches_of (by decide +kernel), h1, by decide +kernel, h3, h5, by decide +kernel, h7, h8⟩

def prefI : Insn := mkInsn (encMT 2 0 1 0) [cN 2] []

/-- c2 holds no coin; c1 one of a DATA purse. -/
theorem witness_MaintenanceResult :
    (match coinCheck 0 2 Coin.zero 0 1 0 none 0 (afterFetch 0 prefI ready) with | .error (.trap _) t => !t.blocked | _ => false) = true ∧
    gives (coinCheck 0 1 (coin 1 0x2000) 0 1 0 none 0) (afterFetch 0 (mkInsn (encMT 1 0 1 2) [cN 1] []) ready) (fun va s =>
      gives (xlate 0 va xClean 0 0) s fun r s => r.2 == .normal &&
        (let t := s.drainWhile 0 fun e => s.sharesByte e.pa e.bytes.length (r.1 / 64 * 64) 64
         !t.blocked && (match t.target r.1 with | .local a _ _ => !t.writeHeld (a / 64 * 64) 64 && !t.readHeld (a / 64 * 64) 64 | _ => false))) = true ∧
    gives (coinCheck 0 1 (coin 1 0x2000) 0 1 0 none 0) (afterFetch 0 (mkInsn (encMT 1 0 1 0) [cN 1] []) ready) (fun va s =>
      let o := s.translate ((s.core 0).xctx 0 0) va (xKind 0 false) true
      !(o.s.modCore 0 fun c => c.setXlate o.s.free o.ctx).blocked &&
        match o.res with | .ok pa _ => (match s.target pa with | .local .. => true | _ => false) | _ => false) = true ∧
    gives (watch 0 (coin 1 0x2000) 0 64 false true) (afterFetch 0 (mkInsn (encMT 1 0 1 4) [cN 1] []) ready) (fun _ s =>
      gives (needAligned (coin 1 0x2000) 0 64) s fun _ s => gives (coinCheck 0 1 (coin 1 0x2000) 0 64 1 none 0) s fun va s =>
        gives (xlate 0 va xZero 0 0) s fun _ s => !s.blocked) = true ∧
    (ready.core 0).ring = 0 ∧ ((afterFetch 0 (mkInsn (encMT 0 0 2 0) [] []) ready).performAll 0).blocked = false := by decide +kernel

theorem witness_CoinRegisterResult : reachesB 0 (mkInsn (encRR 0x28 6 1 4 0 6) [cN 1, gN 4] [gN 6]) ready = true ∧
    ((ready.core 0).cR 1).tag = true ∧ bitB ((ready.core 0).cR 1).rights 6 = false ∧ ((ready.core 0).gR 4).toNat % 16 ≤ 14 ∧
    (probeCode 0 ((ready.core 0).cR 1) 7 (afterFetch 0 (mkInsn (encRR 0x28 6 1 4 0 6) [cN 1, gN 4] [gN 6]) ready)).2.blocked = false := by decide +kernel

def ldI : Insn := { mkInsn (encMS 0x01 6 1 3 8) [cN 1] [gN 6] with pfx := true, load := true }

theorem witness_LoadStoreResult : reachesB 0 ldI ready = true ∧
    (gives (watch 0 (coin 1 0x2000) 8 8 true false) (afterFetch 0 ldI ready) (fun _ _ => true) &&
      gives (watch 0 (coin 1 0x2000) 8 8 false true) (afterFetch 0 ldI ready) (fun _ _ => true) &&
      gives (watch 0 (coin 1 0x2000) 16 16 true false) (afterFetch 0 ldI ready) (fun _ _ => true) &&
      gives (watch 0 (coin 1 0x2000) 16 16 false true) (afterFetch 0 ldI ready) fun _ _ => true) = true ∧
    gives (vtouch 0) (afterFetch 0 ldI ready) (fun _ s =>
      gives (issueLoad 0 1 (coin 1 0x2000) 8 8 0 .fpr (.f 6) false) s fun _ s => !s.blocked) = true ∧
    gives (issueLoad 0 1 (coin 1 0x2000) 8 8 0 (.gpr false) (.g 6) false) (afterFetch 0 ldI ready) (fun _ s => !s.blocked) = true ∧
    gives (needAligned (coin 1 0x2000) 16 16) (afterFetch 0 ldI ready) (fun _ s =>
      gives (issueLoad 0 1 (coin 1 0x2000) 16 16 4 .coin (.c 6) false) s fun _ s => !s.blocked) = true ∧
    gives (storeHalves 0 1 (coin 1 0x2000) 8 8 1 none false) (afterFetch 0 ldI ready) (fun _ s => !s.blocked) = true ∧
    gives (storeHalves 0 1 (coin 1 0x2000) 16 16 5 (some Coin.zero) false) (afterFetch 0 ldI ready) (fun _ s =>
      gives (retireM 0 Coin.zero) s fun _ s => !s.blocked) = true ∧
    mxLegal true 6 1 2 3 3 0 0 = some .g ∧ mxLegal false 6 1 0 7 6 2 1 = some .c := by decide +kernel

def swpI : Insn := mkInsn (encAT 6 1 4 0 1 0) [cN 1, gN 4, gN 6] [gN 6]

theorem witness_AtomicResult : reachesB 0 swpI ready = true ∧ gives (watch 0 (coin 1 0x2000) 0 8 true true) (afterFetch 0 swpI ready) (fun _ s =>
    gives (needAligned (coin 1 0x2000) 0 8) s fun _ s => gives (coinCheck 0 1 (coin 1 0x2000) 0 8 2 none 0) s fun va s =>
    [s.orderBefore 0 false, s.orderBefore 0 true, (s.loadFences 0).performAll 0].all fun s =>
    gives (xlate 0 va (xKind 2 false) 0 0) s fun r s => (match s.target r.1 with | .local .. => true | _ => false) &&
    gives (readNow 0 va ⟨r.1, 8, r.2⟩ false 0) s fun b s => decide (bytesNat b.1 < 2 ^ 64) &&
    gives (writeNow 0 ⟨r.1, 8, r.2⟩ .data (natBytes 8 7)) s fun _ s => !s.blocked && !(s.returnAll 0).blocked) = true := by decide +kernel

def bmovI : Insn := bkInsn 0 5 1 4 3 false false true

theorem witness_BlockRepeatResult : reachesB 0 bmovI ready = true ∧ (ready.core 0).step = false ∧ (ready.core 0).gR 4 ≠ 0 ∧ (ready.core 0).gR 2 = 0 ∧
    gives (do
        bkWatch 0 1 8 false true false
        bkWatch 0 5 8 false false true
        let (r, w) ← bothChecks (bkCheck 0 1 8 false false) (bkCheck 0 5 8 false true)
        let hr ← bkXlate 0 r 8 false
        let hw ← bkXlate 0 w 8 true
        let v ← bkRead 0 r 8 hr
        bufferStore 0 hw .data (natBytes 8 v) false
        pure false) (afterFetch 0 bmovI ready) (fun b s => !b && !s.blocked) = true ∧
    gives (do
        bkWatch 0 1 8 false true false
        let c ← getC 0
        let p ← bkCheck 0 1 8 false false
        let hp ← bkXlate 0 p 8 false
        let x ← bkRead 0 p 8 hp
        pure ((x == (c.gR 4).toNat % 2 ^ 64) != true)) (afterFetch 0 bmovI ready) (fun b s => b && !s.blocked) = true := by decide +kernel

def mintI : Insn := mkInsn (encRR 0x28 6 1 4 0 0x10) [cN 1, gN 4, fun c => c.gDst 5] [cN 6, gN 4]

/-- `ready` with a mint reserve: entry i of list 0x4000. -/
def mintReady (i : Nat) : State := ready.modCore 0 fun c => { c.csSetF R.CS_FREEHEAD F.CS_FREEHEAD_EN 1 with reserve := [⟨i, 0x4000⟩] }

def minted (i : Nat) (want : PopRes) (s : State) : Bool :=
  gives (coinCheckP 0 1 (coin 1 0x2000) 0 0 13 none 0 (fun p => mintFault p (coin 1 0x2000) 7 0x10000 0)) (afterFetch 0 mintI s) fun _ s =>
    let q := (s.finishCorePurseWrs 0).mintTake 0
    let s := q.2.modCore 0 fun c => { c with refill := c.csF R.CS_FREEHEAD F.CS_FREEHEAD_EN == 1 }
    q.1 == want && !s.blocked && match s.purseRead i with
      | .ok e =>
        let new := mintEntry e 1 0 0x2000 7 0x10000
        let s₄ := s.writeMinted i new 0
        let t := s₄.modCore 0 fun c => { c with pcache := capTo 512 s₄.free ((i, new) :: c.pcache.filter fun q => q.1 != i) }
        !(t.setDir i (t.dirOf i ||| 1)).blocked
      | _ => false

theorem witness_MintResult : reachesB 0 mintI ready = true ∧ minted 8 (.entry 8) (mintReady 8) = true ∧ minted 1 .badlist (mintReady 1) = true ∧
    minted 1 .empty ready = true := by decide +kernel

theorem witness_RecallSendsAndCompletes :
    gives (coinCheckP 0 1 (coin 1 0x2000) 0 0 14 none 0 (fun p => if p.sealld then some .rights else none)) (afterFetch 0 (mkInsn (encRR 0x28 6 1 4 0 0x11) [cN 1] [cN 6, gN 4]) ready)
      (fun _ s => !s.blocked) = true ∧ 7 < ready.ptbCount ∧ ready.ptbCount ≤ ((ready.core 0).gR 5).toNat % 2 ^ 32 ∧
    ((afterFetch 0 (mkInsn (encRR 0x28 6 4 0 0 0x13) [gN 4] [gN 6]) ready).purseCached 0 7).2.blocked = false ∧
    gives (coinCheckP 0 1 (coin 1 0x2000) 0 0 14 none 0 (fun p => if p.sealld then some .rights else none)) (afterFetch 0 (mkInsn (encRR 0x28 0 1 4 0 0x12) [cN 1] [gN 4]) ready)
      (fun _ s => !s.blocked) = true ∧
    (let w : RecallWait := ⟨1, 5, true, none, 4, some 0x2000, some (.status 0), 0⟩
     let s := ready.modCore 0 fun c => { c with recallW := some w }
     (s.core 0).recallW = some w ∧ w.arrived = some (.status 0)) := by decide +kernel

theorem witness_ScalarArithmeticResult : reachesB 0 (mkInsn (encRR 0x14 6 4 5 0 0) [gN 4, gN 5, fun c => c.gDst 24] [gN 6, fun c => c.gDst 24]) ready = true ∧
    ((6 : BitVec 5).toNat ≠ 24 + (0 : BitVec 3).toNat) ∧ (6 : BitVec 5).toNat % 2 = 0 := by decide +kernel

theorem witness_PackedDecimalValues : uVal 0x1234 = some 1234 ∧ uVal 0x9999999999999999 = some (10 ^ 16 - 1) ∧ uVal 0xA = none := by decide +kernel

theorem witness_LongOperationDelivers : ({ ready.core 0 with longs := [⟨[(.g 6, .w 5)], 0, none⟩] } : CoreState).longs[0]? = some ⟨[(.g 6, .w 5)], 0, none⟩ ∧
    (ready.core 0).csF R.CS_STATUS F.CS_STATUS_PA = 0 ∧ ((ready.core 0).csSetF R.CS_STATUS F.CS_STATUS_PA 1).csF R.CS_STATUS F.CS_STATUS_PA = 1 := by decide +kernel

def faddI : Insn := mkInsn (encFp false 1 0 6 4 5 0) [vN 4, vN 5] [vN 6]

theorem witness_FloatingResult : reachesB 0 faddI ready = true ∧ fpFmt false 1 = some binary64 ∧ (ready.core 0).rmode 0 false = some .rne ∧
    gives (vtouch 0) (afterFetch 0 faddI ready) (fun _ s => !s.blocked) = true ∧ fpFmt true 0 = some decimal64 ∧ pairBad true 1 6 true = false := by decide +kernel

/-- `ready` with elements of 2 ^ sew bytes and element 0 alone selected by m1. -/
def vecReady (sew : Nat) : State := ready.modCore 0 fun c => (c.csSetF R.CS_VCTL F.CS_VCTL_SEW sew).setM 1 1

def vaddI : Insn := mkInsn (encVR 0x20 6 4 5 0) [vN 4, vN 5, mkN 0] [vN 6]

theorem witness_VectorIntegerAndMergeResult : reachesB 0 vaddI (vecReady 3) = true ∧ ((vecReady 3).core 0).sew = 3 ∧ ((vecReady 0).core 0).sew = 0 ∧
    gives (vtouch 0) (afterFetch 0 vaddI (vecReady 3)) (fun _ s => !s.blocked) = true := by decide +kernel

theorem witness_VectorFloatingResult : reachesB 0 (mkInsn (encVR 0x40 6 4 5 0) ([vN 4, vN 5, mkN 0] ++ []) [vN 6]) (vecReady 2) = true ∧
    ((vecReady 2).core 0).sew = 2 ∧ ((vecReady 1).core 0).sew = 1 ∧ ((vecReady 4).core 0).sew = 4 ∧
    gives (vtouch 0) (afterFetch 0 (mkInsn (encVR 0x40 6 4 5 0) ([vN 4, vN 5, mkN 0] ++ []) [vN 6]) (vecReady 2)) (fun _ s => !s.blocked) = true := by decide +kernel

theorem witness_VectorMoveResult : reachesB 0 (mkInsn (encVR 0x17 0 0 0 0) [] []) (vecReady 4) = true ∧
    (((afterFetch 0 (mkInsn (encVR 0x17 0 0 0 0) [] []) (vecReady 4)).modCore 0 CoreState.longsDone).returnAll 0).blocked = false ∧
    ((vecReady 4).core 0).sew = 4 ∧
    gives (vtouch 0) (afterFetch 0 (mkInsn (encVR 0x17 0 0 0 0) [] []) (vecReady 4)) (fun _ s => !s.blocked) = true := by decide +kernel

def vldI : Insn := mkInsn (encVR 0 6 1 0 1) ([cN 1, mkN 1] ++ []) (vN 6 :: [])

def vldmI : Insn := mkInsn (encVR 8 6 1 0 0) [cN 1] [mF 6]

theorem witness_VectorMemoryResult : reachesB 0 vldI (vecReady 3) = true ∧ ((vecReady 3).core 0).vElems 1 (fun j => j * 8) = [(0, 0)] ∧
    (gives (vWatch 0 .unit false (coin 1 0x2000) 8 [(0, 0)]) (afterFetch 0 vldI (vecReady 3)) (fun _ _ => true) &&
      gives (vWatch 0 .unit true (coin 1 0x2000) 8 [(0, 0)]) (afterFetch 0 vldI (vecReady 3)) (fun _ _ => true) &&
      gives (vWatch 0 .mask false (coin 1 0x2000) 64 [(0, 0)]) (afterFetch 0 vldmI (vecReady 3)) (fun _ _ => true) &&
      gives (vWatch 0 .mask true (coin 1 0x2000) 64 [(0, 0)]) (afterFetch 0 vldmI (vecReady 3)) fun _ _ => true) = true ∧
    gives (vtouch 0) (afterFetch 0 vldI (vecReady 3)) (fun _ s =>
      gives (vLoadAll 0 .unit 1 (coin 1 0x2000) 8 [(0, 0)]) s (fun _ s => !s.blocked) &&
      gives (vCheckAll 0 .unit 1 (coin 1 0x2000) 8 [(0, 0)]) s fun hs s => gives (vWriteAll 0 (fun _ => natBytes 8 5) hs) s fun _ s => !s.blocked) = true ∧
    reachesB 0 vldmI (vecReady 3) = true ∧ gives (vtouch 0) (afterFetch 0 vldmI (vecReady 3)) (fun _ s =>
      gives (vLoadElem 0 .mask 1 (coin 1 0x2000) 0 64 0) s (fun _ s => !s.blocked) &&
      gives (vCheckElem 0 .mask 1 (coin 1 0x2000) 0 64 0) s fun hs s => gives (bufferStore 0 hs .data (natBytes 64 5) false) s fun _ s => !s.blocked) = true := by
  decide +kernel

/-- Element 0 of a unit-stride access by c2, which holds no coin. -/
def vldBad : Insn := mkInsn (encVR 0 6 2 0 1) ([cN 2, mkN 1] ++ []) (vN 6 :: [])
def vstBad : Insn := mkInsn (encVR 4 6 2 0 1) ([cN 2, mkN 1, vN 6] ++ []) []

theorem witness_VectorMemoryResult_traps : [vldBad, vstBad].all (fun i => reachesB 0 i (deep (vecReady 3)) &&
    gives (vWatch 0 .unit (i.word != vldBad.word) Coin.zero 8 [(0, 0)]) (afterFetch 0 i (deep (vecReady 3))) (fun _ _ => true) &&
    gives (vtouch 0) (afterFetch 0 i (deep (vecReady 3))) fun _ s =>
      (match vLoadAll 0 .unit 2 Coin.zero 8 [(0, 0)] s, vCheckAll 0 .unit 2 Coin.zero 8 [(0, 0)] s with
       | .error (.trap r) t, .error (.trap _) _ => gives (enter 0 r 0x100 0x100 id) t fun _ t => !t.blocked
       | _, _ => false)) = true := by decide +kernel

/-- Core 0 in heritage state, supervisor, in purse 4, its origin 0. -/
def herReady : State := ready.modCore 0 fun c => { (c.csSetF R.CS_STATUS F.CS_STATUS_HER 1).csSetF R.CS_HSTAT F.CS_HSTAT_SUP 1 with pcc := coin 4 0x1000 }

def reachesKB (k : CoreId) (i : Insn) (s : State) : Bool :=
  s.canIssue k true && (s.core k).flight.isNone && gives (interlock k i) s fun _ s₀ => (s₀.core k).due.isNone && gives (hFetch k i.word) s₀ fun _ s₁ => !s₁.blocked

theorem witness_HeritageRegisterResult : reachesKB 0 (mkInsn (encK 1 2 3 1) [hN 2, hN 3] [hN 2]) herReady = true := by decide +kernel

/-- The address of a K16 data access of core k whose operand is word a16. -/
def hOff (k : CoreId) (a16 : Nat) (s : State) : Int :=
  ((s.core k).hAddr ((s.core k).hWord a16)).toNat - (s.core k).pcc.cursor.toNat
def hVa (k : CoreId) (a16 : Nat) (s : State) : Int := checkAddr (s.core k).pcc (hOff k a16 s)

/-- Such an access that no watchpoint, MPU region or check of purse entry p, which the core has cached, stops. -/
def hPasses (k : CoreId) (a16 : Nat) (write : Bool) (p : Purse) (s : State) : Prop :=
  (s.core k).flight = none ∧ (s.core k).watchHit (ofInt 64 (hVa k a16 s)).toNat 2 (!write) write = none ∧
    (s.core k).mpu ((s.core k).hWord a16) (if write then .write else .read) = none ∧ checkBefore s.ptbCount (s.core k).pcc = none ∧
    cachedFirst k (s.core k).pcc.purse p s = true ∧
    checkEntryN (neededRights (if write then 1 else 0)) p (s.core k).pcc (hVa k a16 s) 2 (if write then 1 else 0) none (s.core k).ring
      (s.core k).asid = none

/-- A K16 data access whose entry the fetch has cached, up to its translation. -/
theorem hAccess_hit {s : State} {k : CoreId} {insn a16 : Nat} {write : Bool} {p : Purse} (h : hPasses k a16 write p s) :
    hAccess k insn a16 write s =
      (do let hs ← xlateAll k (xHer (if write then 1 else 0) ((hVa k a16 s).toNat % 2 != 0)) (s.core k).ring (splitVa (hVa k a16 s).toNat 2) false
          pure (splitVa (hVa k a16 s).toNat 2, hs) : CM _) s.bumpFree := by
  obtain ⟨hl, hw, hm, hb, hc, he⟩ := h
  unfold hVa hOff at *
  have h1 : coinCheck k 16 (s.core k).pcc (((s.core k).hAddr ((s.core k).hWord a16)).toNat - (s.core k).pcc.cursor.toNat) 2 (if write then 1 else 0) none 0 s =
      .ok _ s.bumpFree := bind_ok (coinCheckN_hit hl hb (cachedFirst_hit hc) he)
  simp only [hAccess, bind, EStateM.bind, getC, watch, hw, mpuCheck, hm, h1]

/-- The heritage state after its fetch, and what a load and a store at h3 + 0 then do. -/
def herFetched (w : Nat) : State := okState (hFetch 0 w) herReady

def herOrdered : State := (herFetched 0x6230).orderBefore 0 false

theorem witness_K16Load : (herFetched 0x6230).blocked = false ∧ ∃ s₂, hLoad 0 0x6230 0 2 true (herFetched 0x6230) = .ok () s₂ ∧ s₂.blocked = false := by
  have h := hAccess_hit (insn := 0x6230) (show hPasses 0 0 false (entry 6) herOrdered by unfold hPasses; decide +kernel)
  rw [show (hVa 0 0 herOrdered).toNat = 0 by decide +kernel, show (herOrdered.core 0).ring = 0 by decide +kernel] at h
  obtain ⟨r, h1, h2⟩ := gives_ok (m := do let hs ← xlateAll 0 (xHer (if false then 1 else 0) (0 % 2 != 0)) 0 (splitVa 0 2) false; pure (splitVa 0 2, hs))
    (s := herOrdered.bumpFree)
    (p := fun r t => gives (do startLoad 0 r.1 r.2 false .word16 (.h 2) false; openShadow 0 (.h 2) (((herFetched 0x6230).core 0).read (.h 2))) t
      fun _ t => !t.blocked) (by decide +kernel)
  obtain ⟨_, h3, h4⟩ := gives_ok h2
  refine ⟨by decide +kernel, _, ?_, by simpa using h4⟩
  rw [h1] at h
  have h' : hAccess 0 0x6230 0 false ((herFetched 0x6230).orderBefore 0 false) = _ := h
  simp only [hLoad, bind, EStateM.bind, getC, modS, if_true, h'] at h3 ⊢
  exact h3

theorem witness_K16Store : ∃ s₂, hStore 0 0x7230 0 5 (herFetched 0x7230) = .ok () s₂ ∧ s₂.blocked = false := by
  have h := hAccess_hit (insn := 0x7230) (show hPasses 0 0 true (entry 6) (herFetched 0x7230) by unfold hPasses; decide +kernel)
  rw [show (hVa 0 0 (herFetched 0x7230)).toNat = 0 by decide +kernel, show ((herFetched 0x7230).core 0).ring = 0 by decide +kernel] at h
  obtain ⟨r, h1, h2⟩ := gives_ok (m := do let hs ← xlateAll 0 (xHer (if true then 1 else 0) (0 % 2 != 0)) 0 (splitVa 0 2) false; pure (splitVa 0 2, hs))
    (s := (herFetched 0x7230).bumpFree)
    (p := fun r t => gives (bufferStore 0 r.2 .data (natBytes 2 5) false) t fun _ t => !t.blocked) (by decide +kernel)
  obtain ⟨_, h3, h4⟩ := gives_ok h2
  refine ⟨_, ?_, by simpa using h4⟩
  rw [h1] at h
  simp only [hStore, bind, EStateM.bind, h]
  exact h3

/-! HENTER and HEXIT -/

def henterI : Insn := mkInsn (encRI 0x1A 0 4 6 0) [cN 4] []

def entering : State := okState (coinCheckP 0 4 (coin 4 0x1000) 0 2 0 none 0 (henterTest (coin 4 0x1000))) (afterFetch 0 henterI ready)

theorem witness_HeritageFlowAndMemoryResult :
    gives (coinCheckP 0 4 (coin 4 0x1000) 0 2 0 none 0 (henterTest (coin 4 0x1000))) (afterFetch 0 henterI ready) (fun _ s =>
      !s.blocked && (s.core 0).retCoin == coin 0 0x104 0x004) = true ∧
    (∃ s₃, push1 0 (coin 0 0x104 0x004) entering = .ok () s₃ ∧ s₃.blocked = false) ∧
    gives (hFetch 0 (encK 0 1 0 0)) herReady (fun _ s => gives (pop1 0) s fun r s =>
      (!r.1.tag && !bitB r.1.bits 127) && !((s.modCore 0 fun c => (c.ccSet (R.CS_RSTK c.ring) r.2).csSetF R.CS_STATUS F.CS_STATUS_HER 0).complete 0 false 2
        (.coin r.1)).blocked) = true := by
  refine ⟨by decide +kernel, ?_, by decide +kernel⟩
  obtain ⟨a, ha, hp⟩ := gives_ok (m := rscheck 0 0 (coin 2 0x5000) 0x4FF0) (s := entering) (p := fun a t => a == 0x4FF0 &&
    gives (stackHalf 0 0 0x4FF0 true) t fun _ t => !t.blocked && (t.core 0).pcache.find? (fun e => e.1 == 0) == some (0, entry 1) &&
      !t.readHeld (t.entryAddr 0) 32 && !t.dirFull 0 && t.purseRead 0 == .ok (entry 1) && decide (0 < t.ptbCount)) (by decide +kernel)
  simp only [Bool.and_eq_true, beq_iff_eq] at hp
  obtain ⟨rfl, hp⟩ := hp
  obtain ⟨h, hh, hq⟩ := gives_ok hp
  simp only [Bool.and_eq_true, beq_iff_eq, Bool.not_eq_true', decide_eq_true_eq] at hq
  obtain ⟨⟨⟨⟨⟨q1, q2⟩, q3⟩, q6⟩, q4⟩, q5⟩ := hq
  obtain ⟨t, ht, hb, _⟩ := retire_ok (k := 0) (x := coin 0 0x104 0x004) (p := entry 1)
    ⟨by decide +kernel, q5, by decide +kernel, q2, q3, q6, q4⟩
  refine ⟨_, push1_of (n := 0) (r := coin 2 0x5000) (by decide +kernel) (by decide +kernel) ha hh ht, ?_⟩
  rw [State.modCore_blocked, State.modCore_blocked, hb, q1]

def brkFetched : State := afterFetch 0 brkI trapReady
def brkLanded : State := brkFetched.modCore 0 fun c => { c with flight := none }

theorem witness_TrapEntryEffect : ∃ d s₁ s₂, d.keep = true ∧ (brkFetched.core 0).csF R.CS_EMINFO F.CS_EMINFO_EMDEPTH = 0 ∧
    brkLanded.pickDesc 0 0x13 = (.ok (d, 0x13, false), s₁) ∧ push2 0 0 (coin 0 0x104 0x004) (statusGranule 0 0x13 false false) s₁ = .ok () s₂ ∧
    (s₂.core 0).vUsed = false := by
  have hd : (brkLanded.pickDesc 0 0x13).1 = .ok (⟨coin 6 0x800 0x004, 0x90, true⟩, 0x13, false) := by decide +kernel
  obtain ⟨t, h1, -, h2⟩ := push2_goes (s := (brkLanded.pickDesc 0 0x13).2) (k := 0) (n := 0) (a := 0x4FE0) (x := coin 0 0x104 0x004)
    (y := statusGranule 0 0x13 false false) (r := coin 2 0x5000) (p := stack) (q := entry 1) (by decide +kernel) (by decide +kernel) (by decide +kernel)
    (by decide +kernel)
  exact ⟨_, _, t, by decide +kernel, by decide +kernel, Prod.ext hd rfl, h1, h2⟩

/-- A save list of purse 1 at 0x2000 whose next area is purse 5's at 0x3000. -/
def saveReady : State :=
  { ready with mem := [(0x2001, 0x30#8), (0x2008, 5#8), (0x200C, 5#8), (0x200E, 0xF0#8), (0x200F, 0x79#8), (0x2020, 1#8)] ++ ready.mem, tags := [(0x200, true)] }.modCore 0
    fun c => c.ccSet R.CS_SAVEHEAD (coin 1 0x2000)

theorem witness_SaveAreaResult_rest : reachesB 0 (restInsn 2 true) saveReady = true ∧
    gives (areaCheck 0 (coin 1 0x2000) 320) (afterFetch 0 (restInsn 2 true) saveReady) (fun a s => a == 0x2000 &&
      gives (xlateLines 0 false a 1) (s.orderBefore 0 false) fun h1 s => gives (readNow 0 a (areaPart h1 32 8) false 0) s fun w s => bytesNat w.1 % 4 == 1 &&
        gives (xlateLines 0 false a 5) s fun hs s => gives (xlateLines 0 true a 1) s fun _ s => gives (readLines 0 a hs) s fun r s =>
        gives (retireM 0 ⟨0, false⟩) s fun _ s => gives (restCoins 0 r.1 r.2 (List.range 8)) s fun _ t => !t.blocked) = true := by decide +kernel

def saving : State :=
  let s := (okState (areaCheck 0 (coin 1 0x2000) 16) (afterFetch 0 (saveInsn 0 true) saveReady)).orderBefore 0 false
  let s := okState (readNow 0 0x2000 ⟨0x2000, 16, .normal⟩ true 0) (okState (xlateLines 0 false 0x2000 1) s)
  okState (retireM 0 (coin 5 0x3000)) s

theorem witness_SaveAreaResult_save : reachesB 0 (saveInsn 0 true) saveReady = true ∧
    gives (areaCheck 0 (coin 1 0x2000) 16) (afterFetch 0 (saveInsn 0 true) saveReady) (fun a s => a == 0x2000 &&
      gives (xlateLines 0 false a 1) (s.orderBefore 0 false) fun hl s => areaPart hl 0 16 == ⟨0x2000, 16, .normal⟩ &&
        gives (readNow 0 a ⟨0x2000, 16, .normal⟩ true 0) s fun r s =>
        Coin.mk (BitVec.ofNat 128 (bytesNat r.1)) r.2 == coin 5 0x3000 && gives (retireM 0 (coin 5 0x3000)) s fun n _ => n == coin 5 0x3000) = true ∧
    ∃ t, areaCheck 0 (coin 5 0x3000) 320 saving = .ok 0x3000 t ∧
      gives (xlateLines 0 true 0x3000 5) t (fun hs s => gives (saveCoins 0 hs true (List.range 8)) s fun _ s =>
        gives (saveWords 0 hs true (List.range 16)) s fun _ t => !t.blocked) = true := by
  refine ⟨by decide +kernel, by decide +kernel, saving.bumpFree, ?_, by decide +kernel⟩
  have h : coinCheckN 0x01B 0 16 (coin 5 0x3000) 0 320 5 none 0 (fun _ => none) saving =
      .ok ((checkAddr (coin 5 0x3000) 0).toNat, entry 0) saving.bumpFree :=
    coinCheckN_hit (by decide +kernel) (by decide +kernel) (cachedFirst_hit (by decide +kernel)) (by decide +kernel)
  unfold areaCheck
  rw [if_neg (by decide +kernel)]
  exact bind_ok h

/-! K16 instructions that trap or transfer -/

/-- A SVC of K16 with the descriptor of trap 0x12 in place, its frame pushed onto CS_EMRSTK. -/
def svcReady : State :=
  (deep trapReady).modCore 0 fun c => { (c.csSetF R.CS_STATUS F.CS_STATUS_HER 1).csSetF R.CS_HSTAT F.CS_HSTAT_SUP 1 with pcc := coin 4 0x1000 }

theorem witness_TrapInstructionResult_k16 : reachesKB 0 (mkInsn 0x200 [] []) svcReady = true ∧
    gives (hFetch 0 0x200) svcReady (fun _ s =>
      let c := s.core 0
      let info := hfinfo 4 (Config.freeNat s.free % 4) (Config.freeNat (s.free + 1) % 16) false 0x200 c.hPc
      gives (enter 0 ⟨0x12, 0, [(R.CS_HFINFO, info)]⟩ (c.nextAddr 2) (c.hAddr c.hPc) id) (s.bumpFree.bumpFree.complete 0 false 2 .done)
        fun _ t => !t.blocked) = true := by decide +kernel

theorem witness_HeritageFlowAndMemoryResult_transfers : allOf [
    reachesKB 0 (mkInsn (encK 9 0 0 2) [] []) herReady, reachesKB 0 (mkInsn (0xB * 2 ^ 12 + 2) [] []) herReady,
    reachesKB 0 (mkInsn (0xA * 2 ^ 12 + 2) [] [hN 14, hN 15]) herReady, reachesKB 0 (mkInsn (encK 8 3 0 2) [hN 2, hN 3] []) herReady,
    reachesKB 0 (mkInsn (encK 8 4 0 2) [hN 2, hN 3] [hN 14, hN 15]) herReady, reachesKB 0 (mkInsn (encK 0xC 2 0 3) [hN 2] []) herReady,
    (herReady.core 0).hR 2 == 0, ((herReady.modCore 0 fun c => c.setH 2 5).core 0).hR 2 == 5, decide ((herReady.core 0).hPc % 2 ^ 16 + 3 ≤ 0xFFFF),
    (herReady.core 0).csF R.CS_LDEPTH F.CS_LDEPTH_DEPTH != 3] = true := by decide +kernel

/-! Events of the pipeline -/

def ldReturn : State := ready.modCore 0 fun c => { c with loads := [⟨.g 6, [⟨⟨0x2000, 8, .normal⟩, none⟩], .gpr false⟩] }

def stReady (pa : Nat) : State := ready.modCore 0 fun c => { c with sb := [⟨.data, pa, natBytes 8 5, .normal, false, false, .none⟩] }

/-- The line at 0x2000 poisoned, all of it in core 0's store buffer. -/
def stLine : State :=
  { ready with poison := [(0x80, true)] }.modCore 0 fun c =>
    { c with sb := [0x2000, 0x2020].map fun pa => ⟨.data, pa, List.replicate 32 5, .normal, false, false, .none⟩ }

theorem witness_LoadAndStorePerformedResult : allOf [
    !ldReturn.blocked, !ldReturn.loadHeld ⟨.g 6, [⟨⟨0x2000, 8, .normal⟩, none⟩], .gpr false⟩,
    ((ready.core 0).loads[0]?).isNone,
    (let l : Load := ⟨.g 6, [⟨⟨0x203C, 4, .normal⟩, none⟩, ⟨⟨0x2040, 4, .normal⟩, none⟩], .gpr false⟩
     decide (2 ≤ (l.parts.filter fun p => p.got.isNone).length) && !ready.loadHeld l),
    (let s := ready.modCore 0 fun c => { c with loads := [⟨.c 6, [⟨⟨0x2000, 16, .normal⟩, none⟩], .coin⟩] }
     !s.blocked && !(s.loadReturn 0 0).blocked),
    ({ ready with cellLocks := [⟨0x2000, .posting 8⟩] } : State).loadHeld ⟨.g 6, [⟨⟨0x2000, 8, .normal⟩, none⟩], .gpr false⟩,
    (stReady 0x2000).sbMayLeave ((stReady 0x2000).core 0).sb 0, !(stReady 0x2000).storesHeld 0, !(stReady 0x2000).poisoned 0x2000,
    (match (stReady 0x2000).target 0x2000 with | .local a _ _ => a == 0x2000 | _ => false),
    (stReady 0x2000).entriesIn 0x2000 8 == [], !(stReady 0x2000).writeHeld 0x2000 8, ((stReady 0x2000).core 0).loads == [], (stReady 0x2000).purseWrs == [],
    !(stReady 0x2000).sbMayLeave [] 0, (stLine.core 0).loads == [], stLine.poisoned 0x2000, stLine.mergeSet 0 0 != [], stLine.sbMayLeave (stLine.core 0).sb 0] = true := by decide +kernel

/-- A store to DBH_PEND on its way, and a refused write to report. -/
def ctlStore : State :=
  ready.modCore 0 fun c => { c with sb := [⟨.data, 0xFF0000000000 + R.DBH_PEND, natBytes 4 5, .device, false, false, .none⟩] }

def postI : Insn := mkInsn (encRR 0x2A 6 1 0 0 0) [cN 1] [gN 6]

/-- The lines of a POST of n lines at cursor a, read after its checks, and what follows. -/
def posts (a n : Nat) (s : State) (p : List Byte → State → Bool) : Bool :=
  gives (watch 0 (coin 1 a) 0 (64 * n) true false) s fun _ s => gives (coinCheck 0 1 (coin 1 a) 0 (64 * n) 8 none 0) s fun va s =>
    gives (postLines 0 va n) (if n = 1 then s.orderBefore 0 false else s) fun hs s => gives (readLines 0 va hs) s fun r s => p r.1 s

def handed (s : State) : State := (s.drainAll 0).finishCorePurseWrs 0

/-- Purse 1 in the window of socket 1, its line there cached, port 0 UP to that socket. -/
def postFar : State :=
  let s : State := { ready with mem := (0x8025, 0x20#8) :: ready.mem, rlines := [⟨0x200000002000, List.replicate 64 0, 0, false, true, false⟩] }
  ((s.setRf (R.PEER_STAT 0x130) F.PEER_STAT_STATE 2).setRf (R.PEER_CFG 0x130) F.PEER_CFG_SOCKET 1).modCore 0 fun c =>
    { c with c := c.c.set 1 (coin 1 0x200000002000) }

theorem witness_PipelineEventAndPostResult : allOf [
    (let s := ctlStore.sampleOverlapping 0 (0xFF0000000000 + R.DBH_PEND) 4
     let r := s.ctlWrite 0 R.DBH_PEND 4 5
     ctlStore.sbMayLeave (ctlStore.core 0).sb 0 && !ctlStore.storesHeld 0 && !ctlStore.blocked && !s.blocked && !r.2.blocked &&
       (match r.1 with | .ok _ => true | _ => false) && (match ctlStore.target (0xFF0000000000 + R.DBH_PEND) with | .control k => k == R.DBH_PEND | _ => false)),
    !unitExists 0x1FF, unitExists (R.DBH_PEND / 0x1000000), !ready.inReset, !ready.blocked,
    (match regHit (R.TEL_EVSEL 0x110 0) 4 with | .clash => true | _ => false), (match regHit (R.DBH_PEND + 0x800000) 4 with | .hole => true | _ => false),
    (match regHit (R.TEL_EVSEL 0x110 0) 8 with
     | .exact r => r.name != .IMG_APPLY && r.name != .DBG_CSEL && (let x := ready.regWrite false 0 (R.TEL_EVSEL 0x110 0) r 1; !x.2.blocked && match x.1 with | .ok _ => true | _ => false)
     | _ => false),
    (let x := (ready.setRf R.DBG_CTL F.DBG_CTL_LEVEL 2).mctlWrite 2; !x.2.blocked && match x.1 with | .ok _ => true | _ => false),
    (csRule 0 R.CS_ASID).any (!·.coin), (ready.core 0).csF R.CS_BANKWIN F.CS_BANKWIN_BANK == 0,
    ready.localOf 0x2000 == some 0x2000, !ready.writeHeld 0x2000 8, ready.entriesIn 0x2000 8 == [], (ready.core 0).refused == [],
    (ready.core 0).csF R.CS_DBCTL F.CS_DBCTL_WNDB != 1, ((ready.core 0).csSetF R.CS_DBCTL F.CS_DBCTL_WNDB 1).csF R.CS_DBCTL F.CS_DBCTL_WNDB == 1,
    ready.canIssue 0 (ready.core 0).her, (ready.core 0).pfx.isNone, (ready.core 0).due.isNone, (ready.core 0).flight.isNone,
    ((ready.modCore 0 fun c => { c with flight := some 0 }).canIssue 0 false), !(ready.core 0).her] = true ∧
    (let s := (deep trapReady).modCore 0 fun c => { c with lineN := true, ax := [⟨0, 0, 0, 0, 0x100⟩] }
     (s.core 0).due == some .arithmetic && gives (takeEvent 0 .arithmetic) s fun _ t => !t.blocked) = true ∧
    (legalWord 0 = false ∧ reachesB 0 { mkInsn 0 [] [] with pfx := true } (deep trapReady) = true ∧
      gives (enter 0 ⟨0x00, 0, []⟩ 0x100 0x100 id) (afterFetch 0 { mkInsn 0 [] [] with pfx := true } (deep trapReady)) (fun _ t => !t.blocked) = true) ∧
    posts 0x2000 1 (afterFetch 0 postI ready) (fun b s => legCount b == 0 && (match (handed s).target 0x2000 with | .local .. => true | _ => false) &&
      !((handed s).newPosting (.post 0) 0 b [] 0 0 0 0 .sent).blocked) = true ∧
    posts 0x200000002000 1 (afterFetch 0 postI postFar) (fun b s => legCount b == 0 && (handed s).portOf 1 == some 0 &&
      (match (handed s).target 0x200000002000 with | .window so la => so == 1 && la == 0x2000 | _ => false) &&
      !((handed s).sendPost 0 5 0 0x2000 b [] (pfwContext 0 0 0 0)).blocked) = true := by decide +kernel

/-- A POST of one leg after its header is read. -/
def postLegs : State :=
  let s := okState (coinCheck 0 1 (coin 1 0x2000) 0 64 8 none 0) (afterFetch 0 postI { ready with mem := (0x2008, 0x40#8) :: ready.mem })
  okState (readLines 0 0x2000 [⟨0x2000, 64, .normal⟩]) (okState (postLines 0 0x2000 1) (s.orderBefore 0 false))

theorem witness_PipelineEventAndPostResult_legs :
    posts 0x2000 1 (afterFetch 0 postI { ready with mem := (0x2008, 0x40#8) :: ready.mem }) (fun b _ => legCount b == 1) = true ∧
    gives (watch 0 (coin 1 0x2000) 0 96 true false) postLegs (fun _ _ => true) = true ∧
    ∃ t, coinCheck 0 1 (coin 1 0x2000) 0 96 8 none 0 postLegs = .ok 0x2000 t ∧
      gives (postLines 0 0x2000 2) t (fun hs s => gives (readLines 0 0x2000 hs) s fun r s => r.1.length == 128 &&
        (match (handed s).target 0x2000 with | .local .. => true | _ => false) &&
        !((handed s).newPosting (.post 0) 0 (r.1.take 96) [] 0 0 0 0 .sent).blocked) = true := by
  refine ⟨by decide +kernel, by decide +kernel, postLegs.bumpFree, ?_, by decide +kernel⟩
  exact bind_ok (coinCheckN_hit (p := entry 0) (by decide +kernel) (by decide +kernel) (cachedFirst_hit (by decide +kernel)) (by decide +kernel))

/-! Power, start-up, management -/

/-- Reset with everything at hand for its end. -/
def powered : State := { State.reset with pins := { State.reset.pins with pwrGood := true, rails := 0x3FF, refclk := true } }

theorem witness_ResetAndPowerResult : (powered.inReset && powered.pins.pwrGood && powered.pins.rails == 0x3FF && powered.pins.refclk) = true ∧
    (50 : Nat) ≤ 50 ∧ powered.flashOp = none ∧ State.reset.pins.pwrGood = false ∧ live.inReset = false ∧ live.mode ≠ .drain ∧ live.mode ≠ .load ∧
    live.held = [] ∧ ({ live with pins := powered.pins } : State).pins.refclk = true ∧ (live.setMode .drain).mode = .drain ∧
    ({ live with mode := .load } : State).boot.stop = .no := by decide +kernel

theorem witness_ThermalPowerAndTimeResult : hottest ([(0x100, (200 : Int)), (0x80, 400)].filter fun x => hasDiode x.1) = some (0x80, 400) ∧
    hottest ([(0x80, (460 : Int))].filter fun x => hasDiode x.1) = some (0x80, 460) ∧ ([(0, (5 : Int))].filter fun x => hasDiode x.1) = [] ∧
    edgeSel ((live.setRf (R.DBH_WAKE 32) F.DBH_WAKE_EDGE 1).rf (R.DBH_WAKE 32) F.DBH_WAKE_EDGE) true = true ∧
    edgeSel (live.rf (R.DBH_WAKE 0) F.DBH_WAKE_EDGE) true = false ∧ live.rf R.TIME_PPSCTL F.TIME_PPSCTL_EN = 0 ∧
    (live.setRf R.TIME_PPSCTL F.TIME_PPSCTL_EN 1).rf R.TIME_PPSCTL F.TIME_PPSCTL_EN = 1 ∧ live.followsPeer = false ∧ live.mode ≠ .load ∧ live.held = [] ∧
    3 ∈ (live.setReg (R.MGMT_CLK 0x83) 0x2828).clocked ∧ (live.setReg (R.MGMT_CLK 0x83) 0x2828).clkCur 3 ≠ 16 ∧
    ({ live with pins := { live.pins with trip := true }, time := 1000000 } : State).pins.tripAt.toNat + 1000000 ≤ 1000000 := by decide +kernel

/-- The bytes at a flash offset. -/
def place (o : Nat) (bs : List Byte) : List Host.Cell := bs.zipIdx.map fun b => (o + b.2, b.1)

/-- Slot A with a PARAM segment that holds END, an empty PURSE segment and an ENTRY segment of n records, of which the first rel
release their cores; a calibration block. The CRCs are those of the erased record, of END and of that block. -/
def image (n rel : Nat) : List Host.Cell :=
  let seg (ty off len crc : Nat) : List Byte := natBytes 8 ty ++ natBytes 8 off ++ natBytes 8 len ++ natBytes 4 crc ++ natBytes 4 0
  (((List.range n).filter (rel ≤ ·)).map fun i => (0x101040 + 64 * i + 40, 0xFE#8)) ++
  place 0 (natBytes 8 0x404C43444B ++ natBytes 8 0) ++ place 60 (natBytes 4 0xF70C7AB0) ++
  place 0x100000 (natBytes 4 0x4D49444B ++ natBytes 2 1 ++ natBytes 2 4096 ++ natBytes 4 0x9128 ++ natBytes 1 1 ++ natBytes 1 0 ++ natBytes 2 3 ++
    natBytes 8 1 ++ natBytes 8 (4160 + 64 * n)) ++
  place 0x100100 (seg 1 4096 8 0x8C28B28A ++ seg 3 4160 0 0 ++ seg 4 4160 (64 * n) 0x2FCD4E66) ++ place 0x101000 (natBytes 8 0)

def staged (k : Nat) (flash : List Host.Cell) : State :=
  { State.reset with inReset := false, flash := flash }.setRf R.IMG_STATUS F.IMG_STATUS_STAGE k

def dimms : ChanFind := ⟨1, 1, false, 1, 16, true, true, true⟩

theorem witness_StartUpStageResult : allOf [
    [1, 2, 3, 4, 5, 6, 7, 8, 9].all fun k => (staged k []).stageReady k && !(staged 0 []).stageReady k,
    (staged 1 []).boot.stop == .no, ((staged 2 []).slotErr 0).isSome, (staged 2 (image 1 1)).slotErr 0 == none, (staged 2 (image 1 1)).curSlot == 0,
    (match (staged 3 (image 1 1)).applyCheck 0 with | .error _ => true | .ok _ => false),
    commonKind (List.replicate 16 dimms) == some dimms, live.chanReady 15, !(staged 7 []).chanReady 3,
    ({ staged 2 [] with boot := { (staged 2 []).boot with stop := .atEnd } } : State).stageReady 2,
    !(staged 3 (image 1 1)).calOk false, (staged 2 []).openPart, !((staged 2 []).setReg (R.IMG_FKEY 0) 1).openPart, (staged 2 []).rf R.IMG_STATUS F.IMG_STATUS_FALLBACK == 0,
    ((staged 2 []).setRf R.IMG_STATUS F.IMG_STATUS_FALLBACK 1).stageReady 2,
    (let s : State := { live.setRf R.IMG_STATUS F.IMG_STATUS_STAGE 7 with mode := .load, boot := { live.boot with top := 65536 } }
     s.stageReady 7 && (List.range 16).all s.chanReady),
    ({ staged 6 [] with boot := { (staged 6 []).boot with lanesOn := true } } : State).stageReady 6,
    ((staged 9 (image 1 1)).entryRec 0 0).any (·.release), (staged 9 (image 1 1)).unitUp 0x80] = true := by decide +kernel

def ones : List Byte := [0xFF, 0xFF, 0xFF, 0xFF, 0xFF, 0xFF, 0xFF, 0xFF]

/-- The calibration block passes its check; its CRC is taken eight bytes at a time. -/
theorem witness_StartUpStageResult_calibration : (staged 3 (image 128 0)).calOk true = true := by
  have hl : (staged 3 (image 128 0)).flNat 4 4 = 64 := by decide +kernel
  have hz : zero60 ((staged 3 (image 128 0)).flBytes 0 64) =
      [0x4B, 0x44, 0x43, 0x4C, 0x40, 0x0, 0x0, 0x0] ++ [0x0, 0x0, 0x0, 0x0, 0x0, 0x0, 0x0, 0x0] ++ ones ++ ones ++ ones ++ ones ++ ones ++ [0xFF, 0xFF, 0xFF, 0xFF, 0x0, 0x0, 0x0, 0x0] := by decide +kernel
  have h0 : List.foldl crcByte 0xFFFFFFFF ([0x4B, 0x44, 0x43, 0x4C, 0x40, 0x0, 0x0, 0x0] : List Byte) = 0xAC92D706 := by decide +kernel
  have h1 : List.foldl crcByte 0xAC92D706 ([0x0, 0x0, 0x0, 0x0, 0x0, 0x0, 0x0, 0x0] : List Byte) = 0xEAA2C983 := by decide +kernel
  have h2 : List.foldl crcByte 0xEAA2C983 (ones : List Byte) = 0x3793EFA1 := by decide +kernel
  have h3 : List.foldl crcByte 0x3793EFA1 (ones : List Byte) = 0x817C268C := by decide +kernel
  have h4 : List.foldl crcByte 0x817C268C (ones : List Byte) = 0x14691EA2 := by decide +kernel
  have h5 : List.foldl crcByte 0x14691EA2 (ones : List Byte) = 0xA3078A49 := by decide +kernel
  have h6 : List.foldl crcByte 0xA3078A49 (ones : List Byte) = 0x57DCDE7 := by decide +kernel
  have h7 : List.foldl crcByte 0x57DCDE7 ([0xFF, 0xFF, 0xFF, 0xFF, 0x0, 0x0, 0x0, 0x0] : List Byte) = 0x8F3854F := by decide +kernel
  simp only [State.calOk, hl, hz, crc32c, List.foldl_append, h0, h1, h2, h3, h4, h5, h6, h7]
  decide +kernel

/-- APPLY accepts an image without records whose 128 entry records start no core. -/
theorem apply_ok {s : State} {g : Seg} (h1 : s.params 0 = .ok []) (h2 : recsErr [] = none) (h4 : s.segsOf 0 4 = [g]) (h5 : s.segsOf 0 5 = [])
    (h6 : s.segsOf 0 6 = []) (hg : g.len = 8192) (h7 : ∀ i, i < 128 → s.im 0 (g.off + 64 * i + 40) 8 % 2 = 0) : s.applyCheck 0 = .ok [] := by
  have hf : ∀ cs : List (Bool × BootErr), (∀ c ∈ cs, c.1 = true) → firstErr cs = none := by
    intro cs h
    simp only [firstErr, Option.map_eq_none_iff, List.find?_eq_none]
    intro c hc
    simp [h c hc]
  have h3 : s.spanErr 0 [] = none := by
    apply hf
    intro c hc
    simp only [State.purseItems, State.preBlocks, h5, h6, List.flatMap_nil, List.map_nil, List.append_nil, List.cons_append, List.nil_append,
      List.mem_cons, List.mem_map, List.mem_range] at hc
    obtain rfl | ⟨i, hi, rfl⟩ := hc
    · rfl
    · have hb : ¬ 64 * i + 64 > g.len := by omega
      simp [State.entryRec, h4, hb, h7 i hi]
  simp only [State.applyCheck, h1, h2, h3]

/-- The lowest bit of eight bytes is that of the first. -/
theorem im_even (s : State) (slot o : Nat) : s.im slot o 8 % 2 = (SMap.get erasedByte s.flash (s.slotOff slot + o)).toNat % 2 := by
  simp only [State.im, State.flNat, State.flBytes, State.flB, List.range_succ, List.range_zero, List.nil_append, List.cons_append, List.map_cons,
    List.map_nil, bytesNat, Nat.add_zero]
  omega

theorem witness_StartUpStageResult_apply : (staged 3 (image 128 0)).applyCheck 0 = .ok [] := by
  have h7 : (List.range 128).all (fun i => (SMap.get erasedByte (image 128 0) (0x100000 + (4160 + 64 * i + 40))).toNat % 2 == 0) = true := by
    decide +kernel
  refine apply_ok (g := ⟨2, 4, 4160, 8192, 0x2FCD4E66⟩) (by decide +kernel) (by decide +kernel) (by decide +kernel) (by decide +kernel)
    (by decide +kernel) rfl fun i hi => ?_
  rw [im_even]
  exact beq_iff_eq.mp (List.all_eq_true.mp h7 i (List.mem_range.mpr hi))

theorem witness_FlashAndEftResult : allOf [
    live.flashOp == none, decide (0x10000 < live.flashSize), live.unitState 0x100 ≠ 2,
    (let s := { live.setRf R.MGMT_EFT F.MGMT_EFT_WDT 1 with boot := { live.boot with eftRunning := true }, time := 1000000 }
     s.boot.eftRunning && s.rf R.MGMT_EFT F.MGMT_EFT_WDT != 0 && decide (s.boot.kicked.toNat + s.rf R.MGMT_EFT F.MGMT_EFT_WDT * 1000000 ≤ s.time.toNat)),
    live.slotErr 1 ≠ none, ((staged 2 (image 1 1)).setRf R.IMG_STATUS F.IMG_STATUS_SLOT 1).curSlot == 1, (staged 2 (image 1 1)).slotErr 0 == none,
    !live.boot.eftRunning, live.curSlot ≠ 1] = true := by decide +kernel

/-- Slice 0 fenced, the image's PARAM segment in slot A; its first byte as given. -/
def fencedImage (b : Byte) : State :=
  (staged 9 ((image 1 1).map fun c => if c.1 = 0x101000 then (c.1, b) else c)).setRf (R.MGMT_USTAT 0x100) F.MGMT_USTAT_STATE 2

theorem witness_FlashAndEftResult_apply : allOf [
    unitExists 0x100, (fencedImage 0).unitState 0x100 == 2, (fencedImage 0).curSlot == 0, ((fencedImage 0).segsOf 0 1).filter (fun x => x.idx == 7) == [],
    (fencedImage 0).segsOf 0 1 != [], ((fencedImage 0).segsOf 0 1).all ((fencedImage 0).segCrcOk 0), ((fencedImage 1).segsOf 0 1).all fun x => !(fencedImage 1).segCrcOk 0 x,
    ((fencedImage 0).segsOf 0 1).all fun x => match (fencedImage 0).segRecs 0 x with | .ok rs => rs == [] | .error _ => false] = true := by decide +kernel

def braked (m : Mode) : State := { live with mode := m, brum := some (Brumation.asked 2) }

theorem witness_ModeRequestResult : allOf [
    live.rf R.MGMT_MODE F.MGMT_MODE_BUSY == 0, (live.setRf R.MGMT_MODE F.MGMT_MODE_BUSY 1).rf R.MGMT_MODE F.MGMT_MODE_BUSY == 1, live.mode == .run,
    (braked .run).quiet, !(((braked .run).settleCores.setMode .brumation).makeChange (Brumation.asked 2)).blocked, (braked .brumation).held == [],
    (live.setMode .diagnostic).mode == .diagnostic] = true := by decide +kernel

/-- Teller 0 about to be handed over to teller 1; slice 2 about to be fenced. -/
def opState : State := { live with unitOps := [⟨0x100, 6, 1⟩, ⟨0x102, 1, 0⟩] }
def idleCluster (stop : Nat) : State :=
  (List.range 8).foldl (fun (s : State) j => s.modCore (coreOf j) fun c => { c with run := .waiting })
    (live.setRf (R.MGMT_CLK 0x80) F.MGMT_CLK_STOPIDLE stop)

theorem witness_UnitOperationResult : allOf [
    unitExists 0x100, (live.setRf (R.MGMT_USTAT 0x100) F.MGMT_USTAT_BUSY 1).rf (R.MGMT_USTAT 0x100) F.MGMT_USTAT_BUSY == 1,
    live.opAdmitted 0x100 2 == false, live.opAdmitted 0x100 6, live.opRefused 0x100 6 0, !live.opRefused 0x100 6 1,
    live.opAdmitted 0x100 1, live.opRefused 0x100 1 0, live.opAdmitted 0x80 1, live.opRefused 0x80 1 0 == false,
    ({ live with unitOps := [⟨0x100, 7, 0⟩] } : State).opFirst 0x100 == some ⟨0x100, 7, 0⟩,
    opState.opFirst 0x102 == some ⟨0x102, 1, 0⟩ || opState.opFirst 0x100 == some ⟨0x100, 6, 1⟩,
    ({ live with unitOps := [⟨0x102, 1, 0⟩] } : State).opFirst 0x102 == some ⟨0x102, 1, 0⟩, unitKind 0x102 == .slice, !live.blocked,
    opState.unitOps.find? (·.unit == 0x100) == some ⟨0x100, 6, 1⟩, opState.unitState 0x100 == 0, opState.staged 0 == 0, opState.flushes == [],
    (idleCluster 1).unitUp 0x80, (List.range 8).all fun j => ((idleCluster 1).core (coreOf j)).run == .waiting,
    !((idleCluster 1).quietCluster 0).blocked, opState.postings == [], opState.lockWaits == [], !(idleCluster 1).dbMsgs.any (fun m => m.core / 8 == 0),
    ({ idleCluster 1 with dbMsgs := [⟨3, false, true⟩] } : State).dbMsgs.any (fun m => m.core / 8 == 0),
    live.mode != .drain, opState.mode != .drain, (idleCluster 1).hot == 0, bitB ({ live with pwrHeld := 1 } : State).pwrHeld 0] = true := by decide +kernel

theorem witness_ErrorAndInjectionResult : allOf [
    (detClasses 0x110 0).contains .corrected, live.unitState 0x110 ≠ 3, unitExists 0x110, !unitExists 0x1FF,
    live.mode == .run, (live.setMode .diagnostic).mode == .diagnostic,
    (live.setRf (R.ERRINJ_CTL 0x110 0) F.ERRINJ_CTL_MODE 2).rf (R.ERRINJ_CTL 0x110 0) F.ERRINJ_CTL_MODE == 2, live.injDue == [],
    SMap.get zeroNat live.injNext (R.ERRINJ_CTL 0x110 0) ≤ live.time.toNat,
    decide (live.time.toNat < SMap.get zeroNat ({ live with injNext := [(R.ERRINJ_CTL 0x110 0, 5)] } : State).injNext (R.ERRINJ_CTL 0x110 0)),
    evListed 0x110 0 1, !evListed 0x110 0 9, live.snapAt.isNone,
    (let s := (live.setRf (R.TEL_EVSEL 0x110 0) F.TEL_EVSEL_EVENT 1).setRf (R.TEL_EVSEL 0x110 0 + 8) F.TEL_CTR_COUNT (2 ^ 48 - 1)
     s.rf (R.TEL_EVSEL 0x110 0) F.TEL_EVSEL_EVENT != 0 && s.rf (R.TEL_EVSEL 0x110 0 + 8) F.TEL_CTR_COUNT == 2 ^ 48 - 1 &&
       s.rf (R.TEL_EVSEL 0x110 0) F.TEL_EVSEL_OVFINT == 0),
    ({ live with snapAt := some 5, time := 5 } : State).time.toNat == 5] = true := by decide +kernel

/-- Debug at level 2, its guard 0 permitting every access to the page at 0x2000. -/
def unlocked : State :=
  (((ready.setRf R.DBG_CTL F.DBG_CTL_LEVEL 2).setReg (R.GUARD_LO 25 0) 0x2001).setReg (R.GUARD_HI 25 0) 0x2000).setReg (R.GUARD_ATTR 25 0) 0x1F

theorem witness_DebugAccessResult : allOf [
    ready.unlockVerdict 3 0 == 1, ({ ready with dbgFailAt := some 0 } : State).unlockVerdict 3 0 == 4,
    (ready.setRf R.DBG_UNLOCK F.DBG_UNLOCK_FAILS 16).unlockVerdict 3 0 == 5, (ready.setReg (R.IMG_FKEY 0) 1).unlockVerdict 3 0 == 2,
    ready.rf R.DBG_CTL F.DBG_CTL_LEVEL == 0, unlocked.rf R.DBG_CTL F.DBG_CTL_LEVEL == 2,
    unlocked.traceBufOk, !(unlocked.setRf R.DBG_TRBUF F.DBG_TRBUF_SIZE 1).traceBufOk, unlocked.rf R.DBG_TRCTL F.DBG_TRCTL_EN == 0,
    (unlocked.setReg (R.DBG_SEAL 0) (setF 0 F.DBG_SEAL_EN 1)).dbgSealed 8, !unlocked.dbgSealed 0x2000, !unlocked.blocked,
    (match (unlocked.setRf R.DBG_MCTL F.DBG_MCTL_WRITE 0).dbgGuard 0x2000 false with
     | (none, s) => (match s.physRead 0x2000 8 with | .ok .. => true | _ => false) | _ => false),
    (unlocked.modCore 0 fun c => { c with run := .halted }).coreHalted 0, (unlocked.core 0).loads == [], (unlocked.core 0).longs == [],
    dbgNeeds R.DBG_CTL false ≤ 2, (match unlocked.ctlRead 0x170 R.DBG_CTL 8 with | (.ok _, _) => true | _ => false),
    0 < dbgNeeds R.MGMT_MODE true, 0 < dbgNeeds R.MGMT_MODE false] = true := by decide +kernel

/-! Doorbells, purses, sweeper, memory -/

/-- Port 0 UP, its peer socket 1. -/
def linked : State := ((live.setRf (R.PEER_STAT 0x130) F.PEER_STAT_STATE 2).setRf (R.PEER_CFG 0x130) F.PEER_CFG_SOCKET 1)

theorem witness_DoorbellResult : allOf [
    ((live.setRf (R.DBH_SRC 7) F.DBH_SRC_COUNT 4).setRf (R.DBH_SRC 7) F.DBH_SRC_TIME 10).rf (R.DBH_SRC 7) F.DBH_SRC_TIME == 10,
    decide (1 ≤ ({ live with dbCnt := [(7, 1)], dbDue := [(7, 32)], time := 32 } : State).dbCntOf 7),
    decide (({ live with dbCnt := [(7, 1)], dbDue := [(7, 32)], time := 32 } : State).dbDueOf 7 ≤ 32),
    linked.portTo 1 == some 0, linked.portTo 2 == none, linked.socket == 0, SMap.wf zeroNat linked.dbPriv,
    (live.setRf (R.DBH_TCTL 5) (timerEn 1) 1).rf (R.DBH_TCTL 5) (timerEn 1) == 1, decide ((live.reg (timerCmp 5 1)).toNat ≤ live.time.toNat),
    decide (live.time.toNat < ((live.setReg (R.DBH_TCMP0 5) 9).reg (R.DBH_TCMP0 5)).toNat), live.claimPeek 0 [true, false] == none,
    (live.setReg (R.DBH_SRC 7) (setF 0 F.DBH_SRC_P 1)).claimPeek 0 [true, false] == some 7,
    ((live.setRf (R.DBH_SRC 7) F.DBH_SRC_A 1).setRf (R.DBH_SRC 7) F.DBH_SRC_LCORE 5).rf (R.DBH_SRC 7) F.DBH_SRC_LCORE == 5,
    privA ((live.setPriv 5 0x20 2).privOf 5 0x20), !live.clockStopped 0, ({ live with clkStopped := 1 } : State).clockStopped 0,
    ({ live with dbMsgs := [⟨0, true, true⟩] } : State).dbMsgs.find? (fun m => m.core == 0) == some ⟨0, true, true⟩] = true := by decide +kernel

/-- Core 0 refills its reserve from the free list at 0x4000, which holds entry 8. -/
def listed (i : Nat) : State :=
  { ready with mem := ((List.range 4).map fun j => (0x4000 + j, (natBytes 4 i).getD j 0)) ++ ready.mem }.modCore 0 fun c =>
    { (c.csSetF R.CS_FREEHEAD F.CS_FREEHEAD_ADDR 0x800).csSetF R.CS_FREEHEAD F.CS_FREEHEAD_EN 1 with refill := true }
def wr : PurseWr := ⟨5, [1], 3, 2, none, false, none⟩
def fence (a : FenceAgent) (out : Bool) : State := { live with fences := [⟨9, .recallOf 0, if out then [] else [a], [a], [], [1], []⟩] }

theorem witness_PurseAndFenceResult : allOf [
    ready.entriesIn 0x2000 8 == [], ready.entriesIn 0x8128 8 == [9], ready.localOf 0x8128 == some 0x8128, !ready.writeHeld 0x8128 8,
    !ready.discards 9 0x8128 (natBytes 8 0), ({ live with purseWrs := [wr] } : State).purseWrs.find? (·.id == 5) == some wr, bitB wr.inval 1,
    ({ live with purseWrs := [wr] } : State).wrFirst 5 (fun x => bitB x.inval 1), ({ live with purseWrs := [wr] } : State).purseWrs.find? (·.id == 6) |>.isNone,
    !({ live with purseWrs := [{ wr with id := 4 }, wr] } : State).wrFirst 5 (fun x => bitB x.inval 1),
    ({ live with purseWrs := [{ wr with inval := 0 }] } : State).wrFirst 5 (fun x => bitB x.acks 1 && !bitB x.inval 1), BitVec.ofNat 16 (2 ^ 1) == wr.acks,
    !({ live with purseWrs := [{ wr with id := 4, inval := 0 }, wr] } : State).wrFirst 5 (fun x => bitB x.acks 1 && !bitB x.inval 1),
    (listed 8).coreServes 0, ((listed 8).core 0).reserve == [], (match (listed 8).pop ((listed 8).freeHead 0) none with | (_, t) => !t.blocked),
    (match ({ listed 8 with purseWrs := [{ wr with head := some 0x4000 }], cellLocks := [⟨0x4000, .posting 8⟩] } : State).pop ((listed 8).freeHead 0) none with
     | (_, t) => t.blocked),
    ((listed 8).core 0).refill, (listed 8).freeEn 0, (match (listed 8).pop ((listed 8).freeHead 0) none with | (.entry 8, _) => true | _ => false),
    ((listed 0xFFFFFFFF).pop ((listed 0xFFFFFFFF).freeHead 0) none).1 == .empty, ((listed 1).pop ((listed 1).freeHead 0) none).1 == .badlist,
    (ready.push 0x4000 8 none).isSome, ready.push 0x4000 1 none == none,
    (let w : RecallWait := ⟨1, 5, false, none, 6, none, none, 0⟩
     let s := ready.modCore 0 fun c => { c with recallW := some w }
     let x := ((s.finishCorePurseWrs 0).takeEntry 1).recallChange 0 w
     (s.core 0).recallW == some w && x.1 != .status 4 && !x.2.blocked),
    (let w : RecallWait := ⟨1, 9, false, none, 6, none, none, 0⟩
     let s := (ready.putBytes 0x8036 [2]).modCore 0 fun c => { c with recallW := some w }
     (((s.finishCorePurseWrs 0).takeEntry 1).recallChange 0 w).1 == .status 4),
    (fence .guards false).fenceOf 9 |>.isSome, (fence (.teller 3) false).fenceOf 9 |>.isSome, (fence (.cluster 3) false).fenceOf 9 |>.isSome,
    (fence .guards false).markersOut ⟨9, .recallOf 0, [.guards], [.guards], [], [1], []⟩, !live.portLinked 3,
    (fence .guards false).fenceFirst ⟨9, .recallOf 0, [.guards], [.guards], [], [1], []⟩ (fun g => (fence .guards false).markersOut g && g.markers.contains .guards),
    !(let f : Fence := ⟨9, .recallOf 0, [.guards], [.guards], [], [1], []⟩
      ({ live with fences := [{ f with id := 8 }, f] } : State).fenceFirst f fun g => live.markersOut g && g.markers.contains .guards),
    linked.portLinked 0, ({ linked with fences := [⟨9, .recallOf 0, [.peer 0], [.peer 0], [], [1], []⟩] } : State).fenceOf 9 |>.isSome,
    !((fence (.cluster 3) false).clusterPerform 3).blocked,
    (fence .guards true).fenceFirst ⟨9, .recallOf 0, [], [.guards], [], [1], []⟩ (fun g => !g.markers.contains .guards && g.acks.contains .guards &&
      !(fence .guards true).agentWaits g .guards),
    !(fence .guards true).agentWaits ⟨9, .recallOf 0, [], [.guards], [], [1], []⟩ .guards,
    ((fence .guards true).modFence 9 fun f => { f with acks := f.acks.filter (· != .guards) }).fenceOf 9 |>.isSome] = true := by decide +kernel

theorem witness_SweepResult : allOf [
    live.swPhase == 0, (live.setPhase 2).swPhase == 2, decide (4096 ≤ (List.replicate 4096 1).length), live.headUsable live.swHead,
    !(live.setRf R.VLT_SWFREE F.VLT_SWFREE_ADDR 0x1000).headUsable (live.setRf R.VLT_SWFREE F.VLT_SWFREE_ADDR 0x1000).swHead,
    (let j : SweepJob := ⟨1, none, [1], .scan, [], [], [0x100, 0x101]⟩
     let s : State := { live with sweep := { live.sweep with jobs := [j] } }
     s.sweep.jobs.find? (fun j => j.stage == .scan && j.engines.contains 0x100) == some j && s.jobOf j.id == some j && s.scanOwned 0x100 == []),
    [none, some (0, 7)].all fun o =>
      let j : SweepJob := ⟨1, o, [1], .scan, [], [], [0x110]⟩
      let s : State := { ready with sweep := { ready.sweep with jobs := [j] } }
      let v := (s.scanEngine 0x110 j.list).modJob 1 fun j => { j with engines := [] }
      s.jobOf 1 == some j && s.scanOwned 0x110 == [] && !v.jobWaits { j with engines := [] } &&
        ({ v with cellLocks := [⟨0x8000, .posting 8⟩] } : State).jobWaits { j with engines := [] },
    (let s : State := { ready with tags := [(0x200, true), (0x202, true)], mem := (0x2008, 1#8) :: ready.mem }
     s.engineOf 0x2000 == some 0x112 && s.readNat 0x2008 4 == 1 && s.readNat 0x2028 4 == 0 && !s.poisoned 0x2000),
    live.sweep.jobs == [], live.scanOwned 0x110 == [],
    (let s : State := { live with sweep := { live.sweep with jobs := [⟨1, none, [1], .scan, [], [], [0x100]⟩] }, rdir := [(0, ⟨1, true⟩)] }
     s.scanOwned 0x110 != []), decide (live.sweep.list.length ≤ 4096)] = true := by decide +kernel

/-- CXL region 0 of every slice over [4 GiB, 5 GiB) on port 0 of lane group 0. -/
def cxlLive (persist : Nat) : State :=
  (List.range 16).foldl (fun (s : State) n =>
    ((((s.setRf (R.VLT_CXLR (0x100 + n) 0) F.VLT_CXLR_EN 1).setRf (R.VLT_CXLR (0x100 + n) 0) F.VLT_CXLR_READY 1).setRf (R.VLT_CXLR (0x100 + n) 0)
      F.VLT_CXLR_BASE 4).setRf (R.VLT_CXLR (0x100 + n) 0) F.VLT_CXLR_SIZE 1).setRf (R.VLT_CXLR (0x100 + n) 0) F.VLT_CXLR_PERSIST persist)
    { (live.setRf (R.LGP_PSTAT 0x120 0) F.LGP_PSTAT_STATE 2).setReg (R.LGP_CFG 0x120) 2 with layouts := [(0x120, 2)] }

theorem witness_MemoryAndHomeSliceResult : allOf [
    (let s := (live.setReg (R.MEM_INIT 0x110) 0).setRf (R.MEM_CFG 0x110) F.MEM_CFG_CAP 16
     s.mode != .load && s.chanReady 0 && s.rf (R.MEM_INIT 0x110) F.MEM_INIT_DONE != 1 && decide (0 < min 4096 (s.chanCap 0)) && decide (s.chanCap 0 ≤ 2 ^ 40)),
    (live.setRf (R.MEM_SCRUB 0x110) F.MEM_SCRUB_EN 1).rf (R.MEM_SCRUB 0x110) F.MEM_SCRUB_EN == 1, live.home 0 == 0, decide (0 < live.ddrTop),
    !live.partEn 0,
    (let s := (live.setRf (R.VLT_PART 0x100) F.VLT_PART_WAYS 1).setRf (R.VLT_PART 0x100) F.VLT_PART_KIND 1
     s.partBase 0 % (16 * s.gran) == 0 && !s.rangeFenced (s.partBase 0) (s.partEnd 0) && !s.rangeNoTarget (s.partBase 0) (s.partEnd 0)),
    (let s := live.setRf (R.VLT_PRANGE 0x100) F.VLT_PRANGE_BASE 0x10000
     !s.rangeFenced (s.partBase 0) (s.partEnd 0 + 1) && s.rangeNoTarget (s.partBase 0) (s.partEnd 0 + 1)),
    (live.setRf (R.VLT_PART 0x100) F.VLT_PART_EN 1).partEn 0, (live.setRf (R.VLT_PSTAT 0x100) F.VLT_PSTAT_STATE 3).rf (R.VLT_PSTAT 0x100) F.VLT_PSTAT_STATE == 3,
    getF ((cxlLive 0).reg (R.VLT_CXLR 0x100 0)) F.VLT_CXLR_READY == 1,
    (let s := (cxlLive 0).setRf (R.VLT_CXLR 0x100 0) F.VLT_CXLR_READY 0
     s.cxlRules 0 0 && s.cxlTrained (s.reg (R.VLT_CXLR 0x100 0)) && decide (getF (s.reg (R.VLT_CXLR 0x100 0)) F.VLT_CXLR_SIZE * 2 ^ 30 * 129 / 128 ≤ 2 ^ 31)),
    !ready.cachedCopy 0x2000, ({ ready with dirty := [(0x80, true)] } : State).cachedCopy 0x2000, !ready.headHeld 0x2000, !ready.sweeping, ({ ready with sweep := { ready.sweep with jobs := [⟨1, none, [1], .scan, [], [], [0x100]⟩] } } : State).sweeping, !ready.purseBusy 0x2000,
    live.rf (R.VLT_PSTAT 0x100) F.VLT_PSTAT_STATE == 0, (live.setRf (R.VLT_PSTAT 0x100) F.VLT_PSTAT_STATE 1).rf (R.VLT_PSTAT 0x100) F.VLT_PSTAT_STATE == 1,
    live.rf (R.VLT_PART 0x100) F.VLT_PART_WAYS ≤ 16,
    live.rf (R.MEM_COPYCTL 0x110) F.MEM_COPYCTL_STATE == 0, ready.homeReqs == [], ready.lockWaits == [], ready.snoops == [], ready.cellLocks == [],
    ready.needSnoops ⟨5, 0x2000, true, none⟩ == [],
    (ready.setClusters 0x2000 ⟨2, true⟩).needSnoops ⟨5, 0x2000, true, none⟩ == [0x81], ready.entriesIn 0x3000 4096 == [], !ready.readHeld 0x2000 4096,
    !ready.writeHeld 0x3000 4096] = true := by decide +kernel

/-- A copy of two pages from 0x2000 to 0x3000 under way. -/
def copying : State :=
  (((ready.setRf (R.MEM_COPYCTL 0x110) F.MEM_COPYCTL_STATE 1).setRf (R.MEM_COPYCTL 0x110) F.MEM_COPYCTL_PAGES 2).setRf (R.MEM_COPYSRC 0x110) F.MEM_COPYSRC_ADDR 2).setRf
    (R.MEM_COPYDST 0x110) F.MEM_COPYDST_ADDR 3

/-- Every byte of the two pages is local: each granule of the interleave is homed at a slice that is up. -/
theorem witness_MemoryAndHomeSliceResult_copy : copying.rf (R.MEM_COPYCTL 0x110) F.MEM_COPYCTL_STATE = 1 ∧
    1 < copying.rf (R.MEM_COPYCTL 0x110) F.MEM_COPYCTL_PAGES ∧ copying.rf (R.MEM_COPYSRC 0x110) F.MEM_COPYSRC_ADDR * 4096 = 0x2000 ∧
    copying.localOf 0x2FFF = some 0x2FFF ∧ copying.localOf 0x3000 = some 0x3000 ∧ copying.localOf 0x3FFF = some 0x3FFF := by decide +kernel

/-! Postings, journal -/

def leg (pa : Nat) (cell : List Byte) : Leg := ⟨coin 1 pa, 0, some pa, cell, 0⟩
def posting (ph : PostPhase) : Posting :=
  ⟨7, .post 0, 0, 0, [], coin 1 0x2000, [leg 0x3000 (List.replicate 64 0), leg 0x3040 (List.replicate 64 0)], 0, 0, 0, 0, false, ph, 0, 0, 0, [], 0, 0, false,
    false, [], [], [], false, none, 0, .check, []⟩
def posted (p : Posting) : State :=
  { ready with postings := [p], seq := ⟨5, true, false, 0⟩ }.setRf (R.TLR_CTL (tu 0)) F.TLR_CTL_EN 1
/-- A completion ring of sixteen records at 0x2000, PROD as given, CONS 0. -/
def ringed (prod : Nat) : State :=
  { posted (posting .completing) with mem := (if prod = 0 then [] else [(0x2000, BitVec.ofNat 8 prod)]) ++ (0x2010, 4#8) :: (posted (posting .completing)).mem }
/-- `posted` with port 0 UP to socket 1. -/
def postFarReady (p : Posting) : State :=
  ((posted p).setRf (R.PEER_STAT 0x130) F.PEER_STAT_STATE 2).setRf (R.PEER_CFG 0x130) F.PEER_CFG_SOCKET 1
def jrec (need : Bool) : JRec := ⟨0, List.replicate 64 0, 5, none, 9, need, !need, none⟩

theorem witness_PostingCourseResult : allOf [
    !(posted (posting .sent)).intakeHeld, (posted (posting .sent)).setMode .drain |>.intakeHeld, !(posted (posting .sent)).tellerClosed 0,
    ({ posted (posting .sent) with seq := ⟨5, false, false, 0⟩ } : State).tellerClosed 0, (posted (posting .sent)).queuedAt 0 == 0,
    decide (64 ≤ ({ posted (posting .sent) with postings := List.replicate 64 (posting (.queued true)) } : State).queuedAt 0),
    ((posted (posting .sent)).crCheck (posting .sent)).1 == .ok, ((posted (posting .sent)).crCheck { posting .sent with crcoin := Coin.zero }).1 == .bad,
    ((postFarReady (posting .sent)).crCheck { posting .sent with mode := 1, root := 0x200000000000 }).1 == .wait,
    (posting .forwarded).status == 0,
    !(posted (posting .forwarded)).noPlace (posting .forwarded) 0,
    ({ posted (posting .forwarded) with postings := List.replicate 32 { posting (.granted 0) with id := 9 } } : State).noPlace (posting .forwarded) 0,
    (posting .forwarded).arrived == none, (posting .forwarded).order == [(0x3000, 0), (0x3040, 1)], ready.localOf 0x3040 == some 0x3040,
    (posted (posting (.lockReq 0))).lockable 0x3000, !({ posted (posting (.lockReq 0)) with cellLocks := [⟨0x3000, .posting 8⟩] } : State).lockable 0x3000,
    !(posted (posting (.granted 0))).poisoned 0x3000, (posted (posting .numberReq)).stagingRoom 0 128,
    (posted (posting .numbered)).seq.isOpen, ready.entriesIn 0x3000 64 == [],
    ({ posting .committing with commits := [0x3000, 0x3040] }).commits.erase 0x3000 == [0x3040],
    (match (ringed 0).tryComplete (posting .completing) with | .go _ next _ => next == .header 0x2000 | _ => false),
    (match (ringed 0).tryComplete { posting .completing with cr := .header 0x2000 } with | .go _ next _ => next == .slot 0 4 | _ => false),
    (match (ringed 0).tryComplete { posting .completing with cr := .slot 0 4 } with | .go _ next _ => next == .record 0 4 0x2040 | _ => false),
    (match (ringed 0).tryComplete { posting .completing with cr := .record 0 4 0x2040 } with | .written _ => true | _ => false),
    (match (ringed 16).tryComplete { posting .completing with cr := .header 0x2000 } with | .full _ => true | _ => false),
    (posted (posting (.lockReq 0))).inOrder (posting (.lockReq 0)),
    (let q : Posting := { posting (.lockReq 0) with id := 8, sent := 1 }
     !({ posted q with postings := [posting (.lockReq 0), q] } : State).inOrder q),
    (let q : Posting := { posting .committing with commits := [0x3000, 0x3040], acks := [0x3000, 0x3040] }
     (posted q).cellInOrder q 0x3000 (·.commits) && (posted q).cellInOrder q 0x3000 (·.acks) && !(posted q).cellInOrder q 0x3040 (·.commits) &&
       q.acks.erase 0x3000 != []),
    (posting .commitWait).phase == .commitWait, (posting .forwarded).legs.length == 2,
    (match (posted (posting .completing)).tryComplete { posting .completing with crcoin := Coin.zero } with | .lost .. => true | _ => false),
    (match (postFarReady (posting .completing)).tryComplete { posting .completing with mode := 1, root := 0x200000000000 } with | .wait _ => true | _ => false),
    !(posted (posting .completing)).blocked, (posted (posting .completing)).mode != .drain] = true := by
  decide +kernel

/-- A staging that a record fills. -/
theorem witness_PostingCourseResult_full (s : State) (n : Nat) (h : n = 2031616) :
    ({ s with staging := [{ jrec true with bytes := List.replicate n 0 }] } : State).stagingRoom 0 128 = false := by
  simp only [State.stagingRoom, State.staged, JRec.len, jrec, List.filter_cons, beq_self_eq_true, if_true, List.filter_nil, List.map_cons,
    List.map_nil, List.length_replicate, List.sum_cons, List.sum_nil, stagingCap, h]
  exact decide_eq_false (by omega)

theorem witness_TellerRegisterResult : allOf [
    (let s := (live.setReg (R.TLR_SRCFG (tu 0) 1) 0x9).setRf (R.TLR_SRCONS (tu 0) 1) ⟨31, 0⟩ 5
     getF (s.reg (R.TLR_SRCFG (tu 0) 1)) ⟨0, 0⟩ == 1 && decide ((20 + 2 ^ 32 - s.rf (R.TLR_SRCONS (tu 0) 1) ⟨31, 0⟩) % 2 ^ 32 ≤
       2 ^ getF (s.reg (R.TLR_SRCFG (tu 0) 1)) ⟨5, 1⟩)),
    getF (live.reg (R.TLR_SRCFG (tu 0) 1)) ⟨0, 0⟩ == 0,
    (let s := (((posted (posting .sent)).setReg (R.TLR_SRCFG (tu 0) 1) 0x9).setRf (R.TLR_SRCONS (tu 0) 1) ⟨63, 32⟩ 1).setReg (R.TLR_SRBASE (tu 0) 1)
       0x700000000000
     !s.intakeHeld && !s.tellerClosed 0 && getF (s.reg (R.TLR_SRCFG (tu 0) 1)) ⟨0, 0⟩ == 1 &&
       s.rf (R.TLR_SRCONS (tu 0) 1) ⟨31, 0⟩ != s.rf (R.TLR_SRCONS (tu 0) 1) ⟨63, 32⟩ && decide (s.queuedAt 0 < 64) &&
       s.localOf (s.rf (R.TLR_SRBASE (tu 0) 1) ⟨47, 4⟩ * 16) == none),
    !live.seq.isOpen, (posted (posting .sent)).seq.isOpen, seqEnd != 0] = true := by decide +kernel

/-- One slot in ring 1 of teller 0 at 0x3000: a coin of purse 1, whose descriptor at 0x2000 has the given number of legs. -/
def slotted (legs : Nat) (c : Coin) : State :=
  let s := posted (posting .sent)
  let s := (s.setReg (R.TLR_SRCFG (tu 0) 1) 0x9).setRf (R.TLR_SRCONS (tu 0) 1) ⟨63, 32⟩ 1
  { s.setReg (R.TLR_SRBASE (tu 0) 1) 0x3000 with
    mem := (if legs = 0 then [] else [(0x2008, BitVec.ofNat 8 (64 * legs))]) ++
      (((natBytes 16 c.bits.toNat).zipIdx.map fun b => (0x3000 + b.2, b.1)).filter (·.2 != 0)) ++ s.mem,
    tags := if c.tag then [(0x300, true)] else [] }

theorem witness_TellerRegisterResult_intake : allOf [
    (let s := slotted 0 (coin 1 0x2000)
     !s.intakeHeld && !s.tellerClosed 0 && s.localOf 0x3000 == some 0x3000 && !s.readHeld 0x3000 16 && !s.poisoned 0x3000 &&
       (⟨BitVec.ofNat 128 (s.readNat 0x3000 16), s.tagAt 0x3000⟩ : Coin) == coin 1 0x2000 && !s.entryHeld (coin 1 0x2000) &&
       (match s.tCheck (coin 1 0x2000) 0 64 8 0 0 with | .ok va => va == 0x2000 | _ => false) &&
       (match s.tReadLines (tu 0) 0 0 0 0 0x2000 1 with | (.ok bs _, _) => legCount bs == 0 | _ => false)),
    (let s := slotted 1 (coin 1 0x2000)
     match s.tReadLines (tu 0) 0 0 0 0 0x2000 1 with
     | (.ok bs _, u) => legCount bs == 1 && !u.entryHeld (coin 1 0x2000) && (match u.tCheck (coin 1 0x2000) 0 96 8 0 0 with | .ok va => va == 0x2000 | _ => false) &&
         (match u.tReadLines (tu 0) 0 0 0 0 0x2000 (lineCount 96) with | (.ok _ _, _) => true | _ => false)
     | _ => false),
    (let s := slotted 0 Coin.zero
     match s.tCheck Coin.zero 0 64 8 0 0 with | .coin _ => !s.entryHeld Coin.zero && (⟨BitVec.ofNat 128 (s.readNat 0x3000 16), s.tagAt 0x3000⟩ : Coin) == Coin.zero | _ => false)] = true := by
  decide +kernel

/-- The journal of teller 0 in the CXL region, local and mirrored as given, 64 KiB. -/
def journaled (loc mir : Nat) : State :=
  ((((cxlLive 1).setReg (R.TLR_JBASE (tu 0)) 0x100000000).setReg (R.TLR_JSIZE (tu 0)) 0x10000).setRf (R.TLR_JCTL (tu 0)) F.TLR_JCTL_LOCAL loc).setRf
    (R.TLR_JCTL (tu 0)) F.TLR_JCTL_MIRROR mir

theorem witness_JournalResult : allOf [
    (let s := { journaled 1 0 with staging := [jrec true] }
     s.jLocal 0 && !s.jLocalErr 0 && s.drained == [] && s.nextLocal 0 == some (jrec true) && s.areaRoom 0 (jrec true) &&
       !(s.setReg (R.TLR_JHEAD (tu 0)) 0x10000).areaRoom 0 (jrec true) && (s.localOf (s.jBase 0)).isSome && s.entriesIn 0x100000000 64 == []),
    (live.nextLocal 0).isNone, ({ live with flushes := [⟨0, 1, [(0, 64)], [], 0⟩] } : State).flushes.find? (fun x => x.group == 0 && x.port == 1) == some ⟨0, 1, [(0, 64)], [], 0⟩,
    live.postings == [], !live.jMirror 0, !live.jLocal 0, (journaled 0 0).areaOk ((journaled 0 0).jBase 0) ((journaled 0 0).jSize 0),
    !live.areaOk (live.jBase 0) (live.jSize 0), (journaled 1 0).jLocal 0, !(journaled 1 0).jMirror 0, (journaled 0 1).jMirror 0,
    SMap.get zeroNat live.jMirPend 0 == 0, decide ((live.reg (R.TLR_JDUR (tu 0))).toNat < 5), (live.setRf (R.TLR_JMBASE (tu 0)) F.TLR_JMBASE_EN 1).rf (R.TLR_JMBASE (tu 0)) F.TLR_JMBASE_EN == 1,
    live.rf (R.TLR_JMBASE (tu 0)) F.TLR_JMBASE_EN == 0,
    (let s := (journaled 1 0).setMode .drain
     s.mode == .drain && s.drained == [] && s.sealed == [] && !s.sealWaits 0 && s.jLocal 0 && !s.jLocalErr 0 && !s.drainOver 0),
    (let s : State := { (journaled 1 0).setMode .drain with staging := [jrec true] }; s.sealWaits 0),
    (let s : State := { (journaled 1 0).setMode .drain with sealed := [0] }; s.drainOver 0), live.stagingRoom 0 128,
    (linked.setRf (R.TLR_JCTL (tu 0)) F.TLR_JCTL_MSOCK 1).portTo 1 == some 0, linked.portTo 3 == none,
    ({ live with flushes := [⟨0, 1, [(0, 64)], [], 1⟩] } : State).flushes.find? (fun x => x.group == 0 && x.port == 1) == some ⟨0, 1, [(0, 64)], [], 1⟩,
    (let r : JRec := { jrec false with needLocal := false, needMirror := true, mirrorOf := some (0, 9) }
     let s := ((cxlLive 1).setReg (R.TLR_JMBASE (tu 0)) 0x100000000).setReg (R.TLR_JMSIZE (tu 0)) 0x10000
     let s := { (s.setRf (R.TLR_JMBASE (tu 0)) F.TLR_JMBASE_EN 1).setRf (R.TLR_JMBASE (tu 0)) F.TLR_JMBASE_PERSIST 1 with staging := [r] }
     s.mirrorKept 0 && s.nextMirror 0 == some r && !s.jLocalErr 0 && !s.jLocal 0 && s.mode != .brumation && !s.drained.contains 0),
    !live.mirrorKept 0] = true := by decide +kernel

/-! Lane groups, peers -/

/-- Function 0 of lane group 0 enabled as 0x0100, its guard 0 open over the page at 0x2000. -/
def fnLive (ats pri : Nat) : State :=
  let k := R.LGP_FNCTL (lg 0) 0
  let s := (((ready.setRf k F.LGP_FNCTL_EN 1).setRf k F.LGP_FNCTL_RID 0x100).setRf k F.LGP_FNCTL_ATS ats).setRf k F.LGP_FNCTL_PRI pri
  ((s.setReg (R.GUARD_LO 0 0) 0x2001).setReg (R.GUARD_HI 0 0) 0x2000).setReg (R.GUARD_ATTR 0 0) 0x1F

def admits (op : GOp) : Bool :=
  match (fnLive 0 0).dmaCheck ⟨0, 0x100, false, false, 0x2000⟩ op 8 with
  | (.ok pa, t) => pa == 0x2000 && t.localOf pa == some 0x2000 && !t.readHeld 0x2000 8 && !t.writeHeld 0x2000 8 && !t.poisoned 0x2000 &&
      t.entriesIn 0x2000 8 == [] && pa != dbhRingPa
  | _ => false

theorem witness_LaneGroupResult : allOf [
    live.groupRuns 0, !(live.setMode .drain).groupRuns 0, trainsTo 0x12 0 2 4 false, !trainsTo 0x12 0 2 7 false, !live.laneBusy 0,
    !(cxlLive 0).isDirty 0x100000000, ({ cxlLive 0 with dirty := [(0x4000000, true)] } : State).isDirty 0x100000000,
    ready.purseWrs == [], live.peersIn 0 == [], live.sweep.jobs == [], layoutOk 0 0, !layoutOk 1 0, live.portSt 0 0 == 0,
    (live.setRf (R.LGP_PSTAT (lg 0) 0) F.LGP_PSTAT_STATE 1).portSt 0 0 == 1, live.unitUp (lg 0), (live.setMode .drain).laneHolds, !live.laneHolds,
    live.guardOld == [], (live.fnOf 0 5).isNone, getF (live.reg (R.GUARD_VINFO 0)) F.GUARD_VINFO_VALID == 0,
    admits .read, admits .write, admits .atomic, (fnLive 0 0).fnOf 0 0x100 == some 0, (fnLive 1 0).rf (R.LGP_FNCTL (lg 0) 0) F.LGP_FNCTL_ATS == 1,
    (fnLive 1 0).rf (R.LGP_FNCTL (lg 0) 0) F.LGP_FNCTL_XLATE == 0, (fnLive 0 1).rf (R.LGP_FNCTL (lg 0) 0) F.LGP_FNCTL_PRI == 1,
    (fnLive 0 1).rf (R.LGP_PRQ (lg 0)) F.LGP_PRQ_EN == 0, !(fnLive 0 1).laneBusy 0,
    ({ fnLive 0 1 with prq := [⟨0, 0x100, 0⟩] } : State).prq.length == 1,
    (let s := (fnLive 0 1).setReg (R.LGP_PRQ (lg 0)) 0x3001
     let q := s.reg (R.LGP_PRQ (lg 0))
     getF q F.LGP_PRQ_EN == 1 && decide ((s.prq.filter (·.group == 0)).length < 2 ^ getF q F.LGP_PRQ_LOG2) &&
       s.localOf (getF q F.LGP_PRQ_BASE * 4096 + 16 * (s.rf (R.LGP_PRQPROD (lg 0)) F.LGP_PRQPROD_PROD % 2 ^ getF q F.LGP_PRQ_LOG2)) == some 0x3000 &&
       !s.writeHeld 0x3000 16 && s.entriesIn 0x3000 16 == [] && s.purseWrs == []),
    (let e : TlbEntry := ⟨1, 0, 0, 5, 3⟩
     let o : DmaOut := ⟨⟨0, 0x100, false, false, 0x2000⟩, .read, 8, ⟨0x2000, 0, [e], false⟩⟩
     ({ live with dmaOut := [o] } : State).dmaOut == [o] && o.adm.used.any (invHits 1 0 0)),
    ({ live with atsInvs := [⟨0, 3, 0⟩] } : State).atsInvs.find? (fun e => e.group == 0 && e.fn == 3) == some ⟨0, 3, 0⟩,
    (live.setRf (R.LGP_PSTAT (lg 0) 0) F.LGP_PSTAT_STATE 2).portSt 0 0 == 2, live.cxlGroup 0x2000 == none, (cxlLive 0).cxlGroup 0x100000000 == some 0,
    (match live.purseRead 1 with | .ok _ => true | _ => false),
    ({ live with rdir := [(0x80, ⟨8, true⟩)] } : State).rdir.any fun e => bitB e.2.who 3] = true := by decide +kernel

/-- Port 0 as linked, with one flit to acknowledge and a time request under way. -/
def flitted : State := linked.modLink 0 fun l => { l with replay := [⟨1, [], 0, 0, 0⟩], treq := some 7 }

theorem witness_PeerLinkResult : allOf [
    live.rf (R.PEER_CFG (pp 0)) F.PEER_CFG_EN == 0, live.peerCfgOk 0 (setF 0 F.PEER_CFG_EN 1) == false,
    (let s := live.setReg (R.LGP_CFG 0x120) (setF (setF 0 F.LGP_CFG_PROTO0 3) F.LGP_CFG_WIDTH0 4)
     { s with layouts := [(0x120, s.reg (R.LGP_CFG 0x120))] }.peerCfgOk 0 (setF (setF 0 F.PEER_CFG_EN 1) F.PEER_CFG_SOCKET 1 &&& 0x3FF)),
    linked.portRuns 0, !(linked.setMode .drain).portRuns 0,
    linked.peerState 0 == 2, live.peerState 0 == 0,
    (flitted.linkOf 0).replay.findIdx? (fun f => f.fseq == 1) == some 0, (flitted.linkOf 0).replay.all fun f => decide (f.resends < 4),
    (((flitted.linkOf 0).resendTimes ++ List.replicate 1 0).filter fun t => decide (0 < t + 1000000)).length == 1,
    !linked.laneReady 0,
    (let s := linked.setRf (R.PEER_CFG 0x130) F.PEER_CFG_LGRP 0
     ({ s with layouts := [(0x120, setF (setF 0 F.LGP_CFG_PROTO0 3) F.LGP_CFG_WIDTH0 4)] } : State).laneReady 0),
    ([⟨1, [], 4, 0, 0⟩] : List Flit).any (4 ≤ ·.resends), linked.pins.refclk == false, ({ linked with pins := powered.pins } : State).pins.refclk,
    (let s := (live.setMode .drain).setReg (R.PEER_CFG (pp 0)) (setF (setF 0 F.PEER_CFG_EN 1) F.PEER_CFG_SOCKET 1)
     !s.portRuns 0 && !(s.setRf (R.TLR_JCTL (tu 0)) F.TLR_JCTL_MIRROR 1).portRuns 0 &&
       ((s.setRf (R.TLR_JCTL (tu 0)) F.TLR_JCTL_MIRROR 1).setRf (R.TLR_JCTL (tu 0)) F.TLR_JCTL_MSOCK 1).portRuns 0),
    (live.setPeerState 0 3).peerState 0 == 3, (live.setPeerState 0 1).peerState 0 == 1, (live.setPeerState 0 4).peerState 0 == 4,
    linked.peerSock 0 == 1, linked.socket == 0, (flitted.linkOf 0).treq == some 7, !(flitted.linkOf 0).stepped,
    (linked.setRf (R.PEER_CFG (pp 0)) F.PEER_CFG_FOLLOW 1).rf (R.PEER_CFG (pp 0)) F.PEER_CFG_FOLLOW == 1] = true := by decide +kernel

/-- A flit whose first eight bytes bring the CRC register to 0, and whose other bytes under the CRC are 0. -/
def flit (b : Byte) (r : List Byte) : List Byte := [b, 0, 0, 0] ++ r ++ List.replicate 238 0 ++ List.replicate 4 0xFF ++ List.replicate 6 0

theorem crc_zeros (n : Nat) : (List.replicate n (0 : Byte)).foldl crcByte 0 = 0 := by
  induction n with
  | zero => rfl
  | succ n ih => rw [List.replicate_succ, List.foldl_cons, show crcByte 0 0 = 0 by decide +kernel, ih]

theorem flit_crc {b : Byte} {r : List Byte} (hr : r.length = 4) (h : ([b, 0, 0, 0] ++ r).foldl crcByte 0xFFFFFFFF = 0) :
    (crc32c ((flit b r).take 246)).toNat = 0xFFFFFFFF := by
  have ht : (flit b r).take 246 = ([b, 0, 0, 0] ++ r) ++ List.replicate 238 0 := by
    unfold flit
    rw [List.append_assoc, List.take_left']
    simp [hr]
  rw [ht, crc32c, List.foldl_append, h, crc_zeros]
  decide

/-- An idle flit and a PAYLOAD flit of FSEQ 1 with good CRCs. -/
theorem witness_PeerLinkResult_flit : (crc32c ((flit 0 [0x38, 0xB4, 0x98, 0xB7]).take 246)).toNat = fieldAt (flit 0 [0x38, 0xB4, 0x98, 0xB7]) 246 4 ∧
    fieldAt (flit 0 [0x38, 0xB4, 0x98, 0xB7]) 0 6 % 4 = 0 ∧
    (crc32c ((flit 5 [0x73, 0x2F, 0xFF, 0x11]).take 246)).toNat = fieldAt (flit 5 [0x73, 0x2F, 0xFF, 0x11]) 246 4 ∧
    fieldAt (flit 5 [0x73, 0x2F, 0xFF, 0x11]) 0 6 % 4 = 1 ∧ fieldAt (flit 5 [0x73, 0x2F, 0xFF, 0x11]) 0 6 / 4 % 4096 = 1 := by
  rw [flit_crc (by decide) (by decide +kernel), flit_crc (by decide) (by decide +kernel)]
  decide +kernel

/-- `ready` with port 0 UP and guard 0 of its set open over the page at 0x2000. -/
def met : State :=
  ((((ready.setRf (R.PEER_STAT 0x130) F.PEER_STAT_STATE 2).setRf (R.PEER_CFG 0x130) F.PEER_CFG_SOCKET 1).setReg (R.GUARD_LO 16 0) 0x2001).setReg (R.GUARD_HI 16 0)
    0x2000).setReg (R.GUARD_ATTR 16 0) 0x1F

theorem witness_PeerMessageResult : allOf [
    met.portRuns 0, !(met.setMode .drain).portRuns 0, met.purseWrs == [], met.rdirVictim 0x2000 == none, met.noteOf 0 3 == none, met.ringWaits == [],
    met.jWait == [], met.pfwParts == [], met.jParts == [], met.parts == [], met.rlines == [], met.sealed == [],
    ([⟨3, 0, 0x06, 0x200000002000, 0x90, none⟩, ⟨4, 0, 0x06, 0x200000002000, 5, none⟩, ⟨5, 0, 0x25, 0x200000002000, 5, none⟩] : List PeerTx).all
      fun q => ({ met with peerTx := [q] } : State).txOf 0 q.txid == some q, isStore 0x04, !isStore 0x03, !met.blocked,
    (let r : HomeReq := ⟨pp 0, 0x2000, true, some ⟨0, 0x04, [], false, 0, 3, 0, 0, 0⟩⟩
     [r].filter (fun r => r.unit == pp 0 && (match r.msg with | some x => needsExcl x.op || x.op == 0x22 | none => false)) != []),
    !ready.portUp 0, met.portUp 0, (met.setMode .brumation).portHolds 1, !met.portHolds 1, met.guardOld == [], met.homeReqs == [], met.lockWaits == [],
    met.snoops == [], met.cellLocks == [], met.clustersOf 0x2000 == ⟨0, false⟩, met.peersOf 0x2000 == ⟨0, false⟩, met.localOf 0x2000 == some 0x2000,
    met.entriesIn 0x2000 64 == [], !met.poisoned 0x2000, met.lockable 0x2000, met.stagingRoom (met.cellTeller 0x2000) 96,
    [GOp.read, .write, .atomic, .coinLoad, .coinStore, .lock].all fun op => (met.guardDecide 16 0 0x2000 op false).isNone,
    [GOp.read, .write].all fun op => (met.guardDecide 16 0 0x3000 op false).isSome,
    (let s := { met with rdir := [(0x80, ⟨1, true⟩)] }
     (s.peersOf 0x2000).excl && bitB (s.peersOf 0x2000).who 0 && conflicts (s.peersOf 0x2000) (some 0) true == []),
    (let q : PeerTx := ⟨3, 0, 0x01, 0x200000002000, 5, none⟩; ({ met with peerTx := [q] } : State).txOf 0 3 == some q),
    (let p := { posting (.lockReq 0) with legs := [{ leg 0x200000003000 [] with txid := 9 }] }
     (({ met with postings := [p] } : State).legOfTx 0 9).isSome),
    (met.rlineAt (met.windowPa 0 0x2000)).isNone,
    (({ met with rlines := [⟨met.windowPa 0 0x2000, [], 0, false, false, true⟩] } : State).rlineAt (met.windowPa 0 0x2000)).isSome,
    ([⟨0x2000, pp 0, true, 4⟩] : List Snoop).find? (fun x => x.agent == pp 0 && x.txid == 4) == some ⟨0x2000, pp 0, true, 4⟩,
    met.jMirPend == [], met.postings == [], (jrec false).needMirror, (jrec false).mirrorOf.isNone, (jrec false).seq != 0, met.fncs == [],
    ([⟨0, 3, 0x2000, List.replicate 64 0, []⟩] : List PfwPart).find? (fun x => x.port == 0 && x.txid == 3) |>.isSome, met.homeTeller 0x2000 |>.isSome] = true := by
  decide +kernel

/-! Operands out of their range are refused -/

theorem illformed_operands : [
    Instr.freeListPush (2 ^ 48) 0, .freeListPush 0 (2 ^ 32), .unitFence 0x98, .purseWrite 0 (List.replicate 65 0), .dbhSrcWrite 65536 0, .guardBindWrite 23 0 0,
    .guardBindWrite 24 16 0, .rds 0 65536 0 0, .rds 0 0 512 0, .rdu 0 0 0 65536 0, .flitReceive 0 (List.replicate 257 0) 0, .nakReceive 0 4096,
    .identReceive 0 8 [0, 0, 0, 0] 0, .identReceive 0 1 [0, 0, 0, 256] 0, .dmaRead 0 65536 false false 0 8, .dmaRead 0 0 false false (2 ^ 64) 8,
    .dmaRead 0 0 false false 0 0, .dmaAtomic 0 0 false false 0 3 8 0 0, .pageRequest 0 0 0 true false true 512 0, .atsInvalidateTimeout 0 256,
    .thermalRead [(0x80, 2048)], .powerEvaluation 1024, .stageMemtrain [], .unitHandover 0x100 256, .errorDetect 0x100 64 .corrected false none 0 [],
    .errorDetect 0x100 0 .corrected false (some (2 ^ 48)) 0 [], .errorDetect 0x100 0 .corrected false none 0 (List.replicate 25 0),
    .tapControlAccess false 0 3 0, .registerWrite (.core 0 0x1000) 0, .registerWrite (.ctl 0x98 0 8) 0, .tapExtest (2 ^ 6016) 0].all
      (fun i => !wellFormed i) = true := by decide +kernel

theorem wellformed_operands : [
    Instr.freeListPush 0x4000 8, .unitFence 0x80, .purseWrite 0x8020 (List.replicate 32 0), .dbhSrcWrite 65535 0, .guardBindWrite 24 15 0, .rds 0 65535 511 0,
    .flitReceive 6 (List.replicate 256 0) 0, .identReceive 0 7 [255, 255, 255, 255] 0, .dmaAtomic 0 0 false false 0 2 4 0 0, .thermalRead [(0x80, -2048)],
    .tapControlAccess false 0 8 0, .add 127 31 0 1].all wellFormed = true := by decide +kernel

/-- No row of the table has bits, so no word spells a command. -/
theorem test_no_word : decodeTableWord 32 0 = none ∧ (State.reset.withFetchWord 32 5).pending = [] := by decide +kernel

/-- R104 to R106: reserved opcodes, fields that must be 0 and unlisted functions are no instructions; ADD g1, g2, g3 and NOP are. -/
theorem test_illegal_words : [0x00, 0x7F, 0x10 + 2 ^ 25 * 0x30, 0x1C + 2 ^ 17 * 7].all (fun w => !legalWord (BitVec.ofNat 32 w)) = true ∧
    legalWord (BitVec.ofNat 32 (encRR 0x10 1 2 3 0 0)) = true ∧ legalWord (BitVec.ofNat 32 (encRI 0x1C 0 0 4 0)) = true := by decide +kernel

/-! Reset (R29, R394) -/

theorem test_reset : State.reset.inReset = true ∧ State.reset.mode = .load ∧ State.reset.pending = [] ∧ State.reset.socket = 0 ∧
    (State.reset.core 127).run = .held ∧ (State.reset.core 0).gR 31 = 0 ∧ ((State.reset.core 0).cR 15).tag = false := by decide +kernel

theorem test_reset_invariants : State.reset.mapsOk ∧ State.reset.zeroOk ∧ State.reset.seqOk :=
  ⟨⟨by decide +kernel, by decide +kernel, by decide +kernel, by decide +kernel, by decide +kernel⟩, by unfold State.zeroOk; decide +kernel,
    by unfold Sequencer.ok; decide +kernel, by simp [State.reset]⟩

/-! Effects of one command, the expected values from the rules named -/

/-- The command goes through and leaves a state as asked. -/
def leaves (i : Instr) (s : State) (p : State → Bool) : Bool := match exec i s with | .next t => p t | _ => false

/-- `ready` with general registers of core 0 set, long operations precise. -/
def regs (l : List (Nat × Word)) : State :=
  ready.modCore 0 fun c => l.foldl (fun c e => c.setG e.1 e.2) (c.csSetF R.CS_STATUS F.CS_STATUS_PA 1)

/-- After command i with those registers, register n holds v and core 0 is at 0x104. -/
def gets (i : Instr) (l : List (Nat × Word)) (n : Nat) (v : Word) : Bool :=
  leaves i (regs l) fun t => (t.core 0).gR n == v && (t.core 0).pcc.cursor == 0x104

/-- R108. -/
theorem test_add_wraps : gets (.add 0 6 2 3) [(2, 0xFFFFFFFFFFFFFFFF), (3, 2)] 6 1 = true := by decide +kernel
theorem test_add_g0 : gets (.add 0 0 2 3) [(2, 1), (3, 2)] 0 0 = true := by decide +kernel
theorem test_sub_same_register : gets (.sub 0 2 3 2) [(2, 1)] 2 0xFFFFFFFFFFFFFFFF = true := by decide +kernel
theorem test_shl_count_mod_64 : gets (.shl 0 6 2 3) [(2, 3), (3, 65)] 6 6 = true := by decide +kernel
theorem test_sar_sign : gets (.sar 0 6 2 3) [(2, 0x8000000000000000), (3, 62)] 6 0xFFFFFFFFFFFFFFFE = true := by decide +kernel
theorem test_ror : gets (.ror 0 6 2 3) [(2, 1), (3, 4)] 6 0x1000000000000000 = true := by decide +kernel
theorem test_slt_signed : gets (.slt 0 6 2 3) [(2, 0xFFFFFFFFFFFFFFFF), (3, 0)] 6 1 = true := by decide +kernel
theorem test_sltu_unsigned : gets (.sltu 0 6 2 3) [(2, 0xFFFFFFFFFFFFFFFF), (3, 0)] 6 0 = true := by decide +kernel
theorem test_movz_keeps : gets (.movz 0 6 2 3) [(2, 5), (3, 1), (6, 9)] 6 9 = true := by decide +kernel
theorem test_clz_zero : gets (.clz 0 6 2 0) [] 6 64 = true := by decide +kernel
theorem test_popc : gets (.popc 0 6 2 0) [(2, 0xF0F0000000000001)] 6 9 = true := by decide +kernel

/-- R109. -/
theorem test_addi_negative : gets (.addi 0 6 2 0xFFF) [(2, 0)] 6 0xFFFFFFFFFFFFFFFF = true := by decide +kernel
theorem test_lui_sign : gets (.lui 0 6 0x80001) [] 6 0xFFFFFFFF80001000 = true := by decide +kernel

/-- R110: a branch back by two instructions, and one not taken. -/
theorem test_beq_taken : leaves (.beq 0 2 3 0xFFE) (regs [(2, 7), (3, 7)]) (fun t => (t.core 0).pcc.cursor == 0xF8) = true := by decide +kernel
theorem test_blt_not_taken : leaves (.blt 0 2 3 4) (regs [(2, 7), (3, 0xFFFFFFFFFFFFFFFF)]) (fun t => (t.core 0).pcc.cursor == 0x104) = true := by
  decide +kernel

/-- R120: a loop of five instructions, and one whose body is skipped. -/
theorem test_loopi : leaves (.loopi 0 3 5) (regs []) (fun t => (t.core 0).csF R.CS_LDEPTH F.CS_LDEPTH_DEPTH == 1 && (t.core 0).pcc.cursor == 0x104) = true := by
  decide +kernel
theorem test_loop_zero : leaves (.loopG 0 2 5) (regs [(2, 0)]) (fun t => (t.core 0).csF R.CS_LDEPTH F.CS_LDEPTH_DEPTH == 0 && (t.core 0).pcc.cursor == 0x118) = true := by
  decide +kernel

/-- R135: the carry, and the pair of a product. -/
theorem test_adc_carry : gets (.adc 0 6 2 3 0) [(2, 0xFFFFFFFFFFFFFFFF), (3, 0), (24, 1)] 24 1 = true := by decide +kernel
theorem test_sbc_borrow : gets (.sbc 0 6 2 3 0) [(2, 5), (3, 5), (24, 3)] 6 0xFFFFFFFFFFFFFFFF = true := by decide +kernel
theorem test_mulw_signed : gets (.mulw 0 6 2 3) [(2, 0x8000000000000000), (3, 2)] 7 0xFFFFFFFFFFFFFFFF = true := by decide +kernel
theorem test_mulwu_unsigned : gets (.mulwu 0 6 2 3) [(2, 0x8000000000000000), (3, 2)] 7 1 = true := by decide +kernel
/-- R136. -/
theorem test_div_by_zero : gets (.div 0 6 2 3) [(2, 5), (6, 9)] 6 0 = true := by decide +kernel
theorem test_div_overflow : gets (.div 0 6 2 3) [(2, 0x8000000000000000), (3, 0xFFFFFFFFFFFFFFFF)] 6 0x8000000000000000 = true := by decide +kernel
theorem test_rem_by_zero : gets (.rem 0 6 2 3) [(2, 5)] 6 5 = true := by decide +kernel
theorem test_rem_sign : gets (.rem 0 6 2 3) [(2, 0xFFFFFFFFFFFFFFF9), (3, 3)] 6 0xFFFFFFFFFFFFFFFF = true := by decide +kernel

/-- R139, R140: the examples of the text and sums by hand. -/
theorem test_daddu_carry : gets (.daddu 0 6 2 3 0) [(2, 0x9999999999999999), (3, 0), (24, 1)] 24 1 = true := by decide +kernel
theorem test_dsubu_borrow : gets (.dsubu 0 6 2 3 0) [(2, 0), (3, 1)] 6 0x9999999999999999 = true := by decide +kernel
theorem test_dadj : gets (.dadj 0 6 2 3 0) [(2, 0xC), (3, 2)] 6 0x12 = true := by decide +kernel
theorem test_dadd_zero_sign : gets (.dadd 0 6 2 3) [(2, 0x1C), (3, 0x1D)] 6 0xC = true := by decide +kernel
theorem test_dsub_negative : gets (.dsub 0 6 2 3) [(2, 0x5C), (3, 0x12C)] 6 0x7D = true := by decide +kernel
theorem test_dpack : gets (.dpack 0 6 2 3) [(2, 0x1), (3, 0x3537333230303030)] 6 0x100002375 = true := by decide +kernel
theorem test_dunpk : gets (.dunpk 0 6 2 3) [(2, 0x2375)] 6 0x3537333230303030 = true := by decide +kernel
theorem test_dshr_rounds : gets (.dshr 0 6 2 3 2) [(2, 0x25), (3, 1)] 6 0x3 = true := by decide +kernel
theorem test_dcvtb : gets (.dcvtb 0 6 2 0) [(2, 0x123D)] 6 0xFFFFFFFFFFFFFF85 = true := by decide +kernel
theorem test_dcvtd : gets (.dcvtd 0 6 2 1) [(2, 1234)] 6 0x1234 = true := by decide +kernel
theorem test_dchk_sign : gets (.dchk 0 6 2 1) [(2, 0x123E)] 6 0 = true := by decide +kernel

/-- `ready` with floating-point registers set, long operations precise. -/
def fregs (l : List (Nat × BitVec 4096)) : State := (regs []).modCore 0 fun c => l.foldl (fun c e => c.setV e.1 e.2) c
/-- The low 64 bits of v n. -/
def low (t : State) (n : Nat) : Nat := ((t.core 0).vR n).toNat % 2 ^ 64

/-- IEEE 754-2019 sums and quotients. -/
theorem test_fp_add : leaves (.fpAdd 0 false 1 6 4 5 0) (fregs [(4, 0x3FF8000000000000), (5, 0x4002000000000000)]) (fun t => low t 6 == 0x400E000000000000) = true := by
  decide +kernel
theorem test_fp_div : leaves (.fpDiv 0 false 1 6 4 5 0) (fregs [(4, 0x3FF0000000000000), (5, 0x4008000000000000)]) (fun t => low t 6 == 0x3FD5555555555555) = true := by
  decide +kernel
/-- 1 + 2 in decimal64: 0x2238000000000001 is 1 with exponent 0. -/
theorem test_dfp_add : leaves (.fpAdd 0 true 0 6 4 5 0) (fregs [(4, 0x2238000000000001), (5, 0x2238000000000002)]) (fun t => low t 6 == 0x2238000000000003) = true := by
  decide +kernel

/-- R166 and its worked example: the features and weights of steps 2 to 4, and the sum of step 6. -/
theorem test_vdot4 : leaves (.vdot4 0 8 1 2 0)
    ((fregs [(1, 0xFD06000102F8090904FF050C0007FE03), (2, 0x02FB0B00070403FE0105FA0208FD040A)]).modCore 0 fun c =>
      (c.csSetF R.CS_VCTL F.CS_VCTL_SEW 0).csSet R.CS_VL 16)
    (fun t => ((t.core 0).vR 8).toNat % 2 ^ 128 == 0xFFFFFFDCFFFFFFF7FFFFFFF900000001) = true := by decide +kernel
theorem test_vredadd : leaves (.vredadd 0 9 8 10 0) ((fregs [(8, 0xFFFFFFDCFFFFFFF7FFFFFFF900000001)]).modCore 0 fun c =>
      (c.csSetF R.CS_VCTL F.CS_VCTL_SEW 2).csSet R.CS_VL 16)
    (fun t => ((t.core 0).vR 9).toNat % 2 ^ 32 == 0xFFFFFFCD) = true := by decide +kernel
theorem test_vaddsat : leaves (.vaddsat 0 6 4 5 0) ((fregs [(4, 0x7F), (5, 1)]).modCore 0 fun c => (c.csSetF R.CS_VCTL F.CS_VCTL_SEW 0).csSet R.CS_VL 16)
    (fun t => ((t.core 0).vR 6).toNat % 2 ^ 128 == 0x7F) = true := by decide +kernel

/-- CADD keeps the tag, CCLRT clears it, CGET reads a field (the table of R61). -/
theorem test_cadd : leaves (.cadd 0 6 1 2) (regs [(2, 0x10)]) (fun t => ((t.core 0).cR 6).tag && ((t.core 0).cR 6).cursor == 0x2010) = true := by decide +kernel
theorem test_cclrt : leaves (.cclrt 0 6 1) (regs []) (fun t => !((t.core 0).cR 6).tag && ((t.core 0).cR 6).bits == (coin 1 0x2000).bits) = true := by
  decide +kernel
theorem test_cget_issue : gets (.cget 0 6 1 2) [] 6 5 = true := by decide +kernel

/-- R112, R115: a load's data is little-endian; the register takes it when the data arrives. -/
theorem test_load_data : leaves (.loadDataReturn 0 0) { ldReturn with mem := [(0x2000, 0x88#8), (0x2007, 0x11#8)] ++ ldReturn.mem }
    (fun t => (t.core 0).gR 6 == 0x1100000000000088 && (t.core 0).loads == []) = true := by decide +kernel
/-- R57: a data store clears the tag of the granule it writes. -/
theorem test_store_clears_tag : leaves (.storeBufferDrain 0 0) { stReady 0x2008 with tags := [(0x200, true)] }
    (fun t => t.memB 0x2008 == 5 && !t.tagAt 0x2000 && (t.core 0).sb == []) = true := by decide +kernel
theorem test_swp : leaves (.swp 0 6 1 4 false 0) { regs [(4, 0x55)] with mem := (0x2000, 0x33#8) :: (regs []).mem }
    (fun t => (t.core 0).gR 6 == 0x33 && t.memB 0x2000 == 0x55) = true := by decide +kernel

/-- R385, R386: the flags of K16. -/
def hregs (l : List (Nat × BitVec 16)) : State := herReady.modCore 0 fun c => l.foldl (fun c e => c.setH e.1 e.2.toNat) c
theorem test_k16_add_carry : leaves (.k16Add 0 2 3) (hregs [(2, 0xFFFF), (3, 1)])
    (fun t => (t.core 0).hR 2 == 0 && (t.core 0).csF R.CS_HSTAT F.CS_HSTAT_C == 1 && (t.core 0).csF R.CS_HSTAT F.CS_HSTAT_Z == 1) = true := by decide +kernel
theorem test_k16_dadc_invalid : leaves (.k16Dadc 0 2 3) (hregs [(2, 0xA), (3, 1)])
    (fun t => (t.core 0).hR 2 == 0xFFFF && (t.core 0).csF R.CS_HSTAT F.CS_HSTAT_V == 1 && (t.core 0).csF R.CS_HSTAT F.CS_HSTAT_C == 0) = true := by decide +kernel

/-! The units -/

/-- The check value of CRC-32C (R327). -/
theorem test_crc32c : crc32c [0x31, 0x32, 0x33, 0x34, 0x35, 0x36, 0x37, 0x38, 0x39] = 0xE3069283 := by decide +kernel
/-- R268: granule 0x11 of 256 bytes is homed at slice 1 XOR 1. -/
theorem test_home : homeOf 256 0x1100 = 0 ∧ homeOf 256 0x1200 = 3 ∧ chanAddr 256 0x1234 = 0x134 := by decide +kernel
/-- R216: an unsettled source fires at its first ring. -/
theorem test_ring_fires : leaves (.dbhRing 7) live (fun t => t.rf (R.DBH_SRC 7) F.DBH_SRC_P == 1) = true := by decide +kernel
theorem test_ring_bad : leaves (.dbhRing 0x10007) live (fun t => t.rf R.DBH_STAT F.DBH_STAT_BADRING == 1 && t.rf (R.DBH_SRC 7) F.DBH_SRC_P == 0) = true := by
  decide +kernel
/-- R218: DONE of a source that is not active here is counted. -/
theorem test_done_bad : leaves (.dbhDone 3 7) live (fun t => t.rf R.DBH_STAT F.DBH_STAT_BADDONE == 1) = true := by decide +kernel
/-- The ledger sequencer takes no number while open and never 0. -/
theorem test_seq_next : leaves (.seqNextWrite 0) live (fun t => t.seq == live.seq) = true ∧ leaves (.seqNextWrite 9) live (fun t => t.seq.next == 9) = true := by
  decide +kernel
/-- R462: 115 °C trips. -/
theorem test_trip : leaves (.thermalRead [(0x80, 460)]) { live with mode := .load } (fun t => t.pins.trip && t.pins.thermtrip) = true := by decide +kernel
/-- R95: an index enters the sweeper's list. -/
theorem test_sweep_add : leaves (.sweepAdd 5) live (fun t => t.sweep.list == [5] && t.rf R.VLT_SWSTAT F.VLT_SWSTAT_COUNT == 1) = true := by decide +kernel
/-- R431: a unit operation in start-up is turned away with MODE. -/
theorem test_unit_mode : leaves (.unitFence 0x80) { live with mode := .load } (fun t => t.rf (R.MGMT_USTAT 0x80) F.MGMT_USTAT_RESULT == 2) = true := by decide +kernel

end

end Sys2Proof.Tests
end

namespace Sys2Proof.Machine

/-! The step function and the state of device reset -/

/-- Settles O1: `step` is `exec` of the queue's front, or one clock of the time base. -/
theorem stepTakesTheFrontCommand : Obligations.StepTakesTheFrontCommand := by
  refine ⟨fun c rest s => rfl, fun s hs => ?_⟩
  cases s
  subst hs
  rfl

theorem reset_reg (k : Nat) : State.reset.reg k = ctlReset k := rfl

theorem reset_seqOk : State.reset.seqOk :=
  ⟨⟨by decide, by decide, by decide⟩, fun b hb => by cases hb⟩

theorem reset_mapsOk : State.reset.mapsOk := ⟨rfl, rfl, rfl, rfl, rfl⟩

theorem reset_zeroOk : State.reset.zeroOk := by
  intro k
  simp [State.reset, State.core, CoreState.reset]

/-- Settles O2: every field of the reset state is read off; the invariants are lemmas above. -/
theorem resetState : Obligations.ResetState :=
  ⟨rfl, rfl, rfl, rfl, rfl, rfl, rfl, rfl, rfl, rfl, reset_reg, reset_seqOk, reset_mapsOk, reset_zeroOk⟩

end Sys2Proof.Machine

namespace Sys2Proof

/-! Fields of words: what a field reads as after a field was set -/

/-- The bits of a field's value. -/
theorem testBit_getF {w : Nat} (v : BitVec w) (f : Fld) (i : Nat) :
    (getF v f).testBit i = (decide (i < f.width) && v.getLsbD (f.lo + i)) := by
  rw [getF, Nat.testBit_mod_two_pow, BitVec.testBit_toNat, BitVec.getLsbD_ushiftRight]

/-- The bits of the mask of a field. -/
theorem getLsbD_mask {w : Nat} (f : Fld) {i : Nat} (hi : i < w) :
    (f.mask w).getLsbD i = (decide (f.lo ≤ i) && decide (i < f.lo + f.width)) := by
  rw [Fld.mask, BitVec.getLsbD_ofNat, Nat.mul_comm, Nat.testBit_two_pow_mul, Nat.testBit_two_pow_sub_one]
  by_cases h : f.lo ≤ i
  · have : (i - f.lo < f.width) = (i < f.lo + f.width) := propext (by omega)
    simp [hi, h, this]
  · simp [h]

/-- The bits of a word after a field of it was set. -/
theorem getLsbD_setF {w : Nat} (v : BitVec w) (f : Fld) (n : Nat) {i : Nat} (hi : i < w) :
    (setF v f n).getLsbD i = if f.lo ≤ i ∧ i < f.lo + f.width then n.testBit (i - f.lo) else v.getLsbD i := by
  have hn : (BitVec.ofNat w (n % 2 ^ f.width * 2 ^ f.lo)).getLsbD i =
      (decide (f.lo ≤ i) && (decide (i - f.lo < f.width) && n.testBit (i - f.lo))) := by
    rw [BitVec.getLsbD_ofNat, Nat.mul_comm, Nat.testBit_two_pow_mul, Nat.testBit_mod_two_pow]
    simp [hi]
  rw [setF, BitVec.getLsbD_or, BitVec.getLsbD_and, BitVec.getLsbD_not, getLsbD_mask f hi, hn]
  by_cases h : f.lo ≤ i ∧ i < f.lo + f.width
  · have : i - f.lo < f.width := by omega
    simp [h, this]
  · rw [if_neg h]
    by_cases hl : f.lo ≤ i
    · have : ¬ i < f.lo + f.width := fun hw => h ⟨hl, hw⟩
      have hw : ¬ i - f.lo < f.width := by omega
      simp [hi, this, hw]
    · simp [hi, hl]

/-- A field reads as the low bits of what it was set to. -/
theorem getF_setF_same {w : Nat} (v : BitVec w) (f : Fld) (n : Nat) (h : f.lo + f.width ≤ w) :
    getF (setF v f n) f = n % 2 ^ f.width := by
  refine Nat.eq_of_testBit_eq fun i => ?_
  rw [testBit_getF, Nat.testBit_mod_two_pow]
  by_cases hi : i < f.width
  · rw [getLsbD_setF v f n (by omega), if_pos (by omega), Nat.add_sub_cancel_left]
  · simp [hi]

/-- Setting a field leaves the fields beside it as they are. -/
theorem getF_setF_other {w : Nat} (v : BitVec w) (f g : Fld) (n : Nat) (h : f.lo + f.width ≤ g.lo ∨ g.lo + g.width ≤ f.lo) :
    getF (setF v f n) g = getF v g := by
  refine Nat.eq_of_testBit_eq fun i => ?_
  rw [testBit_getF, testBit_getF]
  by_cases hi : i < g.width
  · by_cases hw : g.lo + i < w
    · rw [getLsbD_setF v f n hw, if_neg (by omega)]
    · rw [BitVec.getLsbD_of_ge _ _ (by omega), BitVec.getLsbD_of_ge _ _ (by omega)]
  · simp [hi]

/-- The value of a field of a word made from a number. -/
theorem getF_ofNat {w : Nat} (f : Fld) (n : Nat) (h : f.lo + f.width ≤ w) : getF (BitVec.ofNat w n) f = n / 2 ^ f.lo % 2 ^ f.width := by
  refine Nat.eq_of_testBit_eq fun i => ?_
  rw [testBit_getF, Nat.testBit_mod_two_pow, BitVec.getLsbD_ofNat, Nat.testBit_div_two_pow]
  by_cases hi : i < f.width
  · have : f.lo + i < w := by omega
    rw [Nat.add_comm i]; simp [hi, this]
  · simp [hi]

theorem getF_lt {w : Nat} (v : BitVec w) (f : Fld) : getF v f < 2 ^ f.width := Nat.mod_lt _ (Nat.two_pow_pos _)

namespace Machine

/-! Fields of control-space registers -/

theorem State.rf_setReg_same (s : State) (k : Nat) (v : Word) (f : Fld) : (s.setReg k v).rf k f = getF v f := by
  rw [State.rf, State.reg_setReg_same]

theorem State.rf_setReg_other (s : State) {k j : Nat} (v : Word) (f : Fld) (h : j ≠ k) : (s.setReg k v).rf j f = s.rf j f := by
  rw [State.rf, State.reg_setReg_other _ _ h]; rfl

theorem State.rf_setRf_same (s : State) (k : Nat) (f : Fld) (n : Nat) (h : f.lo + f.width ≤ 64) :
    (s.setRf k f n).rf k f = n % 2 ^ f.width := by
  rw [State.rf, State.reg_setRf_same, getF_setF_same _ _ _ h]

theorem State.rf_setRf_field (s : State) (k : Nat) (f g : Fld) (n : Nat) (h : f.lo + f.width ≤ g.lo ∨ g.lo + g.width ≤ f.lo) :
    (s.setRf k f n).rf k g = s.rf k g := by
  rw [State.rf, State.reg_setRf_same, getF_setF_other _ _ _ _ h]; rfl

theorem State.rf_setRf_other (s : State) {k j : Nat} (f g : Fld) (n : Nat) (h : j ≠ k) : (s.setRf k f n).rf j g = s.rf j g := by
  rw [State.rf, State.reg_setRf_other _ _ _ h]; rfl

/-- States with the same registers have the same register fields. -/
theorem State.rf_of_reg {s t : State} {k : Nat} (f : Fld) (h : t.reg k = s.reg k) : t.rf k f = s.rf k f := by
  rw [State.rf, State.rf, h]

end Machine
end Sys2Proof

namespace Sys2Proof.Machine

/-! What the hub and the telemetry counters may write of control space -/

/-- The keys of telemetry's counters and overflow bits, of DBH_STAT, and of DBH_SRC. -/
abbrev HubKey (k : Nat) : Prop :=
  (0xF10000 ≤ k % 0x1000000 ∧ k % 0x1000000 < 0xF10300) ∨ k = R.DBH_STAT ∨ (R.DBH_SRC 0 ≤ k ∧ k < R.DBH_SRC 65536)

theorem hubKey_DBH_SRC {x : Nat} (h : x < 65536) : HubKey (R.DBH_SRC x) := by
  simp only [HubKey, R.DBH_SRC, ckey]
  omega

theorem hubKey_TEL_OVF (u : Nat) : HubKey (R.TEL_OVF u) := by
  simp only [HubKey, R.TEL_OVF, ckey]
  omega

/-- Where the counters of a unit lie. -/
theorem hubKey_counter {u key : Nat} (h : R.TEL_EVSEL u 0 ≤ key) (h' : key < R.TEL_EVSEL u 16) : HubKey (key + 8) := by
  simp only [HubKey, R.TEL_EVSEL, ckey] at h h' ⊢
  omega

/-- A fold whose steps, on the elements of the list, keep what `g` shows. -/
theorem foldl_keeps_mem {α β γ : Type} (g : β → γ) (f : β → α → β) (l : List α) (h : ∀ b, ∀ a ∈ l, g (f b a) = g b) (b : β) :
    g (l.foldl f b) = g b := by
  induction l generalizing b with
  | nil => rfl
  | cons a l ih =>
    rw [List.foldl_cons, ih fun b x hx => h b x (List.mem_cons_of_mem _ hx), h b a List.mem_cons_self]

/-- What a fold's steps, on the elements of the list, keep true. -/
theorem foldl_invariant {α β : Type} (P : β → Prop) (f : β → α → β) (l : List α) (h : ∀ b, P b → ∀ a ∈ l, P (f b a)) {b : β} (hb : P b) :
    P (l.foldl f b) := by
  induction l generalizing b with
  | nil => exact hb
  | cons a l ih => exact ih (fun b hb x hx => h b hb x (List.mem_cons_of_mem _ hx)) (h b hb a List.mem_cons_self)

theorem State.sharedPending_lt {s : State} {x : Nat} (h : x ∈ s.sharedPending) : x < 65536 := by
  obtain ⟨⟨key, v⟩, -, hx⟩ := List.mem_filterMap.mp h
  dsimp only at hx
  split at hx
  next hk =>
    simp only [Bool.and_eq_true, decide_eq_true_eq] at hk
    simp only [R.DBH_SRC, ckey] at hk
    simp only [Option.some.injEq, R.DBH_SRC, ckey] at hx
    omega
  next => cases hx

theorem State.hubKey_countersOf {s : State} {u ev key : Nat} (h : key ∈ s.countersOf u ev) : HubKey (key + 8) := by
  obtain ⟨⟨key', v⟩, -, hx⟩ := List.mem_filterMap.mp h
  dsimp only at hx
  split at hx
  next hk =>
    simp only [Bool.and_eq_true, decide_eq_true_eq] at hk
    cases hx
    exact hubKey_counter hk.1.1.1.1 hk.1.1.1.2
  next => cases hx

section
variable {k : Nat} (hk : ¬ HubKey k)
include hk

theorem reg_setReg_hub (s : State) {j : Nat} (v : Word) (hj : HubKey j) : (s.setReg j v).reg k = s.reg k :=
  State.reg_setReg_other s v fun h => hk (h ▸ hj)

theorem reg_setRf_hub (s : State) {j : Nat} (f : Fld) (n : Nat) (hj : HubKey j) : (s.setRf j f n).reg k = s.reg k :=
  reg_setReg_hub hk s _ hj

theorem reg_markLaunched (s : State) (on : List Nat) : (s.markLaunched on).reg k = s.reg k := by
  have hpriv (l : List (Nat × Nat)) (t : State) : (l.foldl (fun t (e : Nat × Nat) =>
      match t.privWant (e.1 / 64) (e.1 % 64) e.2 with
      | some lk => if on.contains lk then t.setPriv (e.1 / 64) (e.1 % 64) (mkPriv true false true) else t
      | none => t) t).reg k = t.reg k :=
    foldl_keeps (fun t : State => t.reg k) _ (fun t e => by
      split
      · split <;> rfl
      · rfl) l t
  refine (hpriv _ _).trans (foldl_keeps_mem (fun t : State => t.reg k) _ _ (fun t x hx => ?_) s)
  dsimp only
  split
  · split
    · exact reg_setReg_hub hk t _ (hubKey_DBH_SRC (State.sharedPending_lt hx))
    · rfl
  · rfl

theorem reg_relines (s : State) : s.relines.reg k = s.reg k := by
  refine (reg_markLaunched hk _ _).trans (foldl_keeps (fun t : State => t.reg k) _ (fun t c => ?_) _ s)
  refine foldl_keeps (fun t : State => t.reg k) _ (fun t g => ?_) _ t
  dsimp only
  split <;> rfl

theorem reg_fireShared (s : State) (x : Nat) : (s.fireShared x).reg k = s.reg k := by
  have hx : HubKey (R.DBH_SRC (x % 65536)) := hubKey_DBH_SRC (Nat.mod_lt _ (by decide))
  unfold State.fireShared
  dsimp only
  rw [reg_relines hk]
  split
  · exact (reg_setRf_hub hk _ _ _ (.inr (.inl rfl))).trans (reg_setRf_hub hk s _ _ hx)
  · exact reg_setRf_hub hk s _ _ hx

theorem reg_firePriv (s : State) (c j : Nat) : (s.firePriv c j).reg k = s.reg k := by
  unfold State.firePriv
  split
  · rfl
  · dsimp only
    rw [reg_relines hk]
    split
    · exact reg_setRf_hub hk _ _ _ (.inr (.inl rfl))
    · rfl

theorem reg_wrapped (s : State) (u j : Nat) : (s.wrapped u j).reg k = s.reg k := by
  have h : (s.setReg (R.TEL_OVF u) (s.reg (R.TEL_OVF u) ||| BitVec.ofNat 64 (2 ^ j))).reg k = s.reg k :=
    reg_setReg_hub hk s _ (hubKey_TEL_OVF u)
  unfold State.wrapped
  dsimp only
  split
  · exact (reg_firePriv hk _ _ _).trans h
  · exact h

theorem reg_countOne (s : State) (u : Nat) {key : Nat} (n : Nat) (hj : HubKey (key + 8)) : (s.countOne u key n).reg k = s.reg k := by
  unfold State.countOne
  dsimp only
  split
  · exact (reg_wrapped hk _ _ _).trans (reg_setReg_hub hk s _ hj)
  · exact reg_setReg_hub hk s _ hj

theorem reg_countAll (s : State) (u ev n : Nat) : (s.countAll u ev n).1.reg k = s.reg k :=
  foldl_keeps_mem (fun r : State × Nat => r.1.reg k) _ _ (fun r _ hj => reg_countOne hk r.1 u n (State.hubKey_countersOf hj)) (s, 0)

theorem reg_ringBare (s : State) (x : Nat) : (s.ringBare x).reg k = s.reg k := by
  have h (t : State) (b : Prop) [Decidable b] (y : Nat) (ht : t.reg k = s.reg k) : (if b then t.fireShared y else t).reg k = s.reg k := by
    split
    · exact (reg_fireShared hk t y).trans ht
    · exact ht
  unfold State.ringBare
  dsimp only
  refine h _ _ _ ?_
  split <;> rfl

theorem reg_wrapRings (s : State) (fuel n : Nat) : (s.wrapRings fuel n).reg k = s.reg k := by
  induction fuel generalizing s n with
  | zero => rfl
  | succ fuel ih =>
    unfold State.wrapRings
    dsimp only
    split
    · rfl
    · exact (ih _ _).trans ((reg_countAll hk _ _ _ _).trans (reg_ringBare hk s _))

theorem reg_count (s : State) (u ev n : Nat) : (s.count u ev n).reg k = s.reg k :=
  (reg_wrapRings hk _ _ _).trans (reg_countAll hk s u ev n)

theorem reg_ringSrc (s : State) (x : Nat) : (s.ringSrc x).reg k = s.reg k := by
  unfold State.ringSrc
  split
  · rfl
  · exact (reg_count hk _ _ _ _).trans (reg_ringBare hk s x)

theorem reg_setMode (s : State) (m : Mode) : (s.setMode m).reg k = s.reg k := reg_relines hk _

end
end Sys2Proof.Machine

namespace Sys2Proof.Machine

/-! What granting and releasing cell locks can change: the locks, the postings and messages that hear of them, the numbers of messages -/

/-- The state with everything that locking cells may write taken out. -/
def State.offLocks (s : State) : State :=
  { s with cellLocks := [], lockWaits := [], lockRels := [], postings := [], peerOut := [], nextId := 0 }

@[simp] theorem grantLock_offLocks (s : State) (l : CellLock) : (s.grantLock l).offLocks = s.offLocks := by
  unfold State.grantLock
  dsimp only
  split <;> rfl

@[simp] theorem grantWaiting_offLocks (s : State) (n : Nat) : (s.grantWaiting n).offLocks = s.offLocks := by
  induction n generalizing s with
  | zero => rfl
  | succ n ih =>
    unfold State.grantWaiting
    split
    · rfl
    · exact (ih _).trans (grantLock_offLocks _ _)

@[simp] theorem unlock_offLocks (s : State) (line : Nat) (o : LockOwner) : (s.unlock line o).offLocks = s.offLocks :=
  grantWaiting_offLocks _ _

@[simp] theorem releaseAll_offLocks (s : State) (p : Posting) : (s.releaseAll p).offLocks = s.offLocks := by
  unfold State.releaseAll
  dsimp only
  refine (foldl_keeps State.offLocks _ (fun t l => ?_) _ _).trans
    (foldl_keeps State.offLocks _ (fun t l => unlock_offLocks t _ _) _ _)
  split
  · rfl
  · split
    · split <;> rfl
    · rfl
  · rfl

@[simp] theorem dropPosting_offLocks (s : State) (id : Nat) : (s.dropPosting id).offLocks = s.offLocks := rfl

/-- A field outside the locks' part is kept by whatever keeps the rest of the state. -/
theorem offLocks_field {α : Type} (f : State → α) (hf : ∀ s, f s.offLocks = f s) {s t : State} (h : t.offLocks = s.offLocks) : f t = f s := by
  rw [← hf t, h, hf]

/-- DRAIN's start at the tellers touches locks and postings, and closes the sequencer. -/
theorem tellersDrain_field {α : Type} (f : State → α) (hf : ∀ s, f s.offLocks = f s) (hq : ∀ s : State, f { s with seq := { s.seq with isOpen := false } } = f s)
    (s : State) : f s.tellersDrain = f s :=
  (hq _).trans (foldl_keeps f _ (fun t p => offLocks_field f hf
    ((dropPosting_offLocks _ _).trans (releaseAll_offLocks t p))) _ s)

theorem tellersDrain_isOpen (s : State) : s.tellersDrain.seq.isOpen = false := rfl

/-! Modes -/

theorem disarmSevere_offHub (s : State) : s.disarmSevere.offHub = s.offHub :=
  foldl_keeps State.offHub _ (fun t _ => setRf_offHub t _ _ _) _ s

theorem brumEnd_offHub (s : State) (res : Nat) : (s.brumEnd res).offHub = { s with brum := none }.offHub := rfl

theorem setMode_offHub (s : State) (m : Mode) : (s.setMode m).offHub = { s with mode := m }.offHub := relines_offHub _

@[simp] theorem setMode_mode (s : State) (m : Mode) : (s.setMode m).mode = m :=
  offHub_field State.mode (fun _ => rfl) (setMode_offHub s m)

/-- A change of mode keeps what is neither the mode nor the hub's. -/
theorem setMode_field {α : Type} (f : State → α) (hf : ∀ s, f s.offHub = f s) (hm : ∀ (s : State) (m : Mode), f { s with mode := m } = f s)
    (s : State) (m : Mode) : f (s.setMode m) = f s :=
  (offHub_field f hf (setMode_offHub s m)).trans (hm s m)

/-- With nothing held, there is nothing to take. -/
theorem releaseHeld_nil {s : State} (h : s.held = []) : s.releaseHeld = s := by
  unfold State.releaseHeld
  rw [h]
  cases s
  subst h
  rfl

end Sys2Proof.Machine

namespace Sys2Proof.Machine

/-! DRAIN entered (R30) -/

/-- The first half of DRAIN's entry: severe injections disarmed, and a mode request under way ended. -/
def State.requestsEnd (s : State) : State :=
  let s := if s.mode = .diagnostic then s.disarmSevere else s
  if s.rf R.MGMT_MODE F.MGMT_MODE_BUSY = 1 then s.brumEnd 5 else s

theorem enterDrain_eq (s : State) :
    s.enterDrain = ({ (s.requestsEnd.setMode .drain).tellersDrain with fences := [] } : State).releaseHeld := rfl

theorem requestsEnd_field {α : Type} (f : State → α) (hhub : ∀ s, f s.offHub = f s) (hbrum : ∀ s : State, f { s with brum := none } = f s)
    (s : State) : f s.requestsEnd = f s := by
  have hend (t : State) : f (if t.rf R.MGMT_MODE F.MGMT_MODE_BUSY = 1 then t.brumEnd 5 else t) = f t := by
    split
    · exact (offHub_field f hhub (brumEnd_offHub t 5)).trans (hbrum t)
    · rfl
  refine (hend _).trans ?_
  split
  · exact offHub_field f hhub (disarmSevere_offHub s)
  · rfl

/-- What the entry into DRAIN keeps up to the release of held messages. -/
theorem drainFront_field {α : Type} (f : State → α) (hhub : ∀ s, f s.offHub = f s) (hlocks : ∀ s, f s.offLocks = f s)
    (hbrum : ∀ s : State, f { s with brum := none } = f s) (hmode : ∀ (s : State) (m : Mode), f { s with mode := m } = f s)
    (hseq : ∀ s : State, f { s with seq := { s.seq with isOpen := false } } = f s) (s : State) :
    f (s.requestsEnd.setMode .drain).tellersDrain = f s := by
  rw [tellersDrain_field f hlocks hseq, setMode_field f hhub hmode, requestsEnd_field f hhub hbrum]

/-- Without held messages, DRAIN is entered with no fence pending and the sequencer closed; the board's signals stay. -/
theorem enterDrain_spec {s : State} (h : s.held = []) :
    s.enterDrain.mode = .drain ∧ s.enterDrain.fences = [] ∧ s.enterDrain.seq.isOpen = false ∧ s.enterDrain.pins = s.pins := by
  have hheld := drainFront_field State.held (fun _ => rfl) (fun _ => rfl) (fun _ => rfl) (fun _ _ => rfl) (fun _ => rfl) s
  have hpins := drainFront_field State.pins (fun _ => rfl) (fun _ => rfl) (fun _ => rfl) (fun _ _ => rfl) (fun _ => rfl) s
  have hmode : (s.requestsEnd.setMode .drain).tellersDrain.mode = .drain :=
    (tellersDrain_field State.mode (fun _ => rfl) (fun _ => rfl) _).trans (setMode_mode _ _)
  have hopen := tellersDrain_isOpen (s.requestsEnd.setMode .drain)
  have he := enterDrain_eq s
  generalize (s.requestsEnd.setMode .drain).tellersDrain = t at *
  rw [he, releaseHeld_nil (s := { t with fences := [] }) (hheld.trans h)]
  exact ⟨hmode, rfl, hopen, hpins⟩

theorem powerFail_drain {s : State} (h : s.mode = .drain) : s.powerFail = s := by
  simp only [State.powerFail, h]

theorem powerFail_load {s : State} (h : s.mode = .load) (hs : s.boot.stop = .no) :
    s.powerFail = { s with boot := { s.boot with stop := .atEnd } } := by
  simp only [State.powerFail, h, hs, if_true]

theorem powerFail_live {s : State} (hl : s.mode ≠ .load) (hd : s.mode ≠ .drain) : s.powerFail = s.enterDrain := by
  unfold State.powerFail
  split
  · contradiction
  · contradiction
  · rfl

/-! Device reset (R394, R395) -/

/-- Everything that a device reset puts back, and what it keeps. -/
theorem deviceReset_spec (s : State) :
    let t := s.deviceReset
    t.inReset = true ∧ t.mode = .load ∧ t.cores = State.reset.cores ∧ t.mem = [] ∧ t.tags = [] ∧ t.poison = [] ∧
      t.seq = State.reset.seq ∧ t.postings = [] ∧ t.staging = [] ∧ t.sram = [] ∧ t.boot = State.reset.boot ∧
      t.csr = s.csr.filter (fun e => isFuse e.1) ∧ t.pending = s.pending ∧ t.time = s.time ∧ t.flashSize = s.flashSize ∧
      (s.flashOp = none → t.flash = s.flash) ∧ t.pins.refclk = s.pins.refclk := by
  refine ⟨rfl, rfl, rfl, rfl, rfl, rfl, rfl, rfl, rfl, rfl, rfl, rfl, rfl, rfl, rfl, fun h => ?_, rfl⟩
  simp only [State.deviceReset, h]

/-- A new nonce is six registers and free values. -/
theorem newNonce_field {α : Type} (f : State → α) (hreg : ∀ (s : State) k v, f (s.setReg k v) = f s)
    (hfree : ∀ (s : State) n, f { s with free := n } = f s) (s : State) : f s.newNonce = f s :=
  (hfree _ _).trans (foldl_keeps f _ (fun t _ => hreg t _ _) _ s)

theorem newNonce_reg {s : State} {k : Nat} (h : ∀ j, k ≠ R.DBG_NONCE j) : s.newNonce.reg k = s.reg k :=
  foldl_keeps (fun t : State => t.reg k) _ (fun t _ => State.reg_setReg_other t _ (h _)) _ _

/-- The end of device reset, once its conditions are clear: LOAD at stage 1. -/
theorem resetExit_spec {s : State} (low : Bool) (h : (s.inReset && s.pins.pwrGood && s.pins.rails == 0x3FF && s.pins.refclk) = true) :
    let t := s.resetExit low
    t.inReset = false ∧ t.mode = .load ∧ t.rf R.IMG_STATUS F.IMG_STATUS_STAGE = 1 ∧ (t.boot.stop = .no ↔ low = false) ∧
      t.cores = s.cores ∧ t.mem = s.mem ∧ t.seq = s.seq := by
  simp only [Bool.and_eq_true, beq_iff_eq] at h
  obtain ⟨⟨⟨hr, hg⟩, hrails⟩, hclk⟩ := h
  have hne (j : Nat) : R.IMG_STATUS ≠ R.DBG_NONCE j := by
    simp only [R.IMG_STATUS, R.DBG_NONCE, ckey]; omega
  simp only [State.resetExit, hr, hg, hrails, hclk, Bool.not_true, Bool.false_or, bne_self_eq_false, Bool.false_eq_true, if_false]
  refine ⟨newNonce_field State.inReset (fun _ _ _ => rfl) (fun _ _ => rfl) _, newNonce_field State.mode (fun _ _ _ => rfl) (fun _ _ => rfl) _,
    ?_, ?_, newNonce_field State.cores (fun _ _ _ => rfl) (fun _ _ => rfl) _, newNonce_field State.mem (fun _ _ _ => rfl) (fun _ _ => rfl) _,
    newNonce_field State.seq (fun _ _ _ => rfl) (fun _ _ => rfl) _⟩
  · rw [State.rf_of_reg _ (newNonce_reg hne)]
    exact State.rf_setRf_same _ _ _ _ (by decide)
  · rw [newNonce_field State.boot (fun _ _ _ => rfl) (fun _ _ => rfl)]
    cases low <;> simp

/-- Before its conditions are clear, device reset does not end. -/
theorem resetExit_early {s : State} (low : Bool) (h : (s.inReset && s.pins.pwrGood && s.pins.rails == 0x3FF && s.pins.refclk) = false) :
    s.resetExit low = s := by
  unfold State.resetExit
  refine if_pos ?_
  revert h
  cases s.inReset <;> cases s.pins.pwrGood <;> cases s.pins.refclk <;> simp

/-! REFCLK (R459) -/

/-- What the ports' clocks lose with REFCLK: alignment and the count of close measures. -/
def State.portsUnaligned (s : State) : State :=
  (List.range 7).foldl (fun (s : State) p =>
    (s.setRf (R.PEER_TIME (pp p)) F.PEER_TIME_ALIGNED 0).modLink p fun l => { l with close := 0 }) s

theorem portsUnaligned_field {α : Type} (f : State → α) (hreg : ∀ (s : State) k v, f (s.setReg k v) = f s)
    (hlink : ∀ (s : State) p l, f (s.setLink p l) = f s) (s : State) : f s.portsUnaligned = f s :=
  foldl_keeps f _ (fun t _ => (hlink _ _ _).trans (hreg t _ _)) _ s

theorem refclkLost_early {s : State} (h : s.inReset = true ∨ s.pins.refclk = false) :
    s.refclkLost = { s with pins := { s.pins with refclk := false } } := by
  unfold State.refclkLost
  refine if_pos ?_
  rcases h with h | h <;> simp [h]

/-- Outside reset and LOAD, a loss of REFCLK enters DRAIN or finds it entered. -/
theorem refclkLost_live {s : State} (hr : s.inReset = false) (hc : s.pins.refclk = true) (hl : s.mode ≠ .load) (hh : s.held = []) :
    s.refclkLost.mode = .drain ∧ s.refclkLost.pins.refclk = false := by
  let s' : State := { s with pins := { s.pins with refclk := false } }
  have he : s.refclkLost = s'.portsUnaligned.powerFail := by
    unfold State.refclkLost
    exact if_neg (by simp [hr, hc])
  have hm : s'.portsUnaligned.mode = s.mode := portsUnaligned_field State.mode (fun _ _ _ => rfl) (fun _ _ _ => rfl) s'
  have hp : s'.portsUnaligned.pins = s'.pins := portsUnaligned_field State.pins (fun _ _ _ => rfl) (fun _ _ _ => rfl) s'
  have hheld : s'.portsUnaligned.held = [] :=
    (portsUnaligned_field State.held (fun _ _ _ => rfl) (fun _ _ _ => rfl) s').trans hh
  rw [he]
  by_cases hd : s.mode = .drain
  · rw [powerFail_drain (hm.trans hd), hp]
    exact ⟨hm.trans hd, rfl⟩
  · obtain ⟨h1, -, -, h4⟩ := enterDrain_spec hheld
    rw [powerFail_live (by rwa [hm]) (by rwa [hm]), h4, hp]
    exact ⟨h1, rfl⟩

/-! Settled -/

theorem pwrFailLow_long {s : State} {ns : Nat} (hr : s.inReset = false) (h : 30 ≤ ns) : s.pwrFailLow ns = s.powerFail := by
  unfold State.pwrFailLow
  rw [if_neg (by simp [hr]; omega), if_pos h]

/-- Settles O43, from what each of the board's events does: `deviceReset_spec`, `resetExit_spec`, `enterDrain_spec` and
`refclkLost_live`. -/
theorem resetAndPowerResult : Obligations.ResetAndPowerResult := by
  refine ⟨fun s => rfl, ?_, ?_, fun r s => rfl, ?_, ?_, ?_, fun s => rfl⟩
  · intro ns s h
    rw [exec_pwrGoodFall, execPwrGoodFall, State.pwrGoodDown, if_pos (by simpa using h)]
  · rintro ins s (⟨ns, rfl, hns, hg⟩ | ⟨r, rfl⟩)
    · rw [exec_pwrGoodFall, execPwrGoodFall, State.pwrGoodDown, if_neg (by simp [hg]; omega)]
      exact ⟨_, rfl, deviceReset_spec s⟩
    · exact ⟨_, rfl, deviceReset_spec { s with pins := { s.pins with rails := setF s.pins.rails ⟨r.val, r.val⟩ 0 } }⟩
  · intro low s
    refine ⟨fun h => ?_, fun h => ⟨_, rfl, resetExit_spec low h⟩⟩
    rw [exec_deviceResetExit, execDeviceResetExit, resetExit_early low h]
  · intro ns s
    refine ⟨fun h => ?_, fun hr hns => ⟨fun hd => ?_, fun hl hs => ?_, fun hd hl hh => ?_⟩⟩
    · rw [exec_pwrFail, execPwrFail, State.pwrFailLow, if_pos h]
    · rw [exec_pwrFail, execPwrFail, pwrFailLow_long hr hns, powerFail_drain hd]
    · rw [exec_pwrFail, execPwrFail, pwrFailLow_long hr hns, powerFail_load hl hs]
    · obtain ⟨hm, hf, hq, -⟩ := enterDrain_spec hh
      rw [exec_pwrFail, execPwrFail, pwrFailLow_long hr hns, powerFail_live hl hd]
      exact ⟨_, rfl, hm, hf, hq⟩
  · intro s
    refine ⟨fun h => ?_, fun hr hc hl hh => ⟨_, rfl, refclkLost_live hr hc hl hh⟩⟩
    rw [exec_refclkLoss, execRefclkLoss, refclkLost_early h]

end Sys2Proof.Machine

namespace Sys2Proof.Machine

/-- Outside device reset a unit's event takes effect. -/
theorem alive_of_live {s : State} (h : s.inReset = false) (f : State → State) : s.alive f = .next (f s) := by
  simp only [State.alive, h, Bool.false_eq_true, if_false]

/-! Error records (R442, R443) -/

theorem setSram_field {α : Type} (f : State → α) (hf : ∀ (s : State) m, f { s with sram := m } = f s) (s : State) (o : Nat) (bs : List Byte) :
    f (s.setSram o bs) = f s := by
  induction bs generalizing s o with
  | nil => rfl
  | cons b bs ih => exact (ih _ _).trans (hf s _)

/-- The ring's part of a record: the record and PROD, or the count of what was dropped. -/
def State.recordKept (s : State) (e : ErrReport) : State :=
  let st := s.steward e.unit
  let k := R.MGMT_EPTR st
  let prod := s.rf k F.MGMT_EPTR_PROD
  if (prod + 65536 - s.rf k F.MGMT_EPTR_CONS) % 65536 = 64 then
    if e.cls = .corrected then s.incRf k F.MGMT_EPTR_DROPC else s.incRf k F.MGMT_EPTR_DROPS
  else
    ((s.setSram (0x400000 + 0x1000 * st + 64 * (prod % 64)) (errRecordBytes s.time prod st e)).setRf k F.MGMT_EPTR_PROD (prod + 1)).count e.unit 0x02 1

/-- A CORRECTED record only fills its ring and rings CSRC. -/
theorem errRecord_corrected (s : State) {e : ErrReport} (h : e.cls = .corrected) :
    s.errRecord e = (s.recordKept e).ringSrc ((s.recordKept e).rf R.MGMT_ERRDB F.MGMT_ERRDB_CSRC) := by
  obtain ⟨u, d, cls, i, a, y, f, t⟩ := e
  subst h
  rfl

theorem recordKept_field {α : Type} (f : State → α) (hhub : ∀ s, f s.offHub = f s) (hsram : ∀ (s : State) m, f { s with sram := m } = f s)
    (s : State) (e : ErrReport) : f (s.recordKept e) = f s := by
  unfold State.recordKept
  dsimp only
  split
  · split <;> exact offHub_field f hhub (incRf_offHub _ _ _)
  · exact (offHub_field f hhub (count_offHub _ _ _ _)).trans
      ((offHub_field f hhub (setRf_offHub _ _ _ _)).trans (setSram_field f hsram s _ _))

theorem errRecord_corrected_field {α : Type} (f : State → α) (hhub : ∀ s, f s.offHub = f s)
    (hsram : ∀ (s : State) m, f { s with sram := m } = f s) (s : State) {e : ErrReport} (h : e.cls = .corrected) : f (s.errRecord e) = f s := by
  rw [errRecord_corrected s h, offHub_field f hhub (ringSrc_offHub _ _), recordKept_field f hhub hsram]

theorem setSram_reg (s : State) (o : Nat) (bs : List Byte) (k : Nat) : (s.setSram o bs).reg k = s.reg k :=
  setSram_field (fun s => s.reg k) (fun _ _ => rfl) s o bs

theorem recordKept_reg (s : State) (e : ErrReport) {k : Nat} (hk : ¬ HubKey k) (hp : k ≠ R.MGMT_EPTR (s.steward e.unit)) :
    (s.recordKept e).reg k = s.reg k := by
  unfold State.recordKept
  dsimp only
  split
  · split <;> exact State.reg_incRf_other s _ hp
  · rw [reg_count hk, State.reg_setRf_other _ _ _ hp, setSram_reg]

theorem errRecord_corrected_reg (s : State) {e : ErrReport} (h : e.cls = .corrected) {k : Nat} (hk : ¬ HubKey k)
    (hp : k ≠ R.MGMT_EPTR (s.steward e.unit)) : (s.errRecord e).reg k = s.reg k := by
  rw [errRecord_corrected s h, reg_ringSrc hk, recordKept_reg s e hk hp]

/-- Stewards are few: their pointer registers lie apart from every unit's control block. -/
theorem steward_lt (s : State) (u : Nat) : s.steward u < 49 := by
  have hg : s.rf (R.PEER_CFG u) F.PEER_CFG_LGRP < 16 := getF_lt _ _
  unfold State.steward stewardOf
  split
  · omega
  · repeat' split
    all_goals omega

theorem not_hubKey_EPTR {n : Nat} (h : n < 49) : ¬ HubKey (R.MGMT_EPTR n) := by
  simp only [HubKey, R.MGMT_EPTR, R.DBH_STAT, R.DBH_SRC, ckey]
  omega

/-- PROD after a CORRECTED record: one more, or as it was when the ring is full. -/
theorem errRecord_corrected_prod (s : State) {e : ErrReport} (h : e.cls = .corrected) :
    let k := R.MGMT_EPTR (s.steward e.unit)
    let prod := s.rf k F.MGMT_EPTR_PROD
    (s.errRecord e).rf k F.MGMT_EPTR_PROD =
      if (prod + 65536 - s.rf k F.MGMT_EPTR_CONS) % 65536 == 64 then prod else (prod + 1) % 65536 := by
  have hk := not_hubKey_EPTR (steward_lt s e.unit)
  dsimp only
  rw [errRecord_corrected s h, State.rf_of_reg _ (reg_ringSrc hk _ _)]
  unfold State.recordKept
  dsimp only
  by_cases hf : (s.rf (R.MGMT_EPTR (s.steward e.unit)) F.MGMT_EPTR_PROD + 65536 - s.rf (R.MGMT_EPTR (s.steward e.unit)) F.MGMT_EPTR_CONS) % 65536 = 64
  · rw [if_pos hf, if_pos h, if_pos (beq_iff_eq.mpr hf)]
    exact State.rf_setRf_field s _ _ _ _ (by decide)
  · rw [if_neg hf, if_neg (by simpa using hf), State.rf_of_reg _ (reg_count hk _ _ _ _)]
    exact State.rf_setRf_same _ _ _ _ (by decide)

/-! Detectors (R283) -/

/-- What a detector lacks, or an offline unit, does nothing. -/
theorem detect_none {s : State} {u d : Nat} {cls : ErrClass} {inj : Bool} {addr : Option Nat} {syn : Word} {detail : List Byte}
    (h : unitExists u = false ∨ s.unitState u = 3 ∨ (detClasses u d).contains cls = false) : s.detect u d cls inj addr syn detail = s := by
  unfold State.detect
  refine if_pos ?_
  rcases h with h | h | h <;> simp only [h, Bool.not_false, Bool.true_or, Bool.or_true, beq_self_eq_true]

/-- The record of a CORRECTED event. -/
def correctedReport (u d : Nat) (addr : Option Nat) (syn : Word) (detail : List Byte) : ErrReport := ⟨u, d, .corrected, false, addr, syn, false, detail⟩

/-- The count of corrected ECC errors that a memory controller keeps. -/
def State.eccCounted (s : State) (u d : Nat) : State := if unitKind u = .memory ∧ d = 0 then s.count u 0x13 1 else s

theorem eccCounted_field {α : Type} (f : State → α) (hhub : ∀ s, f s.offHub = f s) (s : State) (u d : Nat) : f (s.eccCounted u d) = f s := by
  unfold State.eccCounted
  split
  · exact offHub_field f hhub (count_offHub s _ _ _)
  · rfl

theorem eccCounted_reg (s : State) (u d : Nat) {k : Nat} (hk : ¬ HubKey k) : (s.eccCounted u d).reg k = s.reg k := by
  unfold State.eccCounted
  split
  · exact reg_count hk s _ _ _
  · rfl

/-- Detector 4 of a core, which has no event of its own here, knows no corrected error. -/
theorem not_stopDetector {u d : Nat} (h : (detClasses u d).contains .corrected = true) : ¬ (u < 0x80 ∧ d = 4) := by
  rintro ⟨hu, rfl⟩
  simp only [detClasses, unitKind, hu, if_true] at h
  revert h
  decide

/-- A CORRECTED error strikes no data: it is counted and recorded. -/
theorem detect_corrected {s : State} {u d : Nat} (addr : Option Nat) (syn : Word) (detail : List Byte) (hu : unitExists u = true)
    (hs : s.unitState u ≠ 3) (hc : (detClasses u d).contains .corrected = true) :
    s.detect u d .corrected false addr syn detail = ((s.eccCounted u d).errRecord (correctedReport u d addr syn detail)).unblock := by
  have hd := not_stopDetector hc
  have hstop : (decide (u < 0x80) && d == 4) = false := by simpa using hd
  unfold State.detect
  rw [if_neg (by simp only [hu, hc, hstop, Bool.not_true, Bool.or_false, beq_eq_false_iff_ne.mpr hs, Bool.false_eq_true, not_false_eq_true]),
    if_neg (by simp)]
  simp only [Bool.false_eq_true, if_false, reduceCtorEq]
  split <;> rfl

/-- The steward of a unit is read from no register that counting writes. -/
theorem eccCounted_steward (s : State) (u d : Nat) : (s.eccCounted u d).steward u = s.steward u := by
  unfold State.steward
  split
  next hp =>
    have hcfg : ¬ HubKey (R.PEER_CFG u) := by
      simp only [HubKey, R.PEER_CFG, R.DBH_STAT, R.DBH_SRC, ckey]; omega
    rw [State.rf_of_reg _ (eccCounted_reg s u d hcfg)]
  next => rfl

/-- Counted and recorded, a CORRECTED event keeps what neither the hub nor the record ring holds. -/
theorem correctedEvent_field {α : Type} (f : State → α) (hhub : ∀ s, f s.offHub = f s) (hsram : ∀ (s : State) m, f { s with sram := m } = f s)
    (s : State) (u d : Nat) {e : ErrReport} (he : e.cls = .corrected) : f ((s.eccCounted u d).errRecord e) = f s :=
  (errRecord_corrected_field f hhub hsram _ he).trans (eccCounted_field f hhub s u d)

theorem correctedEvent_unitState (s : State) (u d : Nat) {e : ErrReport} (he : e.cls = .corrected) :
    ((s.eccCounted u d).errRecord e).unitState u = s.unitState u := by
  have hustat : ¬ HubKey (R.MGMT_USTAT u) := by
    simp only [HubKey, R.MGMT_USTAT, R.DBH_STAT, R.DBH_SRC, ckey]; omega
  have hne : R.MGMT_USTAT u ≠ R.MGMT_EPTR ((s.eccCounted u d).steward e.unit) := by
    have := steward_lt (s.eccCounted u d) e.unit
    simp only [R.MGMT_USTAT, R.MGMT_EPTR, ckey]; omega
  exact State.rf_of_reg _ ((errRecord_corrected_reg _ he hustat hne).trans (eccCounted_reg s u d hustat))

theorem correctedEvent_prod (s : State) (d : Nat) {e : ErrReport} (he : e.cls = .corrected) :
    let k := R.MGMT_EPTR (s.steward e.unit)
    let prod := s.rf k F.MGMT_EPTR_PROD
    ((s.eccCounted e.unit d).errRecord e).rf k F.MGMT_EPTR_PROD =
      if (prod + 65536 - s.rf k F.MGMT_EPTR_CONS) % 65536 == 64 then prod else (prod + 1) % 65536 := by
  have hk := not_hubKey_EPTR (steward_lt s e.unit)
  have h := errRecord_corrected_prod (s.eccCounted e.unit d) he
  dsimp only at h ⊢
  rwa [eccCounted_steward, State.rf_of_reg _ (eccCounted_reg s _ d hk), State.rf_of_reg _ (eccCounted_reg s _ d hk)] at h

/-- What a CORRECTED event leaves of the state, and its place in the ring. -/
theorem detect_corrected_spec {s : State} {u d : Nat} (addr : Option Nat) (syn : Word) (detail : List Byte) (hu : unitExists u = true)
    (hs : s.unitState u ≠ 3) (hc : (detClasses u d).contains .corrected = true) :
    let k := R.MGMT_EPTR (s.steward u)
    let prod := s.rf k F.MGMT_EPTR_PROD
    let full : Bool := (prod + 65536 - s.rf k F.MGMT_EPTR_CONS) % 65536 == 64
    let t := s.detect u d .corrected false addr syn detail
    t.mem = s.mem ∧ t.tags = s.tags ∧ t.poison = s.poison ∧ t.rf k F.MGMT_EPTR_PROD = (if full then prod else (prod + 1) % 65536) ∧
      t.mode = s.mode ∧ t.unitState u = s.unitState u := by
  have hcls : (correctedReport u d addr syn detail).cls = .corrected := rfl
  have hmem := correctedEvent_field State.mem (fun _ => rfl) (fun _ _ => rfl) s u d hcls
  have htags := correctedEvent_field State.tags (fun _ => rfl) (fun _ _ => rfl) s u d hcls
  have hpoison := correctedEvent_field State.poison (fun _ => rfl) (fun _ _ => rfl) s u d hcls
  have hmode := correctedEvent_field State.mode (fun _ => rfl) (fun _ _ => rfl) s u d hcls
  have hustat := correctedEvent_unitState s u d hcls
  have hprod := correctedEvent_prod s d hcls
  dsimp only
  rw [detect_corrected addr syn detail hu hs hc]
  rw [show (correctedReport u d addr syn detail).unit = u from rfl] at hprod
  generalize (s.eccCounted u d).errRecord (correctedReport u d addr syn detail) = t at *
  exact ⟨hmem, htags, hpoison, hprod, hmode, hustat⟩

/-! Injection (R445, R446) -/

/-- The word that arms an injection, and its fields. -/
theorem armWord_mode {m : Nat} (hm : m < 4) (severe : Bool) : getF (BitVec.ofNat 64 (m + 4 * b2n severe)) F.ERRINJ_CTL_MODE = m := by
  rw [getF_ofNat _ _ (by decide)]
  simp only [F.ERRINJ_CTL_MODE, Fld.width]
  omega

theorem armWord_kind {m : Nat} (hm : m < 4) (severe : Bool) : getF (BitVec.ofNat 64 (m + 4 * b2n severe)) F.ERRINJ_CTL_KIND = b2n severe := by
  rw [getF_ofNat _ _ (by decide)]
  have : b2n severe < 2 := by cases severe <;> decide
  simp only [F.ERRINJ_CTL_KIND, Fld.width]
  omega

/-- The modes that let detector d of unit u be armed, severely or not. -/
def State.mayArm (s : State) (u d : Nat) (severe : Bool) : Bool :=
  s.mode == .diagnostic || ((s.mode == .run || s.mode == .degraded) && !severe && (detClasses u d).contains .corrected)

/-- The event that a detector's injection had become due for, forgotten. -/
def State.injForget (s : State) (u d : Nat) : State := { s with injDue := s.injDue.erase (u, d) }

/-- An accepted arm: the injection as asked for, its first period running from now. -/
def State.armed (s : State) (u d m : Nat) (severe : Bool) : State :=
  let k := R.ERRINJ_CTL u d
  (((s.injForget u d).setRf k F.ERRINJ_CTL_MODE m).setRf k F.ERRINJ_CTL_KIND (b2n severe)).injStart u d

/-- A write that arms a detector which can be armed is accepted where its mode and severity allow it, and else changes nothing. -/
theorem injArm_eq {s : State} {u d m : Nat} (severe : Bool) (hm : m = 1 ∨ m = 2)
    (h : (unitExists u && !(detClasses u d).isEmpty && !(decide (u < 0x80) && d == 4)) = true) :
    s.injArm u d m severe = if s.mayArm u d severe = true then s.armed u d m severe else s := by
  simp only [Bool.and_eq_true, Bool.not_eq_true', Bool.and_eq_false_iff, decide_eq_false_iff_not, beq_eq_false_iff_ne] at h
  obtain ⟨⟨hu, hd⟩, hcore⟩ := h
  have hcore : ¬ (u < 0x80 ∧ d = 4) := fun ⟨h1, h2⟩ => hcore.elim (· h1) (· h2)
  have hmode : getF (BitVec.ofNat 64 (m + 4 * b2n severe)) F.ERRINJ_CTL_MODE = m := armWord_mode (by omega) severe
  have hkind : getF (BitVec.ofNat 64 (m + 4 * b2n severe)) F.ERRINJ_CTL_KIND = b2n severe := armWord_kind (by omega) severe
  unfold State.injArm
  rw [if_pos (by simp [hu, hd])]
  unfold State.injWrite
  dsimp only
  rw [hmode, hkind, if_neg hcore, if_neg (by omega : m ≠ 3)]
  by_cases hmay : s.mayArm u d severe = true
  · rw [if_pos hmay]
    simp only [State.mayArm, Bool.or_eq_true, Bool.and_eq_true, beq_iff_eq, Bool.not_eq_true'] at hmay
    rw [if_neg, if_pos]
    · rfl
    · rcases hmay with hd | ⟨⟨hr, rfl⟩, hl⟩
      · exact .inr (.inl hd)
      · exact .inr (.inr ⟨hr, rfl, hl⟩)
    · rcases hmay with hd | ⟨-, hl⟩
      · simp [State.injOpen, hd]
      · simp only [State.injOpen, detLive, hl, Bool.or_true, Bool.not_true, Bool.false_eq_true, not_false_eq_true]
  · rw [if_neg hmay]
    simp only [State.mayArm, Bool.or_eq_true, Bool.and_eq_true, beq_iff_eq, Bool.not_eq_true', not_or, not_and] at hmay
    obtain ⟨hnd, hno⟩ := hmay
    split
    · rfl
    · refine if_neg ?_
      rintro (h0 | hd | ⟨hr, hk, hl⟩)
      · omega
      · exact hnd hd
      · cases severe
        · exact hno ⟨hr, rfl⟩ hl
        · exact absurd hk (by decide)

theorem injForget_reg (s : State) (u d k : Nat) : (s.injForget u d).reg k = s.reg k := rfl
theorem injForget_time (s : State) (u d : Nat) : (s.injForget u d).time = s.time := rfl
theorem injStart_reg (s : State) (u d k : Nat) : (s.injStart u d).reg k = s.reg k := rfl
theorem injStart_next (s : State) (u d : Nat) :
    SMap.get zeroNat (s.injStart u d).injNext (R.ERRINJ_CTL u d) = s.time.toNat + s.injPeriod u d := SMap.get_set_same _ _ _

theorem armed_spec (s : State) (u d : Nat) {m : Nat} (severe : Bool) (hm : m < 4) :
    let k := R.ERRINJ_CTL u d
    let t := s.armed u d m severe
    t.rf k F.ERRINJ_CTL_MODE = m ∧ t.rf k F.ERRINJ_CTL_KIND = (if severe then 1 else 0) ∧
      SMap.get zeroNat t.injNext k = s.time.toNat + 1000 * max 1 (s.rf (R.ERRINJ_PER u d) F.ERRINJ_PER_PERIOD) ∧ ∀ key, key ≠ k → t.reg key = s.reg key := by
  have hper : R.ERRINJ_PER u d ≠ R.ERRINJ_CTL u d := by simp only [R.ERRINJ_PER, R.ERRINJ_CTL, ckey]; omega
  dsimp only
  unfold State.armed
  dsimp only
  refine ⟨?_, ?_, ?_, fun key h => ?_⟩
  · rw [State.rf_of_reg _ (injStart_reg _ _ _ _), State.rf_setRf_field _ _ _ _ _ (by decide), State.rf_setRf_same _ _ _ _ (by decide)]
    exact Nat.mod_eq_of_lt hm
  · rw [State.rf_of_reg _ (injStart_reg _ _ _ _), State.rf_setRf_same _ _ _ _ (by decide)]
    cases severe <;> rfl
  · rw [injStart_next, State.injPeriod, State.rf_setRf_other _ _ _ _ hper, State.rf_setRf_other _ _ _ _ hper, State.setRf_time, State.setRf_time,
      State.rf_of_reg _ (injForget_reg _ _ _ _), injForget_time]
  · rw [injStart_reg, State.reg_setRf_other _ _ _ h, State.reg_setRf_other _ _ _ h, injForget_reg]

/-! Counters and snapshots (R438–R440) -/

/-- A counter that is not at its end, or counts nothing listed, does not wrap. -/
theorem counterWrap_none {s : State} {u n : Nat} (h : evListed u n (s.rf (R.TEL_EVSEL u n) F.TEL_EVSEL_EVENT) = false ∨
    s.rf (R.TEL_EVSEL u n + 8) F.TEL_CTR_COUNT ≠ 2 ^ 48 - 1) : s.counterWrap u n = s := by
  unfold State.counterWrap
  refine if_pos ?_
  rcases h with h | h
  · simp only [h, Bool.not_false, Bool.or_true, Bool.true_or]
  · simp only [bne_iff_ne.mpr h, Bool.or_true]

/-- A counter at 2^48 − 1 wraps to 0. -/
theorem counterWrap_zero {s : State} {u n : Nat} (hn : n < 16) (hu : unitExists u = true)
    (he : evListed u n (s.rf (R.TEL_EVSEL u n) F.TEL_EVSEL_EVENT) = true) (hc : s.rf (R.TEL_EVSEL u n + 8) F.TEL_CTR_COUNT = 2 ^ 48 - 1)
    (hi : s.rf (R.TEL_EVSEL u n) F.TEL_EVSEL_OVFINT = 0) (h80 : 0x80 ≤ u) :
    (s.counterWrap u n).rf (R.TEL_EVSEL u n + 8) F.TEL_CTR_COUNT = 0 ∧ (s.counterWrap u n).mem = s.mem := by
  have h1 : s.counterWrap u n = s.countOne u (R.TEL_EVSEL u n) 1 := by
    unfold State.counterWrap
    rw [if_neg (by simp [hu, he, hc]), hi]
    simp
  have hk : R.TEL_EVSEL u n + 8 ≠ R.TEL_OVF u := by simp only [R.TEL_EVSEL, R.TEL_OVF, ckey]; omega
  have hu80 : ¬ u < 0x80 := by omega
  rw [h1]
  refine ⟨?_, offHub_field State.mem (fun _ => rfl) (countOne_offHub s _ _ _)⟩
  unfold State.countOne State.wrapped
  simp only [hc, hu80, decide_false, Bool.false_and, Bool.false_eq_true, if_false]
  rw [if_pos (by decide), State.rf_setReg_other _ _ _ hk, State.rf_setReg_same]
  decide

/-- A snapshot refused: nothing but RESULT. -/
theorem snapWrite_refused {s : State} (v : Word) (h : decide ((s.reg R.SNAP_AT).toNat < s.time.toNat + 2000) = true ∨ s.snapAt ≠ none) :
    s.snapWrite (setF v F.SNAP_CTL_GO 1) =
      s.setRf R.SNAP_CTL F.SNAP_CTL_RESULT (if decide ((s.reg R.SNAP_AT).toNat < s.time.toNat + 2000) = true then 1 else 2) := by
  have hgo : getF (setF v F.SNAP_CTL_GO 1) F.SNAP_CTL_GO = 1 := getF_setF_same v _ 1 (by decide)
  unfold State.snapWrite
  dsimp only
  rw [hgo, if_neg one_ne_zero]
  by_cases hs : (s.reg R.SNAP_AT).toNat < s.time.toNat + 2000
  · simp only [hs, decide_true, if_true]
  · have ha : s.snapAt.isSome = true := Option.isSome_iff_ne_none.mpr (h.resolve_left (by simpa using hs))
    simp only [hs, decide_false, if_false, ha, if_true, Bool.false_eq_true]

/-- A snapshot is armed at time `x`, or no longer armed. -/
def State.setSnap (s : State) (x : Option Word) : State := { s with snapAt := x }

theorem setSnap_reg (s : State) (x : Option Word) (k : Nat) : (s.setSnap x).reg k = s.reg k := rfl
theorem setSnap_snapAt (s : State) (x : Option Word) : (s.setSnap x).snapAt = x := rfl
theorem setSnap_mem (s : State) (x : Option Word) : (s.setSnap x).mem = s.mem := rfl
theorem setSnap_cores (s : State) (x : Option Word) : (s.setSnap x).cores = s.cores := rfl

/-- What an accepted arm writes. -/
theorem snapWrite_eq {s : State} (v : Word) (hgo : getF v F.SNAP_CTL_GO ≠ 0) (hs : s.time.toNat + 2000 ≤ (s.reg R.SNAP_AT).toNat)
    (ha : s.snapAt = none) : s.snapWrite v =
      ((((s.setRf R.SNAP_CTL F.SNAP_CTL_ID (getF v F.SNAP_CTL_ID)).setRf R.SNAP_CTL F.SNAP_CTL_DBSRC (getF v F.SNAP_CTL_DBSRC)).setRf
        R.SNAP_CTL F.SNAP_CTL_RESULT 0).setReg R.SNAP_DONE (BitVec.ofNat 64 (getF v F.SNAP_CTL_ID))).setSnap (some (s.reg R.SNAP_AT)) := by
  unfold State.snapWrite
  dsimp only
  rw [if_neg hgo, if_neg (by omega), if_neg (by simp [ha])]
  rfl

/-- A snapshot armed. -/
theorem snapWrite_armed {s : State} (v : Word) (hs : decide ((s.reg R.SNAP_AT).toNat < s.time.toNat + 2000) = false) (ha : s.snapAt = none) :
    let t := s.snapWrite (setF v F.SNAP_CTL_GO 1)
    t.snapAt = some (s.reg R.SNAP_AT) ∧ t.rf R.SNAP_CTL F.SNAP_CTL_ID = getF v F.SNAP_CTL_ID ∧
      t.rf R.SNAP_CTL F.SNAP_CTL_DBSRC = getF v F.SNAP_CTL_DBSRC ∧ t.rf R.SNAP_CTL F.SNAP_CTL_RESULT = 0 ∧
      t.rf R.SNAP_DONE F.SNAP_DONE_ID = getF v F.SNAP_CTL_ID ∧ t.rf R.SNAP_DONE F.SNAP_DONE_DONE = 0 := by
  have hgo : getF (setF v F.SNAP_CTL_GO 1) F.SNAP_CTL_GO = 1 := getF_setF_same v _ 1 (by decide)
  have hid : getF (setF v F.SNAP_CTL_GO 1) F.SNAP_CTL_ID = getF v F.SNAP_CTL_ID := getF_setF_other v _ _ 1 (by decide)
  have hdb : getF (setF v F.SNAP_CTL_GO 1) F.SNAP_CTL_DBSRC = getF v F.SNAP_CTL_DBSRC := getF_setF_other v _ _ 1 (by decide)
  have hlt : getF v F.SNAP_CTL_ID < 2 ^ 16 := getF_lt v _
  have hlt' : getF v F.SNAP_CTL_DBSRC < 2 ^ 16 := getF_lt v _
  have hkey : R.SNAP_CTL ≠ R.SNAP_DONE := by decide
  dsimp only
  rw [snapWrite_eq _ (by rw [hgo]; decide) (by simpa using hs) ha, hid, hdb]
  simp only [State.rf_of_reg _ (setSnap_reg _ _ _), State.rf_setReg_other _ _ _ hkey, State.rf_setReg_same]
  refine ⟨setSnap_snapAt _ _, ?_, ?_, ?_, ?_, ?_⟩
  · rw [State.rf_setRf_field _ _ _ _ _ (by decide), State.rf_setRf_field _ _ _ _ _ (by decide), State.rf_setRf_same _ _ _ _ (by decide)]
    exact Nat.mod_eq_of_lt hlt
  · rw [State.rf_setRf_field _ _ _ _ _ (by decide), State.rf_setRf_same _ _ _ _ (by decide)]
    exact Nat.mod_eq_of_lt hlt'
  · exact State.rf_setRf_same _ _ _ _ (by decide)
  · rw [getF_ofNat _ _ (by decide)]
    simp only [F.SNAP_DONE_ID, Fld.width]
    omega
  · rw [getF_ofNat _ _ (by decide)]
    simp only [F.SNAP_DONE_DONE, Fld.width]
    omega

theorem latchUnit_field {α : Type} (f : State → α) (hf : ∀ s, f s.offHub = f s) (s : State) (id u : Nat) : f (s.latchUnit id u) = f s :=
  (offHub_field f hf (setRf_offHub _ _ _ _)).trans (foldl_keeps f _ (fun t _ => offHub_field f hf (setReg_offHub t _ _)) _ s)

/-- The listed units latch, and `missed` is the count of those that do not. -/
def State.snapLatched (s : State) (us : List Nat) (missed : Nat) : State :=
  let k := R.SNAP_DONE
  ((us.foldl (fun (t : State) u => t.latchUnit (s.rf k F.SNAP_DONE_ID) u) s).setRf k F.SNAP_DONE_MISSED missed).setRf k F.SNAP_DONE_DONE 1

theorem snapLatched_field {α : Type} (f : State → α) (hf : ∀ s, f s.offHub = f s) (s : State) (us : List Nat) (missed : Nat) :
    f (s.snapLatched us missed) = f s := by
  unfold State.snapLatched
  dsimp only
  rw [offHub_field f hf (setRf_offHub _ _ _ _), offHub_field f hf (setRf_offHub _ _ _ _)]
  exact foldl_keeps f _ (fun t u => latchUnit_field f hf t _ u) us s

theorem snapLatched_done (s : State) (us : List Nat) (missed : Nat) : (s.snapLatched us missed).rf R.SNAP_DONE F.SNAP_DONE_DONE = 1 :=
  State.rf_setRf_same _ _ _ _ (by decide)

theorem snapLatch_early {s : State} (h : s.snapAt = none ∨ ∃ x, s.snapAt = some x ∧ s.time.toNat < x.toNat) : s.snapLatch = s := by
  unfold State.snapLatch
  rcases h with h | ⟨x, h, hx⟩
  · rw [h]
  · rw [h]
    exact if_pos hx

/-- A snapshot that is due latches, rings and is no longer armed. -/
theorem snapLatch_due {s : State} {x : Word} (h : s.snapAt = some x) (hx : x.toNat ≤ s.time.toNat) :
    ∃ us m n, s.snapLatch = ((s.snapLatched us m).setSnap none).ringSrc n := by
  unfold State.snapLatch
  rw [h]
  exact ⟨allUnits.filter s.latches, _, _, if_neg (by omega)⟩

theorem snapLatch_spec {s : State} {x : Word} (h : s.snapAt = some x) (hx : x.toNat ≤ s.time.toNat) :
    s.snapLatch.snapAt = none ∧ s.snapLatch.rf R.SNAP_DONE F.SNAP_DONE_DONE = 1 ∧ s.snapLatch.mem = s.mem ∧ s.snapLatch.cores = s.cores := by
  obtain ⟨us, m, n, hn⟩ := snapLatch_due h hx
  have hring := ringSrc_offHub ((s.snapLatched us m).setSnap none) n
  have hkey : ¬ HubKey R.SNAP_DONE := by decide
  rw [hn, State.rf_of_reg _ (reg_ringSrc hkey _ _), State.rf_of_reg _ (setSnap_reg _ _ _), offHub_field State.snapAt (fun _ => rfl) hring,
    offHub_field State.mem (fun _ => rfl) hring, offHub_field State.cores (fun _ => rfl) hring, setSnap_snapAt, setSnap_mem, setSnap_cores,
    snapLatched_field State.mem (fun _ => rfl), snapLatched_field State.cores (fun _ => rfl)]
  exact ⟨rfl, snapLatched_done s us m, rfl, rfl⟩

/-! Settled -/

/-- An arm of either kind, as a command. -/
theorem exec_arm {p : (Nat → Nat → Bool → Instr) × Nat} (hp : p ∈ ([(Instr.errinjOneshot, 1), (Instr.errinjPeriodic, 2)] : List ((Nat → Nat → Bool → Instr) × Nat)))
    {s : State} (h : s.inReset = false) (u d : Nat) (severe : Bool) :
    (p.2 = 1 ∨ p.2 = 2) ∧ exec (p.1 u d severe) s = .next (s.injArm u d p.2 severe) := by
  rcases List.mem_pair.mp hp with rfl | rfl
  · exact ⟨.inl rfl, alive_of_live h _⟩
  · exact ⟨.inr rfl, alive_of_live h _⟩

/-- Settles O49, each clause by the lemma about its operation. -/
theorem errorAndInjectionResult : Obligations.ErrorAndInjectionResult := by
  intro s hr
  refine ⟨?_, ?_, ?_, ?_, ?_, ?_, ?_⟩
  · intro u d sev addr syn detail
    rw [exec_errorDetect, execErrorDetect, alive_of_live hr]
    refine ⟨fun h => congrArg _ (detect_none h), fun hu hs hc hsev _ => ?_⟩
    subst hsev
    exact ⟨_, rfl, detect_corrected_spec addr syn detail hu hs hc⟩
  · intro p hp u d severe
    obtain ⟨hm, he⟩ := exec_arm hp hr u d severe
    refine ⟨fun hhas hmay => ⟨_, he.trans ?_, armed_spec s u d (m := p.2) severe (by omega)⟩, fun hhas hmay => he.trans ?_⟩
    · rw [injArm_eq severe hm hhas]
      exact congrArg _ (if_pos hmay)
    · rw [injArm_eq severe hm hhas]
      exact congrArg _ (if_neg (Bool.eq_false_iff.mp hmay))
  · intro u d
    rw [exec_errinjPeriodExpiry, execErrinjPeriodExpiry, alive_of_live hr]
    exact ⟨fun hm hd => congrArg _ (if_pos ⟨hm, hd⟩), fun h => congrArg _ (if_neg fun ⟨hm, hd⟩ => h.elim (· hm) (by omega))⟩
  · intro u n
    rw [exec_telCounterWrap, execTelCounterWrap, alive_of_live hr]
    exact ⟨fun h => congrArg _ (counterWrap_none h),
      fun hu he hc hi h80 => ⟨_, rfl, counterWrap_zero n.isLt hu he hc hi h80⟩⟩
  · intro v
    rw [exec_snapshotArm, execSnapshotArm, alive_of_live hr]
    exact ⟨fun h => congrArg _ (snapWrite_refused v h), fun hs ha => ⟨_, rfl, snapWrite_armed v hs ha⟩⟩
  · intro h
    rw [exec_snapshotLatch, execSnapshotLatch, alive_of_live hr, snapLatch_early h]
  · intro x h hx
    rw [exec_snapshotLatch, execSnapshotLatch, alive_of_live hr]
    exact ⟨_, rfl, snapLatch_spec h hx⟩

end Sys2Proof.Machine

namespace Sys2Proof.Machine

/-! What writes of local memory, and the purse writes they start or finish, cannot change -/

/-- The state with everything that a write of local memory may change taken out, the cores replaced by `cs`; counting and the debug result
aside. -/
def State.offWrite (cs : Vector CoreState 128) (s : State) : State :=
  { s with mem := [], tags := [], poison := [], back := [], dirty := [], dramBad := [], l2dir := [], l2s := [], cores := cs,
           purseDir := [], purseWrs := [], purseDone := [], nextId := 0, answer := ⟨0, []⟩, peerOut := [] }

/-- A reading of the state that writes of local memory leave as it is. -/
structure WriteFrame {α : Type} (f : State → α) : Prop where
  off : ∀ {s t : State}, (∀ cs, t.offWrite cs = s.offWrite cs) → f t = f s
  count : ∀ (s : State) (u ev n : Nat), f (s.count u ev n) = f s
  debug : ∀ (s : State) (n : Nat), f (s.setRf R.DBG_MCTL F.DBG_MCTL_RESULT n) = f s

theorem offWrite_field {α : Type} {f : State → α} (hf : ∀ s cs, f (State.offWrite cs s) = f s) {s t : State}
    (h : ∀ cs, t.offWrite cs = s.offWrite cs) : f t = f s := by
  rw [← hf t s.cores, h, hf]

theorem WriteFrame.of_field {α : Type} {f : State → α} (hw : ∀ s cs, f (State.offWrite cs s) = f s) (hh : ∀ s, f s.offHub = f s) : WriteFrame f where
  off := offWrite_field hw
  count := fun s u ev n => offHub_field f hh (count_offHub s u ev n)
  debug := fun s _ => offHub_field f hh (setRf_offHub s _ _ _)

theorem WriteFrame.of_reg {k : Nat} (hk : ¬ HubKey k) (hd : k ≠ R.DBG_MCTL) : WriteFrame (fun s => s.reg k) where
  off := offWrite_field (f := fun s => s.reg k) fun _ _ => rfl
  count := fun s u ev n => reg_count hk s u ev n
  debug := fun s _ => State.reg_setRf_other s _ _ hd

section
variable {cs : Vector CoreState 128}

@[simp] theorem setMemB_offWrite (s : State) (a : Nat) (b : Byte) : (s.setMemB a b).offWrite cs = s.offWrite cs := (rfl)
@[simp] theorem setTag_offWrite (s : State) (a : Nat) (t : Bool) : (s.setTag a t).offWrite cs = s.offWrite cs := (rfl)
@[simp] theorem setPoison_offWrite (s : State) (a : Nat) (p : Bool) : (s.setPoison a p).offWrite cs = s.offWrite cs := (rfl)
@[simp] theorem setDirty_offWrite (s : State) (a : Nat) (d : Bool) : (s.setDirty a d).offWrite cs = s.offWrite cs := (rfl)
@[simp] theorem setClusters_offWrite (s : State) (a : Nat) (h : Holders) : (s.setClusters a h).offWrite cs = s.offWrite cs := (rfl)
@[simp] theorem setDir_offWrite (s : State) (i : Nat) (v : BitVec 16) : (s.setDir i v).offWrite cs = s.offWrite cs := (rfl)
@[simp] theorem purseDir_offWrite (s : State) (d : SMap (BitVec 16)) : State.offWrite cs { s with purseDir := d } = s.offWrite cs := (rfl)
@[simp] theorem cores_offWrite (s : State) (v : Vector CoreState 128) : State.offWrite cs { s with cores := v } = s.offWrite cs := (rfl)
@[simp] theorem eachCore_offWrite (s : State) (f : CoreId → CoreState → CoreState) : (s.eachCore f).offWrite cs = s.offWrite cs := cores_offWrite s _
@[simp] theorem dramBad_offWrite (s : State) (l : List Nat) : State.offWrite cs { s with dramBad := l } = s.offWrite cs := (rfl)

@[simp] theorem send_offWrite (s : State) (m : PeerMsg) : (s.send m).offWrite cs = s.offWrite cs := (rfl)
@[simp] theorem purse_offWrite (s : State) (ws : List PurseWr) (ds : List PurseDone) :
    State.offWrite cs { s with purseWrs := ws, purseDone := ds } = s.offWrite cs := (rfl)

@[simp] theorem copyBack_offWrite (s : State) (a n : Nat) : (s.copyBack a n).offWrite cs = s.offWrite cs := by
  induction n generalizing s a with
  | zero => rfl
  | succ n ih => exact (ih _ _).trans rfl

@[simp] theorem writeBack_offWrite (s : State) (a : Nat) : (s.writeBack a).offWrite cs = s.offWrite cs := by
  unfold State.writeBack
  dsimp only
  exact (dramBad_offWrite _ _).trans ((setDirty_offWrite _ _ _).trans (copyBack_offWrite s _ _))

@[simp] theorem poisonLine_offWrite (s : State) (a : Nat) : (s.poisonLine a).offWrite cs = s.offWrite cs :=
  (setPoison_offWrite _ _ _).trans (eachCore_offWrite s _)

@[simp] theorem purseDrop_offWrite (s : State) (is : List Nat) (n : Nat) : (s.purseDrop is n).offWrite cs = s.offWrite cs := by
  unfold State.purseDrop
  dsimp only
  exact (foldl_keeps (State.offWrite cs) _ (fun t i => setDir_offWrite t i _) _ _).trans (eachCore_offWrite s _)

@[simp] theorem purseInval_offWrite (s : State) (id n : Nat) : (s.purseInval id n).offWrite cs = s.offWrite cs := by
  unfold State.purseInval
  split
  · exact purseDrop_offWrite s _ _
  · split
    · exact purseDrop_offWrite s _ _
    · rfl

end

section
variable {α : Type} {f : State → α} (hf : WriteFrame f)
include hf

theorem signal_frame (s : State) (a : PurseSignal) : f (s.signal a) = f s := by
  cases a with
  | answer n d => exact hf.off fun _ => rfl
  | debug n => exact hf.debug s n
  | peer m => exact hf.off fun _ => rfl

theorem purseCompleted_frame (s : State) (id : Nat) : f (s.purseCompleted id) = f s := by
  unfold State.purseCompleted
  dsimp only
  exact (foldl_keeps f _ (fun t d => signal_frame hf t (PurseDone.act d)) _ _).trans
    (hf.off fun _ => ((purse_offWrite _ _ _).trans (eachCore_offWrite s _)))

theorem purseAck_frame (s : State) (id n : Nat) : f (s.purseAck id n) = f s := by
  unfold State.purseAck
  dsimp only
  split
  · exact (purseCompleted_frame hf _ id).trans (hf.off fun _ => rfl)
  · exact hf.off fun _ => rfl

theorem finishPurseWr_frame (s : State) (id : Nat) : f (s.finishPurseWr id) = f s :=
  foldl_keeps f _ (fun t n => (purseAck_frame hf _ id n).trans (hf.off fun _ => purseInval_offWrite t id n)) _ s

theorem finishSince_frame (s : State) (n : Nat) : f (s.finishSince n) = f s :=
  foldl_keeps f _ (fun t i => finishPurseWr_frame hf t i) _ s

theorem finishLine_frame (s : State) (a : Nat) : f (s.finishLine a) = f s :=
  foldl_keeps f _ (fun t i => finishPurseWr_frame hf t i) _ s

theorem startPurseWr_frame (s : State) (is : List Nat) (core : Option Nat) : f (s.startPurseWr is core) = f s := by
  unfold State.startPurseWr
  dsimp only
  split
  · rfl
  · exact (hf.count _ _ _ _).trans (hf.off fun _ => rfl)

theorem localWrite_frame (s : State) (a : Nat) (bs : List Byte) (tr : TagRule) (cached : Bool) (core : Option Nat) :
    f (s.localWrite a bs tr cached core).s = f s := by
  unfold State.localWrite
  dsimp only
  refine (startPurseWr_frame hf _ _ core).trans (hf.off fun cs => ?_)
  refine (foldl_keeps (State.offWrite cs) _ (fun t l => ?_) _ _).trans ((foldl_keeps (State.offWrite cs) _ (fun t g => ?_) _ _).trans
    (foldl_keeps (State.offWrite cs) _ (fun t j => ?_) _ _))
  · simp only [apply_ite (State.offWrite cs), setDirty_offWrite, copyBack_offWrite, setClusters_offWrite, dramBad_offWrite, setPoison_offWrite, ite_self]
  · split <;> rfl
  · split <;> rfl

theorem settledWrite_frame (s : State) (a : Nat) (bs : List Byte) (cached : Bool) : f (s.settledWrite a bs cached).s = f s := by
  unfold State.settledWrite
  dsimp only
  exact (finishSince_frame hf _ _).trans ((localWrite_frame hf _ _ _ _ _ _).trans
    (foldl_keeps f _ (fun t l => finishLine_frame hf t l) _ s))

theorem physWrite_frame (s : State) (pa : Nat) (bs : List Byte) : f (s.physWrite pa bs).s = f s := by
  unfold State.physWrite
  split
  · exact settledWrite_frame hf s _ _ _
  · rfl

theorem ringWrite_frame (hstat : ∀ (s : State) n v, f (s.setReg (R.TLR_JSTAT (tu n)) v) = f s) (s : State) (n base size off : Nat)
    (bs : List Byte) : f (s.ringWrite n base size off bs) = f s := by
  have hone (t : State) (pa : Nat) (bs : List Byte) : f (t.physWrite pa bs).s = f t := physWrite_frame hf t pa bs
  unfold State.ringWrite
  dsimp only
  split
  next =>
    split
    · exact (hstat _ _ _).trans (hone s _ _)
    · exact hone s _ _
  next =>
    split
    · exact (hstat _ _ _).trans ((hone _ _ _).trans (hone s _ _))
    · exact (hone _ _ _).trans (hone s _ _)

end
end Sys2Proof.Machine

namespace Sys2Proof.Machine

/-! Mode requests (R426) -/

theorem modeResult_res (s : State) {n : Nat} (h : n < 16) : (s.modeResult n).rf R.MGMT_MODE F.MGMT_MODE_RESULT = n :=
  (State.rf_setRf_same _ _ _ _ (by decide)).trans (Nat.mod_eq_of_lt h)

theorem modeResult_mode (s : State) (n : Nat) : (s.modeResult n).mode = s.mode := rfl

/-- MGMT_MODE with CHG taken from the request. -/
def State.modeChg (s : State) (chg : Nat) : State := s.setRf R.MGMT_MODE F.MGMT_MODE_CHG chg

theorem modeChg_mode (s : State) (chg : Nat) : (s.modeChg chg).mode = s.mode := rfl
theorem modeChg_busy (s : State) (chg : Nat) : (s.modeChg chg).rf R.MGMT_MODE F.MGMT_MODE_BUSY = s.rf R.MGMT_MODE F.MGMT_MODE_BUSY :=
  State.rf_setRf_field _ _ _ _ _ (by decide)

/-- The mode register's word for a request, and its fields. -/
theorem modeWord_req {req chg : Nat} (hr : req < 8) : getF (BitVec.ofNat 64 (req * 16 + chg * 256)) F.MGMT_MODE_REQ = req := by
  rw [getF_ofNat _ _ (by decide)]
  simp only [F.MGMT_MODE_REQ, Fld.width]
  omega

theorem modeWord_chg {req chg : Nat} (hr : req < 8) (hc : chg < 4) : getF (BitVec.ofNat 64 (req * 16 + chg * 256)) F.MGMT_MODE_CHG = chg := by
  rw [getF_ofNat _ _ (by decide)]
  simp only [F.MGMT_MODE_CHG, Fld.width]
  omega

/-- The state with brumation `b` under way. -/
def State.withBrum (s : State) (b : Option Brumation) : State := { s with brum := b }

theorem withBrum_reg (s : State) (b : Option Brumation) (k : Nat) : (s.withBrum b).reg k = s.reg k := rfl
theorem withBrum_brum (s : State) (b : Option Brumation) : (s.withBrum b).brum = b := rfl
theorem withBrum_mode (s : State) (b : Option Brumation) : (s.withBrum b).mode = s.mode := rfl

/-- An accepted request for a brumation. -/
def State.brumAsked (s : State) (chg : Nat) : State :=
  ((s.modeChg chg).setRf R.MGMT_MODE F.MGMT_MODE_BUSY 1).withBrum (some (Brumation.asked chg))

/-- Every answer to a mode request. -/
theorem modeAsk_eq (s : State) {req chg : Nat} (h0 : req ≠ 0) (hr : req < 8) (hc : chg < 4) :
    s.modeAsk req chg =
      if s.rf R.MGMT_MODE F.MGMT_MODE_BUSY = 1 then (s.modeChg chg).modeResult 2
      else if req = 3 ∧ (s.mode = .run ∨ s.mode = .degraded) ∧ chg ≠ 0 then s.brumAsked chg
      else if req = 4 ∧ (s.mode = .run ∨ s.mode = .degraded) then ((s.modeChg chg).setMode .diagnostic).modeResult 0
      else if req = 1 ∧ s.mode = .diagnostic then ((s.modeChg chg).disarmSevere.setMode (s.modeChg chg).runMode).modeResult 0
      else (s.modeChg chg).modeResult 1 := by
  unfold State.modeAsk State.modeWrite
  rw [modeWord_req hr, modeWord_chg hr hc]
  dsimp only
  rw [if_neg h0, ← modeChg_busy s chg]
  rfl

theorem modeAsk_busy {s : State} {req chg : Nat} (h0 : req ≠ 0) (hr : req < 8) (hc : chg < 4) (hb : s.rf R.MGMT_MODE F.MGMT_MODE_BUSY = 1) :
    (s.modeAsk req chg).rf R.MGMT_MODE F.MGMT_MODE_RESULT = 2 ∧ (s.modeAsk req chg).mode = s.mode ∧ (s.modeAsk req chg).brum = s.brum := by
  rw [modeAsk_eq s h0 hr hc, if_pos hb]
  exact ⟨modeResult_res _ (by decide), rfl, rfl⟩

theorem modeAsk_refused {s : State} {req chg : Nat} (h0 : req ≠ 0) (hr : req < 8) (hc : chg < 4) (hb : s.rf R.MGMT_MODE F.MGMT_MODE_BUSY ≠ 1)
    (h3 : ¬ (req = 3 ∧ (s.mode = .run ∨ s.mode = .degraded) ∧ chg ≠ 0)) (h4 : ¬ (req = 4 ∧ (s.mode = .run ∨ s.mode = .degraded)))
    (h1 : ¬ (req = 1 ∧ s.mode = .diagnostic)) :
    (s.modeAsk req chg).rf R.MGMT_MODE F.MGMT_MODE_RESULT = 1 ∧ (s.modeAsk req chg).mode = s.mode ∧ (s.modeAsk req chg).brum = s.brum := by
  rw [modeAsk_eq s h0 hr hc, if_neg hb, if_neg h3, if_neg h4, if_neg h1]
  exact ⟨modeResult_res _ (by decide), rfl, rfl⟩

theorem brumAsked_spec (s : State) {chg : Nat} (hc : chg < 4) :
    (s.brumAsked chg).rf R.MGMT_MODE F.MGMT_MODE_BUSY = 1 ∧ (s.brumAsked chg).rf R.MGMT_MODE F.MGMT_MODE_CHG = chg ∧
      (s.brumAsked chg).mode = s.mode ∧ ∃ b, (s.brumAsked chg).brum = some b ∧ b.chg = chg := by
  unfold State.brumAsked
  rw [State.rf_of_reg _ (withBrum_reg _ _ _), State.rf_of_reg _ (withBrum_reg _ _ _), withBrum_mode, withBrum_brum,
    State.rf_setRf_same _ _ _ _ (by decide), State.rf_setRf_field _ _ _ _ _ (by decide), State.setRf_mode, modeChg_mode, State.modeChg,
    State.rf_setRf_same _ _ _ _ (by decide)]
  exact ⟨rfl, Nat.mod_eq_of_lt hc, rfl, _, rfl, rfl⟩

theorem runMode_cases (s : State) : s.runMode = .run ∨ s.runMode = .degraded := by
  unfold State.runMode
  split
  · exact .inr rfl
  · exact .inl rfl

/-! The end of a brumation (R427, R428) -/

theorem brumEnd_spec (s : State) {res : Nat} (h : res < 16) :
    (s.brumEnd res).brum = none ∧ (s.brumEnd res).mode = s.mode ∧ (s.brumEnd res).rf R.MGMT_MODE F.MGMT_MODE_RESULT = res ∧
      (s.brumEnd res).rf R.MGMT_MODE F.MGMT_MODE_BUSY = 0 ∧ (s.brumEnd res).mem = s.mem ∧ (s.brumEnd res).seq = s.seq := by
  refine ⟨rfl, rfl, ?_, ?_, rfl, rfl⟩
  · exact modeResult_res _ h
  · refine (State.rf_setRf_field (s.setRf R.MGMT_MODE F.MGMT_MODE_BUSY 0) _ _ _ _ (by decide)).trans ?_
    exact State.rf_setRf_same _ _ _ _ (by decide)

/-- A reading of the state that mirror writes and the start of flushes leave as it is. -/
structure MirrorFrame {α : Type} (f : State → α) : Prop extends WriteFrame f where
  jstat : ∀ (s : State) n v, f (s.setReg (R.TLR_JSTAT (tu n)) v) = f s
  jmhead : ∀ (s : State) n v, f (s.setReg (R.TLR_JMHEAD (tu n)) v) = f s
  staging : ∀ (s : State) l, f { s with staging := l } = f s
  flushes : ∀ (s : State) d l, f { s with jDirty := d, flushes := l } = f s

section
variable {α : Type} {f : State → α} (hf : MirrorFrame f)
include hf

theorem putMirror_frame (s : State) (n : Nat) (r : JRec) : f (s.putMirror n r) = f s := by
  have hring := ringWrite_frame hf.toWriteFrame hf.jstat s n (s.jmBase n) (s.jmSize n) (s.reg (R.TLR_JMHEAD (tu n))).toNat r.bytes
  unfold State.putMirror
  dsimp only
  generalize s.ringWrite n (s.jmBase n) (s.jmSize n) (s.reg (R.TLR_JMHEAD (tu n))).toNat r.bytes = t at hring ⊢
  have hhead := (hf.jmhead t n (BitVec.ofNat 64 ((s.reg (R.TLR_JMHEAD (tu n))).toNat + r.len))).trans hring
  generalize t.setReg (R.TLR_JMHEAD (tu n)) (BitVec.ofNat 64 ((s.reg (R.TLR_JMHEAD (tu n))).toNat + r.len)) = u at hhead ⊢
  have hrest := (hf.staging u (u.staging.erase r)).trans hhead
  split
  · split
    · exact (hf.off fun _ => send_offWrite _ _).trans hrest
    · exact hrest
  · exact hrest

theorem writeMirror_frame (s : State) (n : Nat) : f (s.writeMirror n) = f s := by
  unfold State.writeMirror
  split
  · rfl
  · refine foldl_keeps f _ (fun t _ => ?_) _ s
    split
    · exact putMirror_frame hf t n _
    · rfl

theorem startFlushes_frame (s : State) : f s.startFlushes = f s := by
  refine foldl_keeps f _ (fun t key => ?_) _ s
  unfold State.startFlush
  dsimp only
  split
  · rfl
  · split
    · rfl
    · exact hf.flushes _ _ _

end

theorem startFlushes_field {α : Type} (f : State → α) (hfl : ∀ (s : State) d l, f { s with jDirty := d, flushes := l } = f s) (s : State) :
    f s.startFlushes = f s := by
  refine foldl_keeps f _ (fun t key => ?_) _ s
  unfold State.startFlush
  dsimp only
  split
  · rfl
  · split
    · rfl
    · exact hfl _ _ _

end Sys2Proof.Machine

namespace Sys2Proof.Machine

/-! Leaving BRUMATION -/

theorem MirrorFrame.of_field {α : Type} {f : State → α} (hw : ∀ s cs, f (State.offWrite cs s) = f s) (hh : ∀ s, f s.offHub = f s)
    (hs : ∀ (s : State) l, f { s with staging := l } = f s) (hl : ∀ (s : State) d l, f { s with jDirty := d, flushes := l } = f s) :
    MirrorFrame f where
  toWriteFrame := .of_field hw hh
  jstat := fun s _ _ => offHub_field f hh (setReg_offHub s _ _)
  jmhead := fun s _ _ => offHub_field f hh (setReg_offHub s _ _)
  staging := hs
  flushes := hl

theorem mirrorFrame_mode : MirrorFrame State.mode := .of_field (fun _ _ => rfl) (fun _ => rfl) (fun _ _ => rfl) (fun _ _ _ => rfl)

theorem mirrorFrame_brum : MirrorFrame State.brum := .of_field (fun _ _ => rfl) (fun _ => rfl) (fun _ _ => rfl) (fun _ _ _ => rfl)

theorem mirrorFrame_MGMT_MODE : MirrorFrame (fun s => s.reg R.MGMT_MODE) where
  toWriteFrame := .of_reg (by decide) (by decide)
  jstat := fun s n v => State.reg_setReg_other s v (by simp only [R.MGMT_MODE, R.TLR_JSTAT, ckey, tu]; omega)
  jmhead := fun s n v => State.reg_setReg_other s v (by simp only [R.MGMT_MODE, R.TLR_JMHEAD, ckey, tu]; omega)
  staging := fun _ _ => rfl
  flushes := fun _ _ _ => rfl

/-- What goes on when a brumation has ended: mirror records, and the flushes that are due. -/
def State.journalsGoOn (s : State) : State := ((List.range 16).foldl (fun s n => s.writeMirror n) s).startFlushes

theorem journalsGoOn_frame {α : Type} {f : State → α} (hf : MirrorFrame f) (s : State) : f s.journalsGoOn = f s :=
  (startFlushes_frame hf _).trans (foldl_keeps f _ (fun t n => writeMirror_frame hf t n) _ s)

/-- With no mirror record staged, none is written. -/
theorem writeMirror_none {s : State} (h : ∀ r ∈ s.staging, r.mirrorOf = none) (n : Nat) : s.writeMirror n = s := by
  have hn : s.nextMirror n = none := by
    unfold State.nextMirror
    split
    · rfl
    · rw [List.find?_eq_none.mpr fun r hr => by simp [h r hr]]
  unfold State.writeMirror
  split
  · rfl
  · exact List.foldl_fixed' (fun _ => by rw [hn]) _

theorem journalsGoOn_quiet {s : State} (h : ∀ r ∈ s.staging, r.mirrorOf = none) : s.journalsGoOn = s.startFlushes :=
  congrArg State.startFlushes (List.foldl_fixed' (writeMirror_none h) _)

/-- Leaving BRUMATION with nothing held. -/
theorem leaveBrumation_eq {s : State} (h : s.held = []) (res : Nat) :
    s.leaveBrumation res = ((s.brumEnd res).setMode s.runMode).journalsGoOn := by
  have hheld : ((s.brumEnd res).setMode s.runMode).held = [] :=
    (setMode_field State.held (fun _ => rfl) (fun _ _ => rfl) _ _).trans h
  unfold State.leaveBrumation
  rw [releaseHeld_nil hheld]
  rfl

theorem leaveBrumation_spec {s : State} (h : s.held = []) {res : Nat} (hres : res < 16) :
    let t := s.leaveBrumation res
    t.brum = none ∧ (t.mode = .run ∨ t.mode = .degraded) ∧ t.rf R.MGMT_MODE F.MGMT_MODE_RESULT = res ∧
      ((∀ r ∈ s.staging, r.mirrorOf = none) → t.mem = s.mem ∧ t.seq = s.seq) := by
  obtain ⟨hb, -, hr, -, hm, hq⟩ := brumEnd_spec s hres
  have hstaging : (s.brumEnd res).staging = s.staging := rfl
  dsimp only
  rw [leaveBrumation_eq h]
  generalize s.brumEnd res = u at *
  refine ⟨?_, ?_, ?_, fun hs => ?_⟩
  · rw [journalsGoOn_frame mirrorFrame_brum, setMode_field State.brum (fun _ => rfl) (fun _ _ => rfl), hb]
  · rw [journalsGoOn_frame mirrorFrame_mode, setMode_mode]
    exact runMode_cases s
  · rw [State.rf_of_reg _ (journalsGoOn_frame mirrorFrame_MGMT_MODE _), State.rf_of_reg _ (reg_setMode (by decide) _ _), hr]
  · have hst : (u.setMode s.runMode).staging = s.staging :=
      (setMode_field State.staging (fun _ => rfl) (fun _ _ => rfl) _ _).trans hstaging
    rw [journalsGoOn_quiet (by rwa [hst]), startFlushes_field State.mem (fun _ _ _ => rfl), startFlushes_field State.seq (fun _ _ _ => rfl),
      setMode_field State.mem (fun _ => rfl) (fun _ _ => rfl), setMode_field State.seq (fun _ => rfl) (fun _ _ => rfl)]
    exact ⟨hm, hq⟩

/-! The changes (R269, R74, R428) and their undoing (R31) -/

section
variable {α : Type} (f : State → α) (hw : ∀ s cs, f (State.offWrite cs s) = f s) (hh : ∀ s, f s.offHub = f s)
include hw

theorem surfaceDram_field (s : State) : f s.surfaceDram = f s :=
  foldl_keeps f _ (fun _ _ => offWrite_field hw fun _ => (poisonLine_offWrite _ _).trans (dramBad_offWrite _ _)) _ s

theorem regran_field (s : State) (g : Nat) : f (s.regran g) = f s := offWrite_field hw fun _ => rfl

theorem flushLocal_field (s : State) : f s.flushLocal = f s := by
  have hback : f (s.dirty.foldl (fun (s : State) e => s.writeBack (e.1 * 64)) s) = f s :=
    foldl_keeps f _ (fun t e => offWrite_field hw fun _ => writeBack_offWrite t _) _ s
  unfold State.flushLocal
  dsimp only
  generalize s.dirty.foldl (fun (s : State) e => s.writeBack (e.1 * 64)) s = t at hback ⊢
  rw [surfaceDram_field f hw]
  refine Eq.trans (offWrite_field hw fun _ => ?_) hback
  rfl

include hh

theorem setGran_field (s : State) (code : Nat) : f (s.setGran code) = f s := by
  unfold State.setGran
  dsimp only
  rw [foldl_keeps f _ (fun t n => offHub_field f hh (setRf_offHub t _ _ _)), regran_field f hw, flushLocal_field f hw]

theorem setPtbase_field (s : State) (v : Word) : f (s.setPtbase v) = f s := by
  have hregs : f ((List.range 16).foldl (fun (s : State) n => s.setReg (R.VLT_PTBASE (hs n)) v) s) = f s :=
    foldl_keeps f _ (fun t n => offHub_field f hh (setReg_offHub t _ _)) _ s
  unfold State.setPtbase
  dsimp only
  generalize (List.range 16).foldl (fun (s : State) n => s.setReg (R.VLT_PTBASE (hs n)) v) s = t at hregs ⊢
  exact (offWrite_field hw fun _ => (purseDir_offWrite _ _).trans (eachCore_offWrite t _)).trans hregs

theorem undoChange_field (hq : ∀ (s : State) q, f { s with seq := q } = f s) (s : State) (b : Brumation) : f (s.undoChange b) = f s := by
  unfold State.undoChange
  split
  · rfl
  · split
    · exact setGran_field f hw hh s _
    · exact setPtbase_field f hw hh s _
    · have hregs : f (b.regs.foldl (fun (s : State) r => s.setReg r.1 r.2) s) = f s :=
        foldl_keeps f _ (fun t r => offHub_field f hh (setReg_offHub t _ _)) _ s
      exact (hq _ _).trans hregs

end

theorem undoChange_failed {s : State} {b : Brumation} (h : b.failed = true) : s.undoChange b = s := if_pos h

end Sys2Proof.Machine

namespace Sys2Proof.Machine

/-! The registers of unit 0x142 -/

/-- The registers that unit 0x142 has. -/
def seqUnitNames : List RegName :=
  [.MGMT_UCTL, .ERRINJ_CTL, .ERRINJ_PER, .TIME_ADJ, .SEQ_NEXT, .SEQ_CTL, .SEQ_LAST, .MGMT_USTAT, .TEL_EVSEL, .TEL_CTR, .TEL_SHD, .TEL_SHDID,
   .TEL_OVF, .TIME_NOW, .TIME_PPSCAP, .TIME_PPSCTL]

theorem seqUnitRows : ∀ r ∈ regTable, r.unitLo ≤ 0x142 → 0x142 ≤ r.unitHi → r.name ∈ seqUnitNames := by decide +kernel

theorem regRowAt_seqUnit {k : Nat} {r : RegRow} (h : regRowAt k = some r) (hk : k / 0x1000000 = 0x142) : r.name ∈ seqUnitNames := by
  unfold regRowAt at h
  split at h
  next =>
    have hs := List.find?_some h
    simp only [RegRow.starts, hk, Bool.and_eq_true, decide_eq_true_eq] at hs
    obtain ⟨⟨⟨hlo, hhi⟩, -⟩, -⟩ := hs
    exact seqUnitRows r (List.mem_of_find?_eq_some h) hlo hhi
  next => cases h

theorem regRowAt_of_hit {k len : Nat} {r : RegRow} (h : regHit k len = .exact r) : regRowAt k = some r := by
  unfold regHit at h
  split at h
  next q hq =>
    split at h
    · cases h; exact hq
    · cases h
  next => split at h <;> cases h

theorem setUstat_mode (s : State) (u : Nat) (f : Fld) (n : Nat) : (s.setUstat u f n).mode = s.mode := State.setRf_mode s _ _ _

theorem opAccept_mode (s : State) (u op arg : Nat) : (s.opAccept u op arg).mode = s.mode := by
  unfold State.opAccept
  dsimp only
  split
  · rw [setUstat_mode, setUstat_mode]
  · rw [setUstat_mode]

/-- Outside LOAD, a steward operation asked for leaves the mode. -/
theorem unitAsk_mode {s : State} (h : s.mode ≠ .load) (load : Bool) (u op arg : Nat) : (s.unitAsk load u op arg).mode = s.mode := by
  unfold State.unitAsk
  dsimp only
  rw [if_neg (c := (load && s.mode == .load && op == 1) = true) (by simp [h])]
  split
  · exact setUstat_mode s _ _ _
  · split
    · exact setUstat_mode s _ _ _
    · split
      · exact setUstat_mode s _ _ _
      · split
        · exact setUstat_mode s _ _ _
        · exact opAccept_mode s _ _ _

theorem injWrite_mode (s : State) (u d : Nat) (v : Word) : (s.injWrite u d v).mode = s.mode := by
  have hstart (t : State) : (t.injStart u d).mode = t.mode := rfl
  unfold State.injWrite
  simp only [apply_ite State.mode, hstart, State.setRf_mode, ite_self]

theorem adjWrite_mode (s : State) (v : Word) : (s.adjWrite v).mode = s.mode := by
  unfold State.adjWrite
  split
  · rfl
  · exact State.setReg_mode _ _ _

/-- A write of a register that unit 0x142 has leaves the mode, outside LOAD. -/
theorem regWrite_mode {s : State} (h : s.mode ≠ .load) (load : Bool) (init k : Nat) {r : RegRow} (hr : r.name ∈ seqUnitNames) (v : Word) :
    (s.regWrite load init k r v).2.mode = s.mode := by
  have hp (b : Bool) : (s.plainWrite b k r v).mode = s.mode := State.setReg_mode _ _ _
  simp only [seqUnitNames, List.mem_cons, List.not_mem_nil, or_false] at hr
  unfold State.regWrite
  dsimp only
  rcases hr with hr | hr | hr | hr | hr | hr | hr | hr | hr | hr | hr | hr | hr | hr | hr | hr <;> rw [hr] <;> dsimp only
  · exact unitAsk_mode h _ _ _ _
  · exact injWrite_mode s _ _ _
  · split
    · exact hp _
    · rfl
  · exact adjWrite_mode s _
  all_goals exact hp _

/-! The sequencer re-imaged (R428) -/

theorem fieldWrite_mode {s : State} (h : s.mode ≠ .load) (lsb width : Nat) (w32 : Bool) {off : Nat} (hoff : off < 0x1000000) (value : Word) :
    (s.fieldWrite (fun s k r v => s.regWrite true 0x160 k r v) lsb width w32 0x142 off value).mode = s.mode := by
  unfold State.fieldWrite State.ctlAccess
  dsimp only
  split
  · rfl
  · split
    · rfl
    · rfl
    next r hr => exact regWrite_mode h _ _ _ (regRowAt_seqUnit (regRowAt_of_hit hr) (by omega)) _

theorem offset_field (seg pos lsb width : Nat) (w32 : Bool) (unit count off : Nat) (value : Word) :
    (ParRec.mk seg pos (.field lsb width w32 unit count off value)).offset = off := rfl

theorem applyRec_field (s : State) (p : Nat → Bool) (seg pos lsb width : Nat) (w32 : Bool) (unit count off : Nat) (value : Word) :
    s.applyRec p ⟨seg, pos, .field lsb width w32 unit count off value⟩ = ((List.range count).filter fun i => p (unit + i)).foldl
      (fun s i => s.fieldWrite (fun s k r v => s.regWrite true 0x160 k r v) lsb width w32 (unit + i) off value) s := rfl

theorem fieldWrite_brumation {s : State} (h : s.mode = .brumation) (lsb width : Nat) (w32 : Bool) {u off : Nat} (hu : u = 0x142)
    (hoff : off < 0x1000000) (value : Word) :
    (s.fieldWrite (fun s k r v => s.regWrite true 0x160 k r v) lsb width w32 u off value).mode = .brumation := by
  subst hu
  exact (fieldWrite_mode (by simp [h]) lsb width w32 hoff value).trans h

/-- Fields of unit 0x142 written one after another leave BRUMATION current. -/
theorem fieldWrites_brumation {lsb width : Nat} {w32 : Bool} {unit off : Nat} (hoff : off < 0x1000000) (value : Word) {l : List Nat}
    (hl : ∀ i ∈ l, unit + i = 0x142) {s : State} (h : s.mode = .brumation) :
    (l.foldl (fun s i => s.fieldWrite (fun s k r v => s.regWrite true 0x160 k r v) lsb width w32 (unit + i) off value) s).mode = .brumation := by
  induction l generalizing s with
  | nil => exact h
  | cons i l ih =>
    rw [List.foldl_cons]
    exact ih (fun j hj => hl j (List.mem_cons_of_mem _ hj)) (fieldWrite_brumation h lsb width w32 (hl i List.mem_cons_self) hoff value)

/-- A record of the image leaves BRUMATION current. -/
theorem applyRec_brumation {s : State} (h : s.mode = .brumation) {r : ParRec} (hoff : r.offset < 0x1000000) :
    (s.applyRec (· == 0x142) r).mode = .brumation := by
  obtain ⟨seg, pos, par⟩ := r
  cases par with
  | seq id v => exact h
  | field lsb width w32 unit count off value =>
    rw [offset_field] at hoff
    rw [applyRec_field]
    exact fieldWrites_brumation hoff value (fun i hi => beq_iff_eq.mp (List.mem_filter.mp hi).2) h

/-- A FIELD record's offset is 24 bits wide (R403). -/
theorem parOf_offset {w0 w1 w2 : Word} {p : Par} {n : Nat} (h : parOf w0 w1 w2 = some (p, n)) (seg pos : Nat) :
    (ParRec.mk seg pos p).offset < 0x1000000 := by
  unfold parOf at h
  split at h
  · cases h; exact getF_lt w1 ⟨23, 0⟩
  · split at h
    · cases h; exact Nat.zero_lt_succ _
    · cases h

theorem parseRecs_offset {s : State} {slot : Nat} {g : Seg} {fuel pos : Nat} {rs : List ParRec} (h : s.parseRecs slot g fuel pos = .ok rs) :
    ∀ r ∈ rs, r.offset < 0x1000000 := by
  induction fuel generalizing pos rs with
  | zero => cases h
  | succ fuel ih =>
    unfold State.parseRecs at h
    dsimp only at h
    split at h
    · cases h
    split at h
    · cases h; simp
    split at h
    · cases h
    next p n hp =>
      split at h
      · cases h
      cases hrec : s.parseRecs slot g fuel (pos + 8 * n) with
      | error e => rw [hrec] at h; cases h
      | ok qs =>
        rw [hrec] at h
        cases h
        intro r hr
        rcases List.mem_cons.mp hr with rfl | hr
        · exact parOf_offset hp _ _
        · exact ih hrec r hr

theorem params_offset {s : State} {slot : Nat} {rs : List ParRec} (h : s.params slot = .ok rs) : ∀ r ∈ rs, r.offset < 0x1000000 := by
  refine foldl_invariant (fun e : Except BootErr (List ParRec) => ∀ rs, e = .ok rs → ∀ r ∈ rs, r.offset < 0x1000000) _ _
    (fun e he g _ qs hq => ?_) (fun rs h => by cases h; simp) rs h
  cases e with
  | error e => cases hq
  | ok as =>
    cases hg : s.segRecs slot g with
    | error e => rw [Except.bind, hg] at hq; cases hq
    | ok bs =>
      rw [Except.bind, hg] at hq
      cases hq
      intro r hr
      rcases List.mem_append.mp hr with hr | hr
      · exact he as rfl r hr
      · exact parseRecs_offset hg r hr

theorem seqRecs_offset {s : State} {rs : List ParRec} (h : s.seqRecs = some rs) : ∀ r ∈ rs, r.offset < 0x1000000 := by
  unfold State.seqRecs at h
  dsimp only at h
  split at h
  · cases h
  split at h
  · cases h
  next qs hq =>
    cases h
    exact fun r hr => params_offset hq r (List.mem_of_mem_filter hr)

theorem reimage_brumation {s : State} (h : s.mode = .brumation) {rs : List ParRec} (hrs : ∀ r ∈ rs, r.offset < 0x1000000) :
    (s.reimage rs).mode = .brumation := by
  have hfold : ((rs.filter fun r => !(r.offset == 0x1000)).foldl (fun (s : State) r => s.applyRec (· == 0x142) r) s).mode = .brumation :=
    foldl_invariant (fun t : State => t.mode = .brumation) _ _ (fun t ht r hr => applyRec_brumation ht (hrs r (List.mem_of_mem_filter hr))) h
  unfold State.reimage
  dsimp only
  split <;> exact hfold

/-- The change is made within BRUMATION. -/
theorem makeChange_brumation {s : State} (h : s.mode = .brumation) (b : Brumation) : (s.makeChange b).mode = .brumation := by
  have hgran (c : Nat) : (s.setGran c).mode = .brumation := (setGran_field State.mode (fun _ _ => rfl) (fun _ => rfl) s c).trans h
  have hbase (v : Word) : (s.setPtbase v).mode = .brumation := (setPtbase_field State.mode (fun _ _ => rfl) (fun _ => rfl) s v).trans h
  unfold State.makeChange
  dsimp only
  split
  · split
    · exact (withBrum_mode (s.setGran _) _).trans (hgran _)
    · exact (withBrum_mode s _).trans h
  · split
    · exact (withBrum_mode (s.setPtbase _) _).trans (hbase _)
    · exact (withBrum_mode s _).trans h
  · split
    next rs hrs => exact (withBrum_mode (s.reimage rs) _).trans (reimage_brumation h (seqRecs_offset hrs))
    next => exact (withBrum_mode s _).trans h

/-! Settled -/

theorem quiesced_eq {s : State} {b : Brumation} (hb : s.brum = some b) : s.quiesced =
    if (s.mode = .run ∨ s.mode = .degraded) ∧ s.quiet = true then s.orWait ((s.settleCores.setMode .brumation).makeChange b) else s := by
  unfold State.quiesced
  rw [hb]

theorem changeComplete_eq {s : State} {b : Brumation} (hb : s.brum = some b) (hm : s.mode = .brumation) :
    s.changeComplete = s.leaveBrumation (if b.failed then 4 else 0) := by
  unfold State.changeComplete
  rw [hb]
  exact if_pos hm

theorem brumTimeout_eq {s : State} {b : Brumation} (hb : s.brum = some b) (hm : s.mode = .brumation) :
    s.brumTimeout = (s.undoChange b).leaveBrumation 4 := by
  unfold State.brumTimeout
  rw [hb]
  exact if_pos hm

/-- Without a brumation under way its events change nothing. -/
theorem brumation_events_idle {s : State} (hr : s.inReset = false) (hb : s.brum = none) :
    ∀ i ∈ ([Instr.brumationQuiesced, .brumationQuiesceTimeout, .brumationChangeComplete, .brumationTimeout] : List Instr), exec i s = .next s := by
  simp only [List.forall_mem_cons, List.not_mem_nil, false_imp_iff, implies_true, and_true]
  refine ⟨?_, ?_, ?_, ?_⟩
  · rw [exec_brumationQuiesced, execBrumationQuiesced, alive_of_live hr, State.quiesced, hb]
  · rw [exec_brumationQuiesceTimeout, execBrumationQuiesceTimeout, alive_of_live hr, State.quiesceTimeout, hb]; rfl
  · rw [exec_brumationChangeComplete, execBrumationChangeComplete, alive_of_live hr, State.changeComplete, hb]
  · rw [exec_brumationTimeout, execBrumationTimeout, alive_of_live hr, State.brumTimeout, hb]

theorem exec_modeReqBrumation_live {s : State} (hr : s.inReset = false) (chg : BitVec 2) :
    exec (.modeReqBrumation chg) s = .next (s.modeAsk 3 chg.toNat) := by
  rw [exec_modeReqBrumation, execModeReqBrumation, alive_of_live hr]

theorem exec_modeReqDiagnostic_live {s : State} (hr : s.inReset = false) :
    exec .modeReqDiagnostic s = .next (s.modeAsk 4 (s.rf R.MGMT_MODE F.MGMT_MODE_CHG)) := by
  rw [exec_modeReqDiagnostic, execModeReqDiagnostic, alive_of_live hr]

theorem exec_modeReqLeave_live {s : State} (hr : s.inReset = false) :
    exec .modeReqLeave s = .next (s.modeAsk 1 (s.rf R.MGMT_MODE F.MGMT_MODE_CHG)) := by
  rw [exec_modeReqLeave, execModeReqLeave, alive_of_live hr]

/-- Settles O47: the answers to requests by `modeAsk_eq`, the end of a brumation by `leaveBrumation_spec`, the change by
`makeChange_brumation`. -/
theorem modeRequestResult : Obligations.ModeRequestResult := by
  refine ⟨?_, fun s hr => ⟨fun hb => ?_, fun hb => ?_, brumation_events_idle hr, fun b hb => ?_⟩⟩
  · intro chg s
    simp only [List.forall_mem_cons, List.not_mem_nil, false_imp_iff, implies_true, and_true]
    exact ⟨⟨_, rfl⟩, ⟨_, rfl⟩, ⟨_, rfl⟩, ⟨_, rfl⟩, ⟨_, rfl⟩, ⟨_, rfl⟩, ⟨_, rfl⟩⟩
  · have hc : s.rf R.MGMT_MODE F.MGMT_MODE_CHG < 4 := getF_lt _ _
    simp only [List.forall_mem_cons, List.not_mem_nil, false_imp_iff, implies_true, and_true]
    exact ⟨⟨_, exec_modeReqBrumation_live hr 1, modeAsk_busy (by decide) (by decide) (by decide) hb⟩,
      ⟨_, exec_modeReqDiagnostic_live hr, modeAsk_busy (by decide) (by decide) hc hb⟩,
      ⟨_, exec_modeReqLeave_live hr, modeAsk_busy (by decide) (by decide) hc hb⟩⟩
  · have hc : s.rf R.MGMT_MODE F.MGMT_MODE_CHG < 4 := getF_lt _ _
    have hb1 : s.rf R.MGMT_MODE F.MGMT_MODE_BUSY ≠ 1 := by rw [hb]; decide
    refine ⟨fun chg hl h0 => ?_, fun chg h => ?_, fun hl => ?_, fun hl => ?_, fun hd => ?_, fun hd => ?_⟩
    · have hne : chg.toNat ≠ 0 := fun h => h0 (BitVec.eq_of_toNat_eq h)
      refine ⟨_, exec_modeReqBrumation_live hr chg, ?_⟩
      rw [modeAsk_eq s (by decide) (by decide) chg.isLt, if_neg hb1, if_pos ⟨rfl, hl, hne⟩]
      exact brumAsked_spec s chg.isLt
    · refine ⟨_, exec_modeReqBrumation_live hr chg, modeAsk_refused (by decide) (by decide) chg.isLt hb1 ?_ (by simp) (by simp)⟩
      rintro ⟨-, hl, hne⟩
      exact h.elim (· hl) fun h0 => hne (by rw [h0]; rfl)
    · refine ⟨_, exec_modeReqDiagnostic_live hr, ?_⟩
      rw [modeAsk_eq s (by decide) (by decide) hc, if_neg hb1, if_neg (by simp), if_pos ⟨rfl, hl⟩]
      exact ⟨(modeResult_mode _ _).trans (setMode_mode _ _), modeResult_res _ (by decide)⟩
    · obtain ⟨h1, h2, -⟩ := modeAsk_refused (s := s) (req := 4) (by decide) (by decide) hc hb1 (by simp) (fun h => hl h.2) (by simp)
      exact ⟨_, exec_modeReqDiagnostic_live hr, h2, h1⟩
    · refine ⟨_, exec_modeReqLeave_live hr, ?_⟩
      rw [modeAsk_eq s (by decide) (by decide) hc, if_neg hb1, if_neg (by simp), if_neg (by simp), if_pos ⟨rfl, hd⟩, modeResult_mode, setMode_mode]
      exact ⟨runMode_cases _, modeResult_res _ (by decide)⟩
    · obtain ⟨h1, h2, -⟩ := modeAsk_refused (s := s) (req := 1) (by decide) (by decide) hc hb1 (by simp) (by simp) (fun h => hd h.2)
      exact ⟨_, exec_modeReqLeave_live hr, h2, h1⟩
  · refine ⟨fun h => ?_, fun t hl hq ht hbl => ?_, fun hm => ?_, fun hm hh => ?_, fun hm hh => ?_⟩
    · rw [exec_brumationQuiesced, execBrumationQuiesced, alive_of_live hr, quiesced_eq hb, if_neg h]
    · rw [exec_brumationQuiesced, execBrumationQuiesced, alive_of_live hr, quiesced_eq hb, if_pos ⟨hl, hq⟩, ht, State.orWait, hbl]
      exact ⟨rfl, ht ▸ makeChange_brumation (setMode_mode _ _) b⟩
    · obtain ⟨h1, h2, h3, h4, h5, h6⟩ := brumEnd_spec s (res := 3) (by decide)
      refine ⟨s.brumEnd 3, ?_, h1, h2, h3, h4, h5, h6⟩
      rw [exec_brumationQuiesceTimeout, execBrumationQuiesceTimeout, alive_of_live hr, State.quiesceTimeout, if_pos ⟨by simp [hb], hm⟩]
    · refine ⟨s.changeComplete, alive_of_live hr _, ?_⟩
      rw [changeComplete_eq hb hm]
      exact leaveBrumation_spec hh (by split <;> decide)
    · have hu : (s.undoChange b).held = [] := (undoChange_field State.held (fun _ _ => rfl) (fun _ => rfl) (fun _ _ => rfl) s b).trans hh
      obtain ⟨h1, h2, h3, h4⟩ := leaveBrumation_spec hu (res := 4) (by decide)
      refine ⟨s.brumTimeout, alive_of_live hr _, ?_⟩
      rw [brumTimeout_eq hb hm]
      refine ⟨h1, h2, h3, fun hf hs => ?_⟩
      rw [undoChange_failed hf] at h4 ⊢
      exact h4 hs

end Sys2Proof.Machine

namespace Sys2Proof.Machine

/-! Home slices: the requests queued there, and one request alone -/

/-- The state with `rs` as the requests that wait at home slices. -/
def State.withReqs (s : State) (rs : List HomeReq) : State := { s with homeReqs := rs }

section
variable (s : State) (rs : List HomeReq)

@[simp] theorem withReqs_homeReqs : (s.withReqs rs).homeReqs = rs := (rfl)
@[simp] theorem withReqs_mem : (s.withReqs rs).mem = s.mem := (rfl)
@[simp] theorem withReqs_tags : (s.withReqs rs).tags = s.tags := (rfl)
@[simp] theorem withReqs_cellLocks : (s.withReqs rs).cellLocks = s.cellLocks := (rfl)
@[simp] theorem withReqs_peersOf (a : Nat) : (s.withReqs rs).peersOf a = s.peersOf a := (rfl)
@[simp] theorem withReqs_clustersOf (a : Nat) : (s.withReqs rs).clustersOf a = s.clustersOf a := (rfl)
@[simp] theorem withReqs_tagAt (a : Nat) : (s.withReqs rs).tagAt a = s.tagAt a := (rfl)
@[simp] theorem withReqs_poisoned (a : Nat) : (s.withReqs rs).poisoned a = s.poisoned a := (rfl)
@[simp] theorem withReqs_lineTags (a : Nat) : (s.withReqs rs).lineTags a = s.lineTags a := (rfl)

end

theorem serveRounds_nil {s : State} (h : s.homeReqs = []) (n : Nat) : s.serveRounds n = s := by
  induction n with
  | zero => rfl
  | succ n ih => unfold State.serveRounds; rw [h]; exact ih

theorem serveLines_noWaits {s : State} (h : s.lockWaits = []) : s.serveLines = s.serveRounds (s.homeReqs.length + 1) := by
  unfold State.serveLines
  simp only [h, List.foldl_nil, List.length_nil]
  rfl

/-- With no request and no lock waiting there is nothing to serve. -/
theorem serveLines_nil {s : State} (hq : s.homeReqs = []) (hw : s.lockWaits = []) : s.serveLines = s := by
  rw [serveLines_noWaits hw, serveRounds_nil hq]

theorem firstAtLine_single {s : State} {r : HomeReq} (h : s.homeReqs = [r]) : s.firstAtLine r = true := by
  simp [State.firstAtLine, h]

/-- One request that is served at once. -/
theorem serveLines_single {s t : State} {r : HomeReq} (hq : s.homeReqs = [r]) (hw : s.lockWaits = []) (h : s.serveOne r = t)
    (ht : t.homeReqs = []) : s.serveLines = t := by
  have hround : (s.homeReqs.foldl (fun s r => if s.firstAtLine r then s.serveOne r else s) s) = t := by
    rw [hq, List.foldl_cons, List.foldl_nil, if_pos (firstAtLine_single hq), h]
  rw [serveLines_noWaits hw, State.serveRounds, hround, serveRounds_nil ht]

theorem conflicts_none (self : Option Nat) (excl : Bool) : conflicts ⟨0, false⟩ self excl = [] := by
  have h : (⟨0, false⟩ : Holders).list = [] := by decide
  simp only [conflicts, h, List.filter_nil, ite_self]

/-- A request of a peer with nothing in its way is served. -/
theorem serveOne_served {s t : State} {r : HomeReq} {m : PeerMsg} (hm : r.msg = some m)
    (hc : conflicts (s.clustersOf r.line) (clusterSelf r.unit) r.excl = []) (hp : conflicts (s.peersOf r.line) (peerSelf r.unit) r.excl = [])
    (hs : ∀ x ∈ s.snoops, x.line ≠ r.line) (hl : m.op = 0x20 ∨ m.op = 0x22 ∨ s.cellLocks = []) (hw : s.purseWrs = [])
    (hv : (m.op = 0x01 ∨ m.op = 0x02) → s.rdirVictim r.line = none) (h : s.homeServe r = some t) : s.serveOne r = t.withReqs (t.homeReqs.erase r) := by
  have hneed : s.needSnoops r = [] := by simp [State.needSnoops, hc, hp]
  have hsn : (s.snoops.any fun x => x.line == r.line) = false := by simpa using hs
  have hlock : (!(m.op == 0x20 || m.op == 0x22) && s.lineLocked r.line 1) = false := by
    rcases hl with hl | hl | hl
    · simp [hl]
    · simp [hl]
    · simp [State.lineLocked, hl]
  have hhead : s.headHeld r.line = false := by simp [State.headHeld, hw]
  have hbusy : s.purseBusy r.line = false := by simp [State.purseBusy, hw]
  have hvict : (if m.op == 0x01 || m.op == 0x02 then s.rdirVictim r.line else none) = none := by
    split
    next ho => exact hv (by simpa using ho)
    next => rfl
  unfold State.serveOne
  simp only [hneed, ne_eq, not_true_eq_false, if_false, hm, hsn, hlock, hhead, hbusy, Bool.and_false, Bool.or_false, Bool.false_eq_true, hvict, h]
  rfl

/-- Nothing stands in the way of a request for local line `l`: no other request, lock, snoop, holder, purse write or purse entry. -/
structure LineFree (s : State) (l : Nat) : Prop where
  reqs : s.homeReqs = []
  waits : s.lockWaits = []
  snoops : ∀ x ∈ s.snoops, x.line ≠ l
  locks : s.cellLocks = []
  clusters : s.clustersOf l = ⟨0, false⟩
  peers : s.peersOf l = ⟨0, false⟩
  purses : s.purseWrs = []
  victim : s.rdirVictim l = none
  entries : s.entriesIn l 64 = []

/-- A request for a free line is served at once. -/
theorem serveLines_free {s t : State} {r : HomeReq} {m : PeerMsg} (hf : LineFree s r.line) (hm : r.msg = some m)
    (h : (s.withReqs [r]).homeServe r = some t) (ht : t.homeReqs = [r]) : (s.withReqs [r]).serveLines = t.withReqs [] := by
  have hone := serveOne_served (s := s.withReqs [r]) hm (by rw [withReqs_clustersOf, hf.clusters, conflicts_none])
    (by rw [withReqs_peersOf, hf.peers, conflicts_none]) hf.snoops (.inr (.inr hf.locks)) hf.purses (fun _ => hf.victim) h
  rw [ht, List.erase_cons_head] at hone
  exact serveLines_single rfl hf.waits hone rfl

/-! Guards -/

theorem guardCheck_settled {s : State} (h : s.guardOld = []) (set fn a : Nat) (op : GOp) (map : Bool) :
    s.guardCheck set fn a op map = (s.guardDecide set fn a op map, s) := by
  simp only [State.guardCheck, State.guardView, h, List.filter_nil, List.foldr_nil]

/-- The request that a message of a peer makes at its line. -/
def PeerMsg.req (m : PeerMsg) : HomeReq := ⟨pp m.port, m.line, needsExcl m.op, some m⟩

/-- A request that a guard refuses is refused to its peer. -/
theorem homeArrive_denied {s : State} {m : PeerMsg} {op : GOp} {r : GRefusal} (hg : s.guardOld = [])
    (hd : s.guardDecide (16 + m.port) 0 m.addr op false = some r) :
    ∃ q, s.homeArrive m op = (s.guardRefuse (16 + m.port) q op m.addr m.src).denyPeer m 1 := by
  unfold State.homeArrive
  dsimp only
  rw [guardCheck_settled hg, hd]
  dsimp only
  split
  next q hq => exact ⟨q, rfl⟩
  next hq => split at hq <;> cases hq

/-- A request admitted to local memory queues at its home slice. -/
theorem homeArrive_admitted {s : State} {m : PeerMsg} {op : GOp} (hg : s.guardOld = []) (hd : s.guardDecide (16 + m.port) 0 m.addr op false = none)
    (ha : m.addr < 2 ^ 44) (hl : s.localOf m.addr ≠ none) : s.homeArrive m op = (s.withReqs (s.homeReqs ++ [m.req])).serveLines := by
  have h1 : ¬ m.addr ≥ 0xFF0000000000 := by omega
  have h2 : ¬ (m.addr ≥ 0x100000000000 ∨ (s.localOf m.addr).isNone = true) := by
    rintro (h | h)
    · omega
    · exact hl (Option.isNone_iff_eq_none.mp h)
  unfold State.homeArrive
  dsimp only
  rw [guardCheck_settled hg, hd]
  dsimp only
  rw [if_neg h1]
  dsimp only
  rw [if_neg h2]
  rfl

theorem homeArrive_served {s t : State} {m : PeerMsg} {op : GOp} (hg : s.guardOld = []) (hd : s.guardDecide (16 + m.port) 0 m.addr op false = none)
    (ha : m.addr < 2 ^ 44) (hl : s.localOf m.addr ≠ none) (hf : LineFree s m.line) (h : (s.withReqs [m.req]).homeServe m.req = some t)
    (ht : t.homeReqs = [m.req]) : s.homeArrive m op = t.withReqs [] := by
  rw [homeArrive_admitted hg hd ha hl, hf.reqs]
  exact serveLines_free hf rfl h ht

end Sys2Proof.Machine

namespace Sys2Proof.Machine

/-! Stores to local memory that no purse entry meets -/

/-- The state with local memory, its tags and poison, its device bytes and its cluster directory taken out. -/
def State.offStore (s : State) : State :=
  { s with mem := [], tags := [], poison := [], back := [], dirty := [], dramBad := [], l2dir := [], l2s := [] }

theorem offStore_field {α : Type} (f : State → α) (hf : ∀ s, f s.offStore = f s) {s t : State} (h : t.offStore = s.offStore) : f t = f s := by
  rw [← hf t, h, hf]

@[simp] theorem setMemB_offStore (s : State) (a : Nat) (b : Byte) : (s.setMemB a b).offStore = s.offStore := (rfl)
@[simp] theorem setTag_offStore (s : State) (a : Nat) (t : Bool) : (s.setTag a t).offStore = s.offStore := (rfl)
@[simp] theorem setPoison_offStore (s : State) (a : Nat) (p : Bool) : (s.setPoison a p).offStore = s.offStore := (rfl)
@[simp] theorem setDirty_offStore (s : State) (a : Nat) (d : Bool) : (s.setDirty a d).offStore = s.offStore := (rfl)
@[simp] theorem setClusters_offStore (s : State) (a : Nat) (h : Holders) : (s.setClusters a h).offStore = s.offStore := (rfl)

@[simp] theorem setClusters_mem (s : State) (a : Nat) (h : Holders) : (s.setClusters a h).mem = s.mem := (rfl)
@[simp] theorem setClusters_tags (s : State) (a : Nat) (h : Holders) : (s.setClusters a h).tags = s.tags := (rfl)

/-- The bytes of a store. -/
def State.bytesPut (s : State) (a : Nat) (bs : List Byte) : State :=
  (List.range bs.length).foldl (fun s' j => s'.setMemB (a + j) (bs.getD j 0)) s

/-- What a store of either kind gives a granule's tag. -/
def TagRule.bit : TagRule → Bool
  | .clear => false
  | .set t => t

/-- The tags of the granules that hold a byte of [a, a + n). -/
def State.tagsPut (s : State) (a n : Nat) (t : Bool) : State :=
  (granules a n).foldl (fun s' g => if (List.range 16).all fun i => decide (g + i < a) || decide (a + n ≤ g + i) then s' else s'.setTag g t) s

theorem bytesPut_offStore (s : State) (a : Nat) (bs : List Byte) : (s.bytesPut a bs).offStore = s.offStore :=
  foldl_keeps State.offStore _ (fun t _ => setMemB_offStore t _ _) _ s

theorem tagsPut_offStore (s : State) (a n : Nat) (t : Bool) : (s.tagsPut a n t).offStore = s.offStore := by
  refine foldl_keeps State.offStore _ (fun u g => ?_) _ s
  split <;> rfl

theorem tagsPut_mem (s : State) (a n : Nat) (t : Bool) : (s.tagsPut a n t).mem = s.mem := by
  refine foldl_keeps State.mem _ (fun u g => ?_) _ s
  split <;> rfl

/-- The bytes of memory after the first `n` bytes of a store. -/
theorem memB_foldl_setMemB (s : State) (a : Nat) (b : Nat → Byte) (n x : Nat) :
    ((List.range n).foldl (fun s' j => s'.setMemB (a + j) (b j)) s).memB x = if a ≤ x ∧ x < a + n then b (x - a) else s.memB x := by
  induction n with
  | zero => rw [List.range_zero, List.foldl_nil, if_neg (by omega)]
  | succ n ih =>
    rw [List.range_succ, List.foldl_append, List.foldl_cons, List.foldl_nil, State.memB_setMemB, ih]
    by_cases hx : x = a + n
    · subst hx
      rw [if_pos rfl, if_pos (by omega), Nat.add_sub_cancel_left]
    · rw [if_neg hx]
      by_cases h : a ≤ x ∧ x < a + n
      · rw [if_pos h, if_pos (by omega)]
      · rw [if_neg h, if_neg (by omega)]

theorem memB_bytesPut (s : State) (a : Nat) (bs : List Byte) (x : Nat) :
    (s.bytesPut a bs).memB x = if a ≤ x ∧ x < a + bs.length then bs.getD (x - a) 0 else s.memB x :=
  memB_foldl_setMemB s a (fun j => bs.getD j 0) bs.length x

/-- Tags set one after another to one value: a granule among them has it. -/
theorem tagAt_foldl_setTag {s : State} {skip : Nat → Bool} {t : Bool} {gs : List Nat} {x : Nat}
    (h : s.tagAt x = t ∨ ∃ g ∈ gs, skip g = false ∧ g / 16 = x / 16) :
    (gs.foldl (fun s' g => if skip g then s' else s'.setTag g t) s).tagAt x = t := by
  induction gs generalizing s with
  | nil =>
    rcases h with h | ⟨g, hg, -⟩
    · exact h
    · cases hg
  | cons g gs ih =>
    refine ih ?_
    beta_reduce
    by_cases hk : skip g = true
    · rw [if_pos hk]
      rcases h with h | ⟨g', hg, hs, he⟩
      · exact .inl h
      · rcases List.mem_cons.mp hg with rfl | hg
        · simp [hk] at hs
        · exact .inr ⟨g', hg, hs, he⟩
    · rw [if_neg hk, State.tagAt_setTag]
      rcases h with h | ⟨g', hg, hs, he⟩
      · left; split
        · rfl
        · exact h
      · rcases List.mem_cons.mp hg with rfl | hg
        · left; simp [he]
        · exact .inr ⟨g', hg, hs, he⟩

theorem tagAt_tagsPut {s : State} {a n : Nat} {t : Bool} {x : Nat} (h : a ≤ x) (h' : x < a + n) : (s.tagsPut a n t).tagAt x = t := by
  refine tagAt_foldl_setTag (.inr ⟨x / 16 * 16, ?_, ?_, by omega⟩)
  · unfold granules
    rw [if_neg (by omega)]
    refine List.mem_map.mpr ⟨x / 16 - a / 16, List.mem_range.mpr (by omega), ?_⟩
    omega
  · rw [Bool.eq_false_iff]
    intro hall
    have := List.all_eq_true.mp hall (x % 16) (List.mem_range.mpr (by omega))
    simp only [Bool.or_eq_true, decide_eq_true_eq] at this
    omega

theorem startPurseWr_nil (s : State) (core : Option Nat) : s.startPurseWr [] core = s := rfl

/-- A store whose bytes meet no purse entry: its bytes, its tags, then bookkeeping line by line. -/
theorem localWrite_plain {s : State} {a : Nat} {bs : List Byte} (h : s.entriesIn a bs.length = []) (tr : TagRule) (core : Option Nat) :
    ∃ g : State → Nat → State, (∀ t l, (g t l).mem = t.mem ∧ (g t l).tags = t.tags ∧ (g t l).offStore = t.offStore) ∧
      s.localWrite a bs tr true core =
        ⟨(linesOf a bs.length).foldl g ((s.bytesPut a bs).tagsPut a bs.length tr.bit), false⟩ := by
  unfold State.localWrite
  simp only [h, List.filter_nil, List.any_nil, List.isEmpty_nil, Bool.not_true, startPurseWr_nil, Bool.false_eq_true, if_false, if_true,
    Bool.false_or, Bool.and_false]
  refine ⟨_, fun t l => ?_, by cases tr <;> rfl⟩
  simp only [apply_ite State.mem, apply_ite State.tags, apply_ite State.offStore, State.setDirty_mem, State.setDirty_tags, setDirty_offStore,
    setClusters_mem, setClusters_tags, setClusters_offStore, State.setPoison_mem, State.setPoison_tags, setPoison_offStore, ite_self, and_self]

/-- What a store whose bytes meet no purse entry leaves: its bytes, its tags, and nothing outside memory changed. -/
theorem localWrite_spec {s : State} {a : Nat} {bs : List Byte} (h : s.entriesIn a bs.length = []) (tr : TagRule) (core : Option Nat) :
    let w := s.localWrite a bs tr true core
    w.refused = false ∧ (∀ x, w.s.memB x = if a ≤ x ∧ x < a + bs.length then bs.getD (x - a) 0 else s.memB x) ∧
      (∀ x, a ≤ x → x < a + bs.length → w.s.tagAt x = tr.bit) ∧ w.s.offStore = s.offStore := by
  obtain ⟨g, hg, he⟩ := localWrite_plain h tr core
  have hmem := foldl_keeps State.mem g (fun t l => (hg t l).1) (linesOf a bs.length) ((s.bytesPut a bs).tagsPut a bs.length tr.bit)
  have htags := foldl_keeps State.tags g (fun t l => (hg t l).2.1) (linesOf a bs.length) ((s.bytesPut a bs).tagsPut a bs.length tr.bit)
  have hoff := foldl_keeps State.offStore g (fun t l => (hg t l).2.2) (linesOf a bs.length) ((s.bytesPut a bs).tagsPut a bs.length tr.bit)
  dsimp only
  rw [he]
  refine ⟨rfl, fun x => ?_, fun x hx hx' => ?_, hoff.trans ((tagsPut_offStore _ _ _ _).trans (bytesPut_offStore s a bs))⟩
  · rw [← memB_bytesPut]
    exact congrArg (fun m => SMap.get zeroByte m x) (hmem.trans (tagsPut_mem _ _ _ _))
  · exact (congrArg (fun m => SMap.get noFlag m (x / 16)) htags).trans (tagAt_tagsPut hx hx')

/-! Bytes and numbers -/

theorem padTo_length (n : Nat) (bs : List Byte) : (padTo n bs).length = n := by simp [padTo]

theorem padTo_of_length {n : Nat} {bs : List Byte} (h : bs.length = n) : padTo n bs = bs := by
  rw [padTo, List.take_append_of_le_length (by omega), List.take_of_length_le (by omega)]

theorem padTo_padTo (n : Nat) (bs : List Byte) : padTo n (padTo n bs) = padTo n bs := padTo_of_length (padTo_length n bs)

theorem getD_take {bs : List Byte} {n j : Nat} (h : j < n) : (bs.take n).getD j 0 = bs.getD j 0 := by
  simp [List.getD_eq_getElem?_getD, List.getElem?_take_of_lt h]

theorem natBytes_length (n x : Nat) : (natBytes n x).length = n := by
  induction n generalizing x with
  | zero => rfl
  | succ n ih => rw [natBytes, List.length_cons, ih]

theorem bytesNat_natBytes (n x : Nat) : bytesNat (natBytes n x) = x % 256 ^ n := by
  induction n generalizing x with
  | zero => rw [natBytes, bytesNat, pow_zero, Nat.mod_one]
  | succ n ih =>
    have h := Nat.mod_mul (x := x) (a := 256) (b := 256 ^ n)
    rw [natBytes, bytesNat, ih, BitVec.toNat_ofNat, Nat.pow_succ 256, Nat.mul_comm (256 ^ n), h]

theorem bytesNat_lt (bs : List Byte) : bytesNat bs < 256 ^ bs.length := by
  induction bs with
  | nil => decide
  | cons b bs ih =>
    have := b.isLt
    rw [bytesNat, List.length_cons, pow_succ]
    omega

theorem readNat_lt (s : State) (a n : Nat) : s.readNat a n < 2 ^ (8 * n) := by
  have h := bytesNat_lt (s.readBytes a n)
  rwa [State.readBytes_length, show (256 : Nat) = 2 ^ 8 by decide, ← pow_mul] at h

/-- Reading is by the bytes: memories that agree on them read alike. -/
theorem readBytes_congr {s t : State} {a n : Nat} (h : ∀ x, a ≤ x → x < a + n → t.memB x = s.memB x) : t.readBytes a n = s.readBytes a n := by
  induction n generalizing a with
  | zero => rfl
  | succ n ih =>
    rw [State.readBytes, State.readBytes, h a (by omega) (by omega), ih fun x hx hx' => h x (by omega) (by omega)]

theorem readBytes_of_mem {s t : State} (h : t.mem = s.mem) (a n : Nat) : t.readBytes a n = s.readBytes a n :=
  readBytes_congr fun x _ _ => congrArg (fun m => SMap.get zeroByte m x) h

/-- What was stored is read back. -/
theorem readBytes_of_stored {t : State} {a : Nat} {bs : List Byte} (h : ∀ j, j < bs.length → t.memB (a + j) = bs.getD j 0) :
    t.readBytes a bs.length = bs := by
  refine List.ext_getElem (State.readBytes_length _ _ _) fun j h1 h2 => ?_
  have hj := State.readBytes_getD t a bs.length j h2
  rw [h j h2] at hj
  rwa [List.getD_eq_getElem _ _ h1, List.getD_eq_getElem _ _ h2] at hj

end Sys2Proof.Machine

namespace Sys2Proof.Machine

/-! Peer messages: how a port takes them -/

/-- Command `i` is the arrival of message `m`, of a known kind, at port `p`. -/
structure Delivers (p : PortId) (i : Instr) (m : PeerMsg) : Prop where
  port : m.port = p.val
  known : ∀ s : State, ∃ t, s.peerMsg m = some t
  exec_eq : ∀ s, exec i s = arrive m s

/-- The thirty commands that deliver a message as their operands give it, each with its message. -/
theorem delivers_messages (p : PortId) (tx src arg : Nat) (a : Word) (d : List Byte) (tags : BitVec 4) (po : Bool) :
    let msg (op : Nat) (data : List Byte) (poison : Bool) (tags : BitVec 4) (tx src arg : Nat) (v : Word) : PeerMsg :=
      ⟨p.val, op, data, poison, tags, tx, src, arg, v⟩
    let line := padTo 64 d
    ∀ x ∈ ([(.rds p tx src a, msg 0x01 [] false 0 tx src 0 a), (.rdx p tx src a, msg 0x02 [] false 0 tx src 0 a),
      (.rdu p tx src arg a, msg 0x03 [] false 0 tx src arg a), (.wrl p tx src a d po, msg 0x04 line po 0 tx src 0 a),
      (.wrp p tx src arg a d po, msg 0x05 line po 0 tx src arg a), (.wbk p tx src a d tags po, msg 0x06 line po tags tx src 0 a),
      (.atm p tx src arg a d, msg 0x07 line false 0 tx src arg a), (.rdc p tx src a, msg 0x08 [] false 0 tx src 0 a),
      (.wrc p tx src a d tags po, msg 0x09 line po tags tx src 0 a), (.snpi p tx a, msg 0x10 [] false 0 tx 0 0 a),
      (.snps p tx a, msg 0x11 [] false 0 tx 0 0 a), (.srsp p tx true d tags po, msg 0x12 line po tags tx 0 0 0),
      (.srsp p tx false d tags po, msg 0x12 [] po tags tx 0 0 0), (.dat p tx d tags po, msg 0x18 line po tags tx 0 0 0),
      (.cmp p tx arg, msg 0x19 [] false 0 tx 0 arg 0), (.wnt p tx a, msg 0x1A [] false 0 tx 0 0 a),
      (.lck p tx src a, msg 0x20 [] false 0 tx src 0 a), (.lgr p tx d po, msg 0x21 line po 0 tx 0 0 0),
      (.cmt p tx src a d none, msg 0x22 line false 0 tx src 0 a), (.rel p tx src a, msg 0x23 [] false 0 tx src 0 a),
      (.cak p tx, msg 0x24 [] false 0 tx 0 0 0), (.pfw p tx src arg a d tags, msg 0x25 line false tags tx src arg a),
      (.prp p tx arg, msg 0x26 [] false 0 tx 0 arg 0), (.jrc p tx src arg d, msg 0x28 line false 0 tx src arg 0),
      (.jak p tx a, msg 0x29 [] false 0 tx 0 0 a), (.ipi p arg, msg 0x30 [] false 0 0 0 arg 0), (.fnc p tx a, msg 0x31 [] false 0 tx 0 0 a),
      (.fak p tx, msg 0x32 [] false 0 tx 0 0 0), (.swl p tx arg d, msg 0x33 line false 0 tx 0 arg 0),
      (.swr p tx arg, msg 0x34 [] false 0 tx 0 arg 0)] : List (Instr × PeerMsg)), Delivers p x.1 x.2 := by
  dsimp only
  simp only [List.forall_mem_cons]
  exact ⟨⟨rfl, fun _ => ⟨_, rfl⟩, fun _ => exec_rds ..⟩, ⟨rfl, fun _ => ⟨_, rfl⟩, fun _ => exec_rdx ..⟩, ⟨rfl, fun _ => ⟨_, rfl⟩, fun _ => exec_rdu ..⟩,
    ⟨rfl, fun _ => ⟨_, rfl⟩, fun _ => exec_wrl ..⟩, ⟨rfl, fun _ => ⟨_, rfl⟩, fun _ => exec_wrp ..⟩, ⟨rfl, fun _ => ⟨_, rfl⟩, fun _ => exec_wbk ..⟩,
    ⟨rfl, fun _ => ⟨_, rfl⟩, fun _ => exec_atm ..⟩, ⟨rfl, fun _ => ⟨_, rfl⟩, fun _ => exec_rdc ..⟩, ⟨rfl, fun _ => ⟨_, rfl⟩, fun _ => exec_wrc ..⟩,
    ⟨rfl, fun _ => ⟨_, rfl⟩, fun _ => exec_snpi ..⟩, ⟨rfl, fun _ => ⟨_, rfl⟩, fun _ => exec_snps ..⟩, ⟨rfl, fun _ => ⟨_, rfl⟩, fun _ => exec_srsp ..⟩,
    ⟨rfl, fun _ => ⟨_, rfl⟩, fun _ => exec_srsp ..⟩, ⟨rfl, fun _ => ⟨_, rfl⟩, fun _ => exec_dat ..⟩, ⟨rfl, fun _ => ⟨_, rfl⟩, fun _ => exec_cmp ..⟩,
    ⟨rfl, fun _ => ⟨_, rfl⟩, fun _ => exec_wnt ..⟩, ⟨rfl, fun _ => ⟨_, rfl⟩, fun _ => exec_lck ..⟩, ⟨rfl, fun _ => ⟨_, rfl⟩, fun _ => exec_lgr ..⟩,
    ⟨rfl, fun _ => ⟨_, rfl⟩, fun _ => exec_cmt ..⟩, ⟨rfl, fun _ => ⟨_, rfl⟩, fun _ => exec_rel ..⟩, ⟨rfl, fun _ => ⟨_, rfl⟩, fun _ => exec_cak ..⟩,
    ⟨rfl, fun _ => ⟨_, rfl⟩, fun _ => exec_pfw ..⟩, ⟨rfl, fun _ => ⟨_, rfl⟩, fun _ => exec_prp ..⟩, ⟨rfl, fun _ => ⟨_, rfl⟩, fun _ => exec_jrc ..⟩,
    ⟨rfl, fun _ => ⟨_, rfl⟩, fun _ => exec_jak ..⟩, ⟨rfl, fun _ => ⟨_, rfl⟩, fun _ => exec_ipi ..⟩, ⟨rfl, fun _ => ⟨_, rfl⟩, fun _ => exec_fnc ..⟩,
    ⟨rfl, fun _ => ⟨_, rfl⟩, fun _ => exec_fak ..⟩, ⟨rfl, fun _ => ⟨_, rfl⟩, fun _ => exec_swl ..⟩, ⟨rfl, fun _ => ⟨_, rfl⟩, fun _ => exec_swr ..⟩,
    fun _ h => nomatch h⟩

/-- A port that is down, or that carries no messages, takes none. -/
theorem arrive_down {s : State} {m : PeerMsg} (hr : s.inReset = false) (h : s.portUp m.port = false ∨ s.portRuns m.port = false) :
    arrive m s = .next s := by
  unfold arrive
  rw [alive_of_live hr, if_neg]
  rintro ⟨hu, hc⟩
  rcases h with h | h
  · exact Bool.false_ne_true (h.symm.trans hu)
  · exact Bool.false_ne_true (h.symm.trans hc)

theorem arrive_up {s : State} {m : PeerMsg} (hr : s.inReset = false) (hu : s.portUp m.port = true) (hc : s.portRuns m.port = true) :
    arrive m s = .next (s.takeMsg m false) := by
  unfold arrive
  rw [alive_of_live hr, if_pos ⟨hu, hc⟩]

theorem takeMsg_held {s : State} {m : PeerMsg} (h : s.portHolds m.op = true) (last : Bool) :
    s.takeMsg m last = { s with held := s.held ++ [(m, last)] } := by
  unfold State.takeMsg
  rw [if_pos h]

theorem takeMsg_acts {s t : State} {m : PeerMsg} (h : s.portHolds m.op = false) (hm : s.peerMsg m = some t) (last : Bool) :
    s.takeMsg m last = t := by
  unfold State.takeMsg
  rw [if_neg (by simp [h]), hm]

/-- In brumation a port holds every message but those of class 2 (R31). -/
theorem portHolds_brumation {s : State} (h : s.mode = .brumation) (op : Nat) : s.portHolds op = decide (op ∉ [0x10, 0x11, 0x31, 0x32]) := by
  have hc : (opClass op != 2) = decide (op ∉ [0x10, 0x11, 0x31, 0x32]) := by
    unfold opClass
    split
    next h30 => rw [beq_iff_eq] at h30; subst h30; decide
    next =>
      rw [List.contains_eq_mem]
      split
      next hin => simp only [decide_eq_true_eq] at hin; simp [hin]
      next hout =>
        simp only [decide_eq_true_eq] at hout
        split <;> simp [hout]
  unfold State.portHolds
  rw [h]
  exact hc

/-- What a delivered message does, by its port and the mode. -/
theorem Delivers.outcome {p : PortId} {i : Instr} {m : PeerMsg} (h : Delivers p i m) {s : State} (hr : s.inReset = false) :
    (s.portUp p.val = false ∨ s.portRuns p.val = false → exec i s = .next s) ∧
    (s.portUp p.val = true → s.portRuns p.val = true → s.portHolds m.op = true → exec i s = .next { s with held := s.held ++ [(m, false)] }) ∧
    (s.portUp p.val = true → s.portRuns p.val = true → s.portHolds m.op = false → ∃ t, s.peerMsg m = some t ∧ exec i s = .next t) ∧
    (s.mode = .brumation → s.portHolds m.op = decide (m.op ∉ [0x10, 0x11, 0x31, 0x32])) := by
  rw [h.exec_eq, ← h.port]
  refine ⟨arrive_down hr, fun hu hc hh => ?_, fun hu hc hh => ?_, fun hb => portHolds_brumation hb _⟩
  · rw [arrive_up hr hu hc, takeMsg_held hh]
  · obtain ⟨t, ht⟩ := h.known s
    exact ⟨t, ht, by rw [arrive_up hr hu hc, takeMsg_acts hh ht]⟩

/-- Every command that delivers a message answers a next state. -/
theorem exec_message_next (p : PortId) (n1 n2 n3 : Nat) (w : Word) (bytes : List Byte) (b1 b2 : Bool) (tags : BitVec 4) (note : Option PostNote) (s : State) :
    ∀ i ∈ ([Instr.rds p n1 n2 w, .rdx p n1 n2 w, .rdu p n1 n2 n3 w, .wrl p n1 n2 w bytes b1, .wrp p n1 n2 n3 w bytes b1,
        .wbk p n1 n2 w bytes tags b1, .atm p n1 n2 n3 w bytes, .rdc p n1 n2 w, .wrc p n1 n2 w bytes tags b1, .snpi p n1 w, .snps p n1 w,
        .srsp p n1 b1 bytes tags b2, .dat p n1 bytes tags b1, .cmp p n1 n2, .wnt p n1 w, .lck p n1 n2 w, .lgr p n1 bytes b1,
        .cmt p n1 n2 w bytes note, .rel p n1 n2 w, .cak p n1, .pfw p n1 n2 n3 w bytes tags, .prp p n1 n2, .jrc p n1 n2 n3 bytes,
        .jak p n1 w, .ipi p n1, .fnc p n1 w, .fak p n1, .swl p n1 n2 bytes, .swr p n1 n2] : List Instr), ∃ t, exec i s = .next t := by
  simp only [List.forall_mem_cons]
  exact ⟨⟨_, exec_rds ..⟩, ⟨_, exec_rdx ..⟩, ⟨_, exec_rdu ..⟩, ⟨_, exec_wrl ..⟩, ⟨_, exec_wrp ..⟩, ⟨_, exec_wbk ..⟩, ⟨_, exec_atm ..⟩, ⟨_, exec_rdc ..⟩,
    ⟨_, exec_wrc ..⟩, ⟨_, exec_snpi ..⟩, ⟨_, exec_snps ..⟩, ⟨_, exec_srsp ..⟩, ⟨_, exec_dat ..⟩, ⟨_, exec_cmp ..⟩, ⟨_, exec_wnt ..⟩, ⟨_, exec_lck ..⟩,
    ⟨_, exec_lgr ..⟩, ⟨_, exec_cmt ..⟩, ⟨_, exec_rel ..⟩, ⟨_, exec_cak ..⟩, ⟨_, exec_pfw ..⟩, ⟨_, exec_prp ..⟩, ⟨_, exec_jrc ..⟩, ⟨_, exec_jak ..⟩,
    ⟨_, exec_ipi ..⟩, ⟨_, exec_fnc ..⟩, ⟨_, exec_fak ..⟩, ⟨_, exec_swl ..⟩, ⟨_, exec_swr ..⟩, fun _ h => nomatch h⟩

/-- A live port that carries messages, in a mode that holds none back. -/
structure Carries (s : State) (p : PortId) : Prop where
  live : s.inReset = false
  up : s.portUp p.val = true
  mode : s.mode = .run ∨ s.mode = .degraded

theorem Carries.runs {s : State} {p : PortId} (h : Carries s p) : s.portRuns p.val = true := by
  rcases h.mode with hm | hm <;> simp [State.portRuns, hm]

theorem Carries.holds {s : State} {p : PortId} (h : Carries s p) (op : Nat) : s.portHolds op = false := by
  rcases h.mode with hm | hm <;> simp [State.portHolds, hm]

/-- A message that a port carries takes its effect. -/
theorem Carries.takes {s t : State} {p : PortId} {m : PeerMsg} (h : Carries s p) (hp : m.port = p.val) (hm : s.peerMsg m = some t) :
    arrive m s = .next t := by
  rw [arrive_up h.live (hp ▸ h.up) (hp ▸ h.runs), takeMsg_acts (h.holds _) hm]

end Sys2Proof.Machine

namespace Sys2Proof.Machine

/-! Peer requests for a free local line: reads, refusals, locks -/

theorem grant_shared (i : Nat) : (⟨0, false⟩ : Holders).grant i false = ⟨BitVec.ofNat 16 (2 ^ i), false⟩ := by
  simp [Holders.grant]

theorem grant_only (h : Holders) (i : Nat) : h.grant i true = ⟨BitVec.ofNat 16 (2 ^ i), true⟩ := rfl

theorem drop_none (i : Nat) : (⟨0, false⟩ : Holders).drop i = ⟨0, false⟩ := by
  simp [Holders.drop]

@[simp] theorem peersOf_setPeers (s : State) (a : Nat) (h : Holders) : (s.setPeers a h).peersOf a = h :=
  SMap.get_set_same (d := noHolders) s.rdir (a / 64) h

/-- The holders that are there already make no difference to whether a cell may be locked. -/
theorem lockable_setPeers (s : State) {l : Nat} {h : Holders} (hh : s.peersOf l = h) (hl : s.lockable l = true) : (s.setPeers l h).lockable l = true := by
  have he : (s.setPeers l h).lockable l = s.lockable l := by
    unfold State.lockable
    rw [peersOf_setPeers, hh]
    rfl
  rw [he, hl]

theorem requestLock_granted {s : State} {l : Nat} (h : s.lockable l = true) (o : LockOwner) : s.requestLock ⟨l, o⟩ = s.grantLock ⟨l, o⟩ := by
  unfold State.requestLock
  rw [if_neg (by simp [h])]

/-- The state with `ls` as its cell locks. -/
def State.withLocks (s : State) (ls : List CellLock) : State := { s with cellLocks := ls }

section
variable (s : State) (ls : List CellLock)

@[simp] theorem withLocks_cellLocks : (s.withLocks ls).cellLocks = ls := (rfl)
@[simp] theorem withLocks_mem : (s.withLocks ls).mem = s.mem := (rfl)
@[simp] theorem withLocks_homeReqs : (s.withLocks ls).homeReqs = s.homeReqs := (rfl)

end

/-- A lock granted to a peer is answered with the cell. -/
theorem grantLock_peer (s : State) (l port tx src : Nat) : ∃ q : PeerMsg, q.port = port ∧ q.op = 0x21 ∧ q.txid = tx ∧ q.data = s.readBytes l 64 ∧
    s.grantLock ⟨l, .peer port tx src⟩ = (s.withLocks (s.cellLocks ++ [⟨l, .peer port tx src⟩])).send q :=
  ⟨_, rfl, rfl, rfl, readBytes_of_mem (withLocks_mem s _) l 64, rfl⟩

theorem mem_send (s : State) (m : PeerMsg) : m ∈ (s.send m).peerOut := List.mem_append_right _ (List.mem_singleton_self m)

theorem mem_reply (s : State) (m : PeerMsg) (op arg : Nat) (data : List Byte) (tags : BitVec 4) (poison : Bool) :
    m.replyWith op arg data tags poison ∈ (s.reply m op arg data tags poison).peerOut := mem_send s _

section
variable (s : State) (m : PeerMsg) (op arg : Nat) (data : List Byte) (tags : BitVec 4) (poison : Bool) (a : Nat) (h : Holders)

@[simp] theorem setPeers_mem : (s.setPeers a h).mem = s.mem := (rfl)
@[simp] theorem setPeers_tags : (s.setPeers a h).tags = s.tags := (rfl)
@[simp] theorem setPeers_homeReqs : (s.setPeers a h).homeReqs = s.homeReqs := (rfl)
@[simp] theorem setPeers_cellLocks : (s.setPeers a h).cellLocks = s.cellLocks := (rfl)
@[simp] theorem setPeers_purseWrs : (s.setPeers a h).purseWrs = s.purseWrs := (rfl)
@[simp] theorem setPeers_entriesIn (b n : Nat) : (s.setPeers a h).entriesIn b n = s.entriesIn b n := (rfl)
@[simp] theorem send_mem : (s.send m).mem = s.mem := (rfl)
@[simp] theorem send_homeReqs : (s.send m).homeReqs = s.homeReqs := (rfl)
@[simp] theorem send_cellLocks : (s.send m).cellLocks = s.cellLocks := (rfl)
@[simp] theorem reply_mem : (s.reply m op arg data tags poison).mem = s.mem := (rfl)
@[simp] theorem reply_tags : (s.reply m op arg data tags poison).tags = s.tags := (rfl)
@[simp] theorem reply_peersOf : (s.reply m op arg data tags poison).peersOf a = s.peersOf a := (rfl)
@[simp] theorem reply_homeReqs : (s.reply m op arg data tags poison).homeReqs = s.homeReqs := (rfl)

end

theorem guardRefuse_offHub (s : State) (set : Nat) (r : GRefusal) (op : GOp) (a src : Nat) : (s.guardRefuse set r op a src).offHub = s.offHub := by
  unfold State.guardRefuse
  simp only [ringSrc_offHub, incRf_offHub, apply_ite State.offHub, count_offHub, setReg_offHub, ite_self]

theorem guardRefuse_mem (s : State) (set : Nat) (r : GRefusal) (op : GOp) (a src : Nat) : (s.guardRefuse set r op a src).mem = s.mem :=
  offHub_field State.mem (fun _ => rfl) (guardRefuse_offHub ..)

theorem denyPeer_load {m : PeerMsg} (h : isStore m.op = false) (s : State) (why : Nat) : s.denyPeer m why = s.reply m 0x19 why [] 0 false := by
  unfold State.denyPeer
  rw [if_neg (by simp [h])]

theorem denyPeer_store {m : PeerMsg} (h : isStore m.op = true) (s : State) (why : Nat) : s.denyPeer m why = s.reply m 0x1A 0 [] 0 false := by
  unfold State.denyPeer
  rw [if_pos h]

/-- A guard admits the request of message `m`, for local memory, and its line is free. -/
structure Admitted (s : State) (m : PeerMsg) (op : GOp) : Prop where
  settled : s.guardOld = []
  may : s.guardDecide (16 + m.port) 0 m.addr op false = none
  low : m.addr < 2 ^ 44
  isLocal : s.localOf m.addr ≠ none
  free : LineFree s m.line

/-- An admitted request is served as its home slice serves it. -/
theorem Carries.request {s t : State} {p : PortId} {m : PeerMsg} {op : GOp} (h : Carries s p) (hp : m.port = p.val)
    (ha : Admitted s m op) (hm : s.peerMsg m = some (s.homeArrive m op)) (hs : (s.withReqs [m.req]).homeServe m.req = some t)
    (ht : t.homeReqs = [m.req]) : arrive m s = .next (t.withReqs []) := by
  rw [h.takes hp hm, homeArrive_served ha.settled ha.may ha.low ha.isLocal ha.free hs ht]

/-- A request that a guard refuses is answered so, and leaves memory alone. -/
theorem Carries.denied {s : State} {p : PortId} {m : PeerMsg} {op : GOp} {r : GRefusal} (h : Carries s p) (hp : m.port = p.val)
    (hg : s.guardOld = []) (hd : s.guardDecide (16 + m.port) 0 m.addr op false = some r) (hm : s.peerMsg m = some (s.homeArrive m op)) :
    ∃ u : State, u.mem = s.mem ∧ arrive m s = .next (u.denyPeer m 1) := by
  obtain ⟨q, hq⟩ := homeArrive_denied hg hd
  exact ⟨_, guardRefuse_mem .., by rw [h.takes hp hm, hq]⟩

section
variable {s : State} {p : PortId} {tx src arg : Nat} {v : Word}

theorem rds_denied {r : GRefusal} (h : Carries s p) (hg : s.guardOld = [])
    (hd : s.guardDecide (16 + p.val) 0 (v.toNat % 2 ^ 48) .read false = some r) :
    ∃ t, exec (.rds p tx src v) s = .next t ∧ t.mem = s.mem ∧ (⟨p.val, 0x19, [], false, 0, tx, pp p.val, 1, v⟩ : PeerMsg) ∈ t.peerOut := by
  obtain ⟨u, hu, he⟩ := h.denied (m := ⟨p.val, 0x01, [], false, 0, tx, src, 0, v⟩) rfl hg hd rfl
  rw [denyPeer_load rfl] at he
  exact ⟨_, (exec_rds ..).trans he, hu, mem_reply ..⟩

theorem wrl_denied {r : GRefusal} {d : List Byte} (h : Carries s p) (hg : s.guardOld = [])
    (hd : s.guardDecide (16 + p.val) 0 (v.toNat % 2 ^ 48) .write false = some r) :
    ∃ t, exec (.wrl p tx src v d false) s = .next t ∧ t.mem = s.mem ∧ (⟨p.val, 0x1A, [], false, 0, tx, pp p.val, 0, v⟩ : PeerMsg) ∈ t.peerOut := by
  obtain ⟨u, hu, he⟩ := h.denied (m := ⟨p.val, 0x04, padTo 64 d, false, 0, tx, src, 0, v⟩) rfl hg hd rfl
  rw [denyPeer_store rfl] at he
  exact ⟨_, (exec_wrl ..).trans he, hu, mem_reply ..⟩

end

/-! How a home slice serves each request -/

section
variable (s : State) {m : PeerMsg}

theorem homeServe_rds (h : m.op = 0x01) : s.homeServe m.req =
    some ((s.setPeers m.line ((s.peersOf m.line).grant m.port false)).reply m 0x18 0 (padTo 64 (s.readBytes m.line 64)) (s.lineTags m.line)
      (s.poisoned m.line)) := by
  cases m; cases h; rfl

theorem homeServe_rdx (h : m.op = 0x02) : s.homeServe m.req =
    some ((s.setPeers m.line ((s.peersOf m.line).grant m.port true)).reply m 0x18 0 (padTo 64 (s.readBytes m.line 64)) (s.lineTags m.line)
      (s.poisoned m.line)) := by
  cases m; cases h; rfl

theorem homeServe_rdu (h : m.op = 0x03) : s.homeServe m.req =
    some (s.reply m 0x18 0 (padTo 64 (s.readBytes (m.line + argOff m.arg) (min (argLen m.arg) (64 - argOff m.arg)))) 0 (s.poisoned m.line)) := by
  cases m; cases h; rfl

theorem homeServe_rdc (h : m.op = 0x08) : s.homeServe m.req =
    some (s.reply m 0x18 0 (padTo 64 (s.readBytes (m.line + m.addr % 64 / 16 * 16) 16))
      (BitVec.ofNat 4 (b2n (s.tagAt (m.line + m.addr % 64 / 16 * 16)))) (s.poisoned m.line)) := by
  cases m; cases h; rfl

theorem homeServe_lck (h : m.op = 0x20) : s.homeServe m.req =
    some ((s.setPeers m.line ((s.peersOf m.line).drop m.port)).requestLock ⟨m.line, .peer m.port m.txid m.src⟩) := by
  cases m; cases h; rfl

end

/-! Reads and locks -/

/-- What is known of a message's arrival is known of the command that delivers it. -/
theorem exec_of_arrive {i : Instr} {m : PeerMsg} {s : State} {P : State → Prop} (hi : exec i s = arrive m s) (h : ∃ t, arrive m s = .next t ∧ P t) :
    ∃ t, exec i s = .next t ∧ P t := by
  rwa [hi]


section
variable {s : State} {p : PortId} {m : PeerMsg}

@[simp] theorem withReqs_readBytes (s : State) (rs : List HomeReq) (a n : Nat) : (s.withReqs rs).readBytes a n = s.readBytes a n :=
  readBytes_of_mem (withReqs_mem s rs) a n

/-- A shared read is answered with the line, its tags and its poison, and the peer becomes a holder. -/
theorem rds_served (h : Carries s p) (hp : m.port = p.val) (ho : m.op = 0x01) (hm : s.peerMsg m = some (s.homeArrive m .read)) (ha : Admitted s m .read) :
    ∃ t, arrive m s = .next t ∧ t.peersOf m.line = ⟨BitVec.ofNat 16 (2 ^ m.port), false⟩ ∧ t.mem = s.mem ∧ t.tags = s.tags ∧
      m.replyWith 0x18 0 (s.readBytes m.line 64) (s.lineTags m.line) (s.poisoned m.line) ∈ t.peerOut := by
  have he := h.request hp ha hm (homeServe_rds _ ho) rfl
  simp only [withReqs_readBytes, padTo_of_length (State.readBytes_length _ _ 64), withReqs_lineTags, withReqs_poisoned, withReqs_peersOf, ha.free.peers, grant_shared] at he
  exact ⟨_, he, by simp, by simp,
    by simp, mem_reply ..⟩

/-- An exclusive read is answered so too, and the peer becomes the only holder. -/
theorem rdx_served (h : Carries s p) (hp : m.port = p.val) (ho : m.op = 0x02) (hm : s.peerMsg m = some (s.homeArrive m .write)) (ha : Admitted s m .write) :
    ∃ t, arrive m s = .next t ∧ t.peersOf m.line = ⟨BitVec.ofNat 16 (2 ^ m.port), true⟩ ∧ t.mem = s.mem ∧
      m.replyWith 0x18 0 (s.readBytes m.line 64) (s.lineTags m.line) (s.poisoned m.line) ∈ t.peerOut := by
  have he := h.request hp ha hm (homeServe_rdx _ ho) rfl
  simp only [withReqs_readBytes, padTo_of_length (State.readBytes_length _ _ 64), withReqs_lineTags, withReqs_poisoned] at he
  exact ⟨_, he, by simp [grant_only], by simp, mem_reply ..⟩

/-- An uncached read is answered with the bytes it asks for; no holder changes. -/
theorem rdu_served (h : Carries s p) (hp : m.port = p.val) (ho : m.op = 0x03) (hm : s.peerMsg m = some (s.homeArrive m .read)) (ha : Admitted s m .read) :
    ∃ t, arrive m s = .next t ∧ t.peersOf m.line = ⟨0, false⟩ ∧ t.mem = s.mem ∧
      m.replyWith 0x18 0 (padTo 64 (s.readBytes (m.line + argOff m.arg) (min (argLen m.arg) (64 - argOff m.arg)))) 0 (s.poisoned m.line) ∈ t.peerOut := by
  have he := h.request hp ha hm (homeServe_rdu _ ho) rfl
  simp only [withReqs_readBytes, withReqs_poisoned] at he
  exact ⟨_, he, ha.free.peers, rfl, mem_reply ..⟩

/-- A coin read is answered with its granule and tag. -/
theorem rdc_served (h : Carries s p) (hp : m.port = p.val) (ho : m.op = 0x08) (hm : s.peerMsg m = some (s.homeArrive m .coinLoad))
    (ha : Admitted s m .coinLoad) {g : Nat} (hg : m.line + m.addr % 64 / 16 * 16 = g) :
    ∃ t, arrive m s = .next t ∧ t.mem = s.mem ∧
      m.replyWith 0x18 0 (padTo 64 (s.readBytes g 16)) (BitVec.ofNat 4 (b2n (s.tagAt g))) (s.poisoned m.line) ∈ t.peerOut := by
  have he := h.request hp ha hm (homeServe_rdc _ ho) rfl
  simp only [withReqs_readBytes, withReqs_poisoned, withReqs_tagAt, hg] at he
  exact ⟨_, he, rfl, mem_reply ..⟩

/-- A lock request for a cell that may be locked takes its lock, and is answered with the cell. -/
theorem lck_served (h : Carries s p) (hp : m.port = p.val) (ho : m.op = 0x20) (hm : s.peerMsg m = some (s.homeArrive m .lock)) (ha : Admitted s m .lock)
    (hl : s.lockable m.line = true) :
    ∃ t, arrive m s = .next t ∧ t.cellLocks = [⟨m.line, .peer m.port m.txid m.src⟩] ∧ t.mem = s.mem ∧
      ∃ q ∈ t.peerOut, q.port = m.port ∧ q.op = 0x21 ∧ q.txid = m.txid ∧ q.data = s.readBytes m.line 64 := by
  obtain ⟨q, hq, hop, htx, hd, hg⟩ := grantLock_peer ((s.withReqs [m.req]).setPeers m.line ⟨0, false⟩) m.line m.port m.txid m.src
  have hserve := homeServe_lck (s.withReqs [m.req]) ho
  rw [withReqs_peersOf, ha.free.peers, drop_none, requestLock_granted (lockable_setPeers (s.withReqs [m.req]) ha.free.peers hl), hg] at hserve
  refine ⟨_, h.request hp ha hm hserve (by simp), by simp [ha.free.locks], by simp, q, mem_send _ _, hq, hop, htx, hd.trans ?_⟩
  exact readBytes_of_mem (by simp) _ _

end

end Sys2Proof.Machine

namespace Sys2Proof.Machine

/-! Peer requests for a free local line: writes and atomics -/

/-- What a home slice does with a peer's write: the peer gives the line up, the bytes are stored, and `q` is answered. -/
def State.peerWrite (s : State) (m : PeerMsg) (a : Nat) (bs : List Byte) (tr : TagRule) (q : PeerMsg) : State :=
  let w := (s.setPeers m.line ((s.peersOf m.line).drop m.port)).localWrite a bs tr true none
  if w.refused then w.s.denyPeer m 1 else w.s.signalAfter s.nextId (.peer q)

theorem signalAfter_settled {s : State} (h : s.purseWrs = []) (n : Nat) (x : PurseSignal) : s.signalAfter n x = s.signal x := by
  simp only [State.signalAfter, h, List.filter_nil, List.map_nil]

/-- A peer's write that meets no purse entry. -/
theorem peerWrite_spec {s : State} {m : PeerMsg} {a : Nat} {bs : List Byte} {tr : TagRule} {q : PeerMsg} (he : s.entriesIn a bs.length = [])
    (hw : s.purseWrs = []) :
    let t := s.peerWrite m a bs tr q
    q ∈ t.peerOut ∧ (∀ x, t.memB x = if a ≤ x ∧ x < a + bs.length then bs.getD (x - a) 0 else s.memB x) ∧
      (∀ x, a ≤ x → x < a + bs.length → t.tagAt x = tr.bit) ∧ t.homeReqs = s.homeReqs := by
  dsimp only
  unfold State.peerWrite
  obtain ⟨hr, hmem, htag, hoff⟩ := localWrite_spec (s := s.setPeers m.line ((s.peersOf m.line).drop m.port)) ((setPeers_entriesIn ..).trans he) tr none
  have hreqs := offStore_field State.homeReqs (fun _ => rfl) hoff
  have hwrs := offStore_field State.purseWrs (fun _ => rfl) hoff
  rw [setPeers_homeReqs] at hreqs
  rw [setPeers_purseWrs, hw] at hwrs
  generalize (s.setPeers m.line ((s.peersOf m.line).drop m.port)).localWrite a bs tr true none = w at *
  dsimp only
  rw [hr, if_neg Bool.false_ne_true, signalAfter_settled hwrs]
  exact ⟨mem_send _ _, hmem, htag, hreqs⟩

section
variable (s : State) {m : PeerMsg}

theorem homeServe_wrl (h : m.op = 0x04) (hp : m.poison = false) :
    s.homeServe m.req = some (s.peerWrite m m.line (padTo 64 m.data) .clear (m.replyWith 0x19 0 [] 0 false)) := by
  unfold State.homeServe PeerMsg.req
  simp only [h, hp, Bool.false_eq_true, if_false]
  rfl

theorem homeServe_wrp (h : m.op = 0x05) (hp : m.poison = false) :
    s.homeServe m.req = some (s.peerWrite m (m.line + argOff m.arg) (m.data.take (min (argLen m.arg) (64 - argOff m.arg))) .clear
      (m.replyWith 0x19 0 [] 0 false)) := by
  unfold State.homeServe PeerMsg.req
  simp only [h, hp, Bool.false_eq_true, if_false]
  rfl

theorem homeServe_wrc (h : m.op = 0x09) (hp : m.poison = false) :
    s.homeServe m.req = some (s.peerWrite m (m.line + m.addr % 64 / 16 * 16) (padTo 16 m.data) (.set (bitB m.tags 0)) (m.replyWith 0x19 0 [] 0 false)) := by
  unfold State.homeServe PeerMsg.req
  simp only [h, hp, Bool.false_eq_true, if_false]
  rfl

/-- The bytes an atomic of a peer works on. -/
def PeerMsg.atomLen (m : PeerMsg) : Nat := if m.arg / 8 % 2 = 1 then 8 else 4
def PeerMsg.atomAt (m : PeerMsg) : Nat := m.line + m.addr % 64 / m.atomLen * m.atomLen

/-- The value a peer's atomic stores, if it stores one. -/
def PeerMsg.atomNew (m : PeerMsg) (old : Nat) : Option Nat :=
  atomFn (m.arg % 8) (8 * m.atomLen) old (bytesNat (m.data.take 8) % 2 ^ (8 * m.atomLen)) (bytesNat ((m.data.drop 8).take 8) % 2 ^ (8 * m.atomLen))

/-- What a peer's atomic is answered. -/
def PeerMsg.atomAnswer (m : PeerMsg) (old : Nat) : PeerMsg := m.replyWith 0x18 0 (padTo 64 (natBytes m.atomLen old)) 0 false

theorem homeServe_atm_kept (h : m.op = 0x07) (hp : s.poisoned m.line = false) (hn : m.atomNew (s.readNat m.atomAt m.atomLen) = none) :
    s.homeServe m.req = some ((s.setPeers m.line ((s.peersOf m.line).drop m.port)).send (m.atomAnswer (s.readNat m.atomAt m.atomLen))) := by
  unfold PeerMsg.atomNew PeerMsg.atomAt PeerMsg.atomLen at hn
  have hp' : (s.setPeers m.line ((s.peersOf m.line).drop m.port)).poisoned m.line = false := hp
  unfold State.homeServe PeerMsg.req
  simp only [h, hp', Bool.false_eq_true, if_false]
  rw [hn]
  rfl

theorem homeServe_atm_stored {n : Nat} (h : m.op = 0x07) (hp : s.poisoned m.line = false) (hn : m.atomNew (s.readNat m.atomAt m.atomLen) = some n) :
    s.homeServe m.req = some (s.peerWrite m m.atomAt (natBytes m.atomLen (n % 2 ^ (8 * m.atomLen))) .clear (m.atomAnswer (s.readNat m.atomAt m.atomLen))) := by
  unfold PeerMsg.atomNew PeerMsg.atomAt PeerMsg.atomLen at hn
  have hp' : (s.setPeers m.line ((s.peersOf m.line).drop m.port)).poisoned m.line = false := hp
  unfold State.homeServe PeerMsg.req
  simp only [h, hp', Bool.false_eq_true, if_false]
  rw [hn]
  exact (apply_ite some _ _ _).symm

end

section
variable {s : State} {p : PortId} {m : PeerMsg}

/-- A peer's write that is served: its bytes, its tags and its answer. -/
theorem write_served {op : GOp} {a : Nat} {bs : List Byte} {tr : TagRule} {q : PeerMsg} (h : Carries s p) (hp : m.port = p.val)
    (hm : s.peerMsg m = some (s.homeArrive m op)) (ha : Admitted s m op) (he : s.entriesIn a bs.length = [])
    (hs : (s.withReqs [m.req]).homeServe m.req = some ((s.withReqs [m.req]).peerWrite m a bs tr q)) :
    ∃ t, arrive m s = .next t ∧ (∀ x, t.memB x = if a ≤ x ∧ x < a + bs.length then bs.getD (x - a) 0 else s.memB x) ∧
      (∀ x, a ≤ x → x < a + bs.length → t.tagAt x = tr.bit) ∧ q ∈ t.peerOut := by
  obtain ⟨hq, hmem, htag, hreq⟩ := peerWrite_spec (s := s.withReqs [m.req]) (m := m) (tr := tr) (q := q) he ha.free.purses
  exact ⟨_, h.request hp ha hm hs hreq, hmem, htag, hq⟩

theorem wrl_served (h : Carries s p) (hp : m.port = p.val) (ho : m.op = 0x04) (hm : s.peerMsg m = some (s.homeArrive m .write))
    (hpo : m.poison = false) (hd : padTo 64 m.data = m.data) (ha : Admitted s m .write) :
    ∃ t, arrive m s = .next t ∧ (∀ j, j < 64 → t.memB (m.line + j) = m.data.getD j 0) ∧
      (∀ x, x < m.line ∨ m.line + 64 ≤ x → t.memB x = s.memB x) ∧ (∀ j, j < 4 → t.tagAt (m.line + 16 * j) = false) ∧
      m.replyWith 0x19 0 [] 0 false ∈ t.peerOut := by
  have hlen : m.data.length = 64 := by rw [← hd, padTo_length]
  have hs := homeServe_wrl (s.withReqs [m.req]) ho hpo
  rw [hd] at hs
  obtain ⟨t, ht, hmem, htag, hq⟩ := write_served h hp hm ha (by rw [hlen]; exact ha.free.entries) hs
  rw [hlen] at hmem htag
  refine ⟨t, ht, fun j hj => ?_, fun x hx => ?_, fun j hj => htag _ (by omega) (by omega), hq⟩
  · rw [hmem, if_pos (by omega), Nat.add_sub_cancel_left]
  · rw [hmem, if_neg (by omega)]

theorem wrp_served (h : Carries s p) (hp : m.port = p.val) (ho : m.op = 0x05) (hm : s.peerMsg m = some (s.homeArrive m .write))
    (hpo : m.poison = false) (hd : padTo 64 m.data = m.data) (ha : Admitted s m .write) {o n : Nat} (heo : argOff m.arg = o)
    (hen : min (argLen m.arg) (64 - o) = n) (he : s.entriesIn (m.line + o) n = []) :
    ∃ t, arrive m s = .next t ∧ (∀ j, j < n → t.memB (m.line + o + j) = m.data.getD j 0) ∧
      (∀ x, x < m.line + o ∨ m.line + o + n ≤ x → t.memB x = s.memB x) ∧ m.replyWith 0x19 0 [] 0 false ∈ t.peerOut := by
  have hs := homeServe_wrp (s.withReqs [m.req]) ho hpo
  rw [heo, hen] at hs
  have hdl : m.data.length = 64 := by rw [← hd, padTo_length]
  have hlen : (m.data.take n).length = n := by rw [List.length_take]; omega
  obtain ⟨t, ht, hmem, -, hq⟩ := write_served h hp hm ha (by rw [hlen]; exact he) hs
  rw [hlen] at hmem
  refine ⟨t, ht, fun j hj => ?_, fun x hx => ?_, hq⟩
  · rw [hmem, if_pos (by omega), Nat.add_sub_cancel_left, getD_take hj]
  · rw [hmem, if_neg (by omega)]

theorem wrc_served (h : Carries s p) (hp : m.port = p.val) (ho : m.op = 0x09) (hm : s.peerMsg m = some (s.homeArrive m .coinStore))
    (hpo : m.poison = false) (ha : Admitted s m .coinStore) {g : Nat} (hg : m.line + m.addr % 64 / 16 * 16 = g) (he : s.entriesIn g 16 = []) :
    ∃ t, arrive m s = .next t ∧ (∀ j, j < 16 → t.memB (g + j) = (padTo 16 m.data).getD j 0) ∧ t.tagAt g = bitB m.tags 0 ∧
      m.replyWith 0x19 0 [] 0 false ∈ t.peerOut := by
  have hs := homeServe_wrc (s.withReqs [m.req]) ho hpo
  rw [hg] at hs
  obtain ⟨t, ht, hmem, htag, hq⟩ := write_served h hp hm ha (by rw [padTo_length]; exact he) hs
  rw [padTo_length] at hmem htag
  refine ⟨t, ht, fun j hj => ?_, htag _ (by omega) (by omega), hq⟩
  rw [hmem, if_pos (by omega), Nat.add_sub_cancel_left]

/-- An atomic is answered with the old value, and leaves its function's value if it has one. -/
theorem atm_served (h : Carries s p) (hp : m.port = p.val) (ho : m.op = 0x07) (hm : s.peerMsg m = some (s.homeArrive m .atomic))
    (ha : Admitted s m .atomic) (hpo : s.poisoned m.line = false) (he : s.entriesIn m.atomAt m.atomLen = []) :
    ∃ t, arrive m s = .next t ∧ m.atomAnswer (s.readNat m.atomAt m.atomLen) ∈ t.peerOut ∧
      t.readNat m.atomAt m.atomLen = (m.atomNew (s.readNat m.atomAt m.atomLen)).getD (s.readNat m.atomAt m.atomLen) % 2 ^ (8 * m.atomLen) := by
  have hold : (s.withReqs [m.req]).readNat m.atomAt m.atomLen = s.readNat m.atomAt m.atomLen := congrArg bytesNat (withReqs_readBytes ..)
  cases hn : m.atomNew (s.readNat m.atomAt m.atomLen) with
  | none =>
    have hs := homeServe_atm_kept (s.withReqs [m.req]) ho hpo (by rw [hold, hn])
    rw [hold] at hs
    refine ⟨_, h.request hp ha hm hs (by simp), mem_send _ _, ?_⟩
    rw [Option.getD_none, Nat.mod_eq_of_lt (readNat_lt ..)]
    exact congrArg bytesNat (readBytes_of_mem (by simp) _ _)
  | some n =>
    have hs := homeServe_atm_stored (s.withReqs [m.req]) ho hpo (by rw [hold, hn])
    rw [hold] at hs
    obtain ⟨t, ht, hmem, -, hq⟩ := write_served h hp hm ha (by rw [natBytes_length]; exact he) hs
    rw [natBytes_length] at hmem
    refine ⟨t, ht, hq, ?_⟩
    have hread := readBytes_of_stored (t := t) (a := m.atomAt) (bs := natBytes m.atomLen (n % 2 ^ (8 * m.atomLen))) fun j hj => by
      rw [natBytes_length] at hj
      rw [hmem, if_pos (by omega), Nat.add_sub_cancel_left]
    rw [natBytes_length] at hread
    rw [Option.getD_some, State.readNat, hread, bytesNat_natBytes, pow_mul]
    exact Nat.mod_mod _ _

end

end Sys2Proof.Machine

namespace Sys2Proof.Machine

/-! Write-back by the peer that owns a line -/

theorem bitB_drop (h : Holders) {i : Nat} (hi : i < 16) : bitB (h.drop i).who i = false := by
  unfold Holders.drop bitB
  have h2 : (BitVec.ofNat 16 (2 ^ i)).getLsbD i = true := by
    rw [BitVec.getLsbD_ofNat, Nat.testBit_two_pow_self]
    simp [hi]
  simp only [BitVec.getLsbD_and, BitVec.getLsbD_not, h2, Bool.not_true, Bool.and_false]

/-- The four tags of a line as `tags` gives them. -/
def State.tagsSet (s : State) (l : Nat) (tags : BitVec 4) : State :=
  (List.range 4).foldl (fun s' j => s'.setTag (l + 16 * j) (bitB tags j)) s

theorem tagsSet_offStore (s : State) (l : Nat) (tags : BitVec 4) : (s.tagsSet l tags).offStore = s.offStore :=
  foldl_keeps State.offStore _ (fun t _ => setTag_offStore t _ _) _ s

theorem tagsSet_memB (s : State) (l : Nat) (tags : BitVec 4) (x : Nat) : (s.tagsSet l tags).memB x = s.memB x :=
  congrArg (fun m => SMap.get zeroByte m x) (foldl_keeps State.mem _ (fun t _ => State.setTag_mem t _ _) _ s)

theorem tagsSet_tagAt (s : State) {l : Nat} (hl : l % 16 = 0) (tags : BitVec 4) {j : Nat} (hj : j < 4) :
    (s.tagsSet l tags).tagAt (l + 16 * j) = bitB tags j := by
  have hr : List.range 4 = [0, 1, 2, 3] := rfl
  unfold State.tagsSet
  rw [hr]
  simp only [List.foldl_cons, List.foldl_nil, State.tagAt_setTag]
  have hne : ∀ i, i < 4 → ((l + 16 * j) / 16 = (l + 16 * i) / 16 ↔ j = i) := fun i hi => by omega
  simp only [hne, Nat.reduceLT]
  rcases (by omega : j = 0 ∨ j = 1 ∨ j = 2 ∨ j = 3) with rfl | rfl | rfl | rfl <;> rfl

/-- A line written back that meets no purse entry: its bytes and its tags. -/
theorem lineWrite_spec {s : State} {l : Nat} {bs : List Byte} (hl : l % 16 = 0) (hb : bs.length = 64) (he : s.entriesIn l 64 = []) (tags : BitVec 4) :
    let w := s.lineWrite l bs tags false
    w.refused = false ∧ (∀ j, j < 64 → w.s.memB (l + j) = bs.getD j 0) ∧ (∀ j, j < 4 → w.s.tagAt (l + 16 * j) = bitB tags j) ∧
      w.s.offStore = s.offStore := by
  have heq : s.lineWrite l bs tags false = ⟨(s.localWrite l bs .clear true none).s.tagsSet l tags, (s.localWrite l bs .clear true none).refused⟩ := by
    unfold State.lineWrite
    rw [he]
    simp only [List.filter_nil, List.any_nil, Bool.false_eq_true, if_false]
    rfl
  obtain ⟨hr, hmem, -, hoff⟩ := localWrite_spec (s := s) (a := l) (bs := bs) (by rw [hb]; exact he) .clear none
  dsimp only
  rw [heq]
  refine ⟨hr, fun j hj => ?_, fun j hj => tagsSet_tagAt _ hl _ hj, (tagsSet_offStore ..).trans hoff⟩
  rw [tagsSet_memB, hmem, if_pos (by omega), Nat.add_sub_cancel_left]

/-- What a home slice does with the write-back of a line's owner. -/
theorem homeServe_wbk (s : State) {m : PeerMsg} (h : m.op = 0x06) (hp : m.poison = false) (hx : (s.peersOf m.line).excl = true)
    (hw : bitB (s.peersOf m.line).who m.port = true) :
    s.homeServe m.req = some
      (let w := s.lineWrite m.line (padTo 64 m.data) m.tags false
       let t := w.s.setPeers m.line ((w.s.peersOf m.line).drop m.port)
       if w.refused then t.denyPeer m 1 else t.signalAfter s.nextId (.peer (m.replyWith 0x19 0 [] 0 false))) := by
  unfold State.homeServe PeerMsg.req
  simp only [h, hp, hx, hw, Bool.and_self, if_true]

theorem clusterSelf_port (p : PortId) : clusterSelf (pp p.val) = none := by
  unfold clusterSelf pp
  rw [if_neg (by omega)]

theorem peerSelf_port (p : PortId) : peerSelf (pp p.val) = some p.val := by
  have := p.isLt
  unfold peerSelf pp
  rw [if_pos (by omega), Nat.add_sub_cancel_left]

/-- A line written back by the peer that owns it. -/
theorem wbk_served {s : State} {p : PortId} {m : PeerMsg} (h : Carries s p) (hp : m.port = p.val) (ho : m.op = 0x06) (hpo : m.poison = false) (hd : padTo 64 m.data = m.data)
    (hm : s.peerMsg m = some (s.withReqs (s.homeReqs ++ [m.req])).serveLines) (hq : s.homeReqs = []) (hlw : s.lockWaits = [])
    (hx : (s.peersOf m.line).excl = true) (hb : bitB (s.peersOf m.line).who m.port = true) (hsn : ∀ x ∈ s.snoops, x.line ≠ m.line)
    (hcl : s.cellLocks = []) (hcc : conflicts (s.clustersOf m.line) none true = []) (hcp : conflicts (s.peersOf m.line) (some m.port) true = [])
    (he : s.entriesIn m.line 64 = []) (hpw : s.purseWrs = []) :
    ∃ t, arrive m s = .next t ∧ (∀ j, j < 64 → t.memB (m.line + j) = m.data.getD j 0) ∧
      (∀ j, j < 4 → t.tagAt (m.line + 16 * j) = bitB m.tags j) ∧ bitB (t.peersOf m.line).who m.port = false ∧
      m.replyWith 0x19 0 [] 0 false ∈ t.peerOut := by
  have hport : m.port < 16 := by have := p.isLt; omega
  have hs := homeServe_wbk (s.withReqs [m.req]) ho hpo hx hb
  rw [hd] at hs
  obtain ⟨hr, hmem, htag, hoff⟩ := lineWrite_spec (s := s.withReqs [m.req]) (l := m.line) (bs := m.data) (by unfold PeerMsg.line; omega)
    (by rw [← hd, padTo_length]) he m.tags
  have hreqs := offStore_field State.homeReqs (fun _ => rfl) hoff
  have hwrs := offStore_field State.purseWrs (fun _ => rfl) hoff
  generalize (s.withReqs [m.req]).lineWrite m.line m.data m.tags false = w at *
  dsimp only at hs
  rw [hr, if_neg Bool.false_ne_true, signalAfter_settled ((setPeers_purseWrs ..).trans (hwrs.trans hpw))] at hs
  have hex : m.req.excl = true := by simp [PeerMsg.req, ho, needsExcl]
  have hone := serveOne_served (s := s.withReqs [m.req]) (r := m.req) rfl (by rw [hex, show m.req.unit = pp p.val from congrArg pp hp, clusterSelf_port]; exact hcc)
    (by rw [hex, show m.req.unit = pp p.val from congrArg pp hp, peerSelf_port, ← hp]; exact hcp) hsn (.inr (.inr hcl)) hpw (fun hc => by omega) hs
  have hline := serveLines_single (s := s.withReqs [m.req]) rfl hlw hone (by
    rw [withReqs_homeReqs]
    exact (congrArg (·.erase m.req) hreqs).trans (List.erase_cons_head ..))
  rw [hq, List.nil_append, hline] at hm
  refine ⟨_, h.takes hp hm, hmem, htag, ?_, mem_send _ _⟩
  rw [withReqs_peersOf]
  exact (congrArg (fun h => bitB (Holders.who h) m.port) (peersOf_setPeers w.s m.line _)).trans (bitB_drop _ hport)

end Sys2Proof.Machine

namespace Sys2Proof.Machine

/-! Releases and commits of a peer's cell lock -/

/-- The only lock there is, unlocked, with nobody waiting. -/
theorem unlock_only {s : State} {l : CellLock} (hc : s.cellLocks = [l]) (hw : s.lockWaits = []) : s.unlock l.line l.owner = s.withLocks [] := by
  have hf : s.cellLocks.filter (fun x => !(x.line == l.line && x.owner == l.owner)) = [] := by
    rw [hc]
    simp
  have hn : s.lockWaits.length = 0 := by rw [hw, List.length_nil]
  unfold State.unlock
  rw [hf, hn]
  rfl

/-- With no request and no lock waiting, none is given up. -/
theorem waits_dropped {s : State} (hq : s.homeReqs = []) (hw : s.lockWaits = []) : ({ s with lockWaits := [], homeReqs := [] } : State) = s := by
  cases s
  subst hq hw
  rfl

/-- A release of the only lock, held by the peer that sends it. -/
theorem relArrive_only {s : State} {m : PeerMsg} {l own : Nat} (hq : s.homeReqs = []) (hw : s.lockWaits = [])
    (hc : s.cellLocks = [⟨l, .peer m.port m.txid own⟩]) : s.relArrive m = (s.withLocks []).reply m 0x24 0 [] 0 false := by
  unfold State.relArrive
  dsimp only
  rw [hq, hw, List.filter_nil, List.filter_nil, waits_dropped hq hw, hc]
  simp only [List.filter_cons, beq_self_eq_true, Bool.and_self, if_true, List.filter_nil, List.foldl_cons, List.foldl_nil]
  rw [unlock_only (l := ⟨l, .peer m.port m.txid own⟩) hc hw]
  exact serveLines_nil hq hw

/-- A peer's release of the only lock frees it and is answered. -/
theorem rel_served {s : State} {p : PortId} {m : PeerMsg} {l own : Nat} (h : Carries s p) (hp : m.port = p.val)
    (hm : s.peerMsg m = some (s.relArrive m)) (hq : s.homeReqs = []) (hw : s.lockWaits = []) (hc : s.cellLocks = [⟨l, .peer m.port m.txid own⟩]) :
    ∃ t, arrive m s = .next t ∧ t.cellLocks = [] ∧ t.mem = s.mem ∧ m.replyWith 0x24 0 [] 0 false ∈ t.peerOut := by
  rw [relArrive_only hq hw hc] at hm
  exact ⟨_, h.takes hp hm, withLocks_cellLocks s [], by simp, mem_reply ..⟩

/-! What staging a record changes -/

/-- The state with the record stream's place, the staged records and the messages on their way taken out. -/
def State.offStage (s : State) : State := { s with nextId := 0, staging := [], jPrev := [], peerOut := [] }

/-- The state with the messages on their way taken out. -/
def State.offOut (s : State) : State := { s with peerOut := [] }

theorem offOut_field {α : Type} (f : State → α) (hf : ∀ s, f s.offOut = f s) {s t : State} (h : t.offOut = s.offOut) : f t = f s := by
  rw [← hf t, h, hf]

@[simp] theorem send_offOut (s : State) (m : PeerMsg) : (s.send m).offOut = s.offOut := (rfl)

@[simp] theorem sendRecord_offOut (s : State) (n tx : Nat) (bs : List Byte) : (s.sendRecord n tx bs).offOut = s.offOut := by
  unfold State.sendRecord
  split
  · rfl
  · exact foldl_keeps State.offOut _ (fun t _ => send_offOut t _) _ s

/-- Staging a record keeps every field but the stream's place, the staged records, the messages and the counters. -/
theorem stage_field {α : Type} (f : State → α) (hf : ∀ s, f (State.offStage s) = f s) (hc : ∀ (s : State) (u ev n : Nat), f (s.count u ev n) = f s)
    (s : State) (n : Nat) (bs : List Byte) (seq : Word) (links toLocal toMirror : Bool) : f (s.stage n bs seq links toLocal toMirror) = f s := by
  have hs (t : State) (tx : Nat) : (t.sendRecord n tx bs).offStage = t.offStage := offOut_field State.offStage (fun _ => rfl) (sendRecord_offOut t n tx bs)
  unfold State.stage
  dsimp only
  rw [hc, ← hf, apply_ite State.offStage, hs, ite_self, ← hf s]
  cases links <;> rfl

/-- A linked record is its stream's last. -/
theorem stage_sprev (s : State) (n : Nat) (bs : List Byte) (seq : Word) (toLocal toMirror : Bool) : (s.stage n bs seq true toLocal toMirror).sprev n = seq := by
  have hs (t : State) (tx : Nat) : (t.sendRecord n tx bs).jPrev = t.jPrev := offOut_field State.jPrev (fun _ => rfl) (sendRecord_offOut t n tx bs)
  unfold State.stage State.sprev
  dsimp only
  rw [offHub_field State.jPrev (fun _ => rfl) (count_offHub ..), apply_ite State.jPrev, hs, ite_self]
  exact SMap.get_set_same (d := noPrev) s.jPrev n seq

/-- The purse entries of a stretch of memory are known from one register. -/
theorem entriesIn_of_reg {s t : State} (h : t.reg (R.VLT_PTBASE 0x100) = s.reg (R.VLT_PTBASE 0x100)) (a n : Nat) : t.entriesIn a n = s.entriesIn a n := by
  unfold State.entriesIn State.ptbBase State.ptbCount State.ptbOk State.ptbSize State.rf
  simp only [h]

/-! Commits -/

theorem finishLine_settled {s : State} (h : s.purseWrs = []) (a : Nat) : s.finishLine a = s := by
  unfold State.finishLine
  rw [h, List.filter_nil, List.map_nil, List.foldl_nil]

theorem finishSince_settled {s : State} (h : s.purseWrs = []) (n : Nat) : s.finishSince n = s := by
  unfold State.finishSince
  rw [h, List.filter_nil, List.map_nil, List.foldl_nil]

/-- With no purse write under way, a settled write that meets no purse entry is a plain one. -/
theorem settledWrite_plain {s : State} {a : Nat} {bs : List Byte} (hw : s.purseWrs = []) (he : s.entriesIn a bs.length = []) :
    s.settledWrite a bs true = s.localWrite a bs .clear true none := by
  have hfold : (linesOf a bs.length).foldl (fun s l => s.finishLine l) s = s := by
    induction linesOf a bs.length with
    | nil => rfl
    | cons l ls ih => rw [List.foldl_cons, finishLine_settled hw, ih]
  obtain ⟨-, -, -, hoff⟩ := localWrite_spec he .clear none
  have hwrs := (offStore_field State.purseWrs (fun _ => rfl) hoff).trans hw
  unfold State.settledWrite
  rw [hfold]
  dsimp only
  rw [finishSince_settled hwrs]

/-- A commit to the only locked cell writes it and frees it. -/
theorem commitCell_only {s : State} {l : CellLock} {n : Nat} {c : List Byte} (hc : s.cellLocks = [l]) (hw : s.lockWaits = []) (hp : s.purseWrs = [])
    (he : s.entriesIn l.line c.length = []) :
    let t := s.commitCell n l c
    t.cellLocks = [] ∧ (∀ x, t.memB x = if l.line ≤ x ∧ x < l.line + c.length then c.getD (x - l.line) 0 else s.memB x) ∧
      t.homeReqs = s.homeReqs ∧ t.jPrev = s.jPrev := by
  dsimp only
  obtain ⟨hr, hmem, -, hoff⟩ := localWrite_spec he .clear none
  have hlocks := (offStore_field State.cellLocks (fun _ => rfl) hoff).trans hc
  have hwaits := (offStore_field State.lockWaits (fun _ => rfl) hoff).trans hw
  have hreqs := offStore_field State.homeReqs (fun _ => rfl) hoff
  have hprev := offStore_field State.jPrev (fun _ => rfl) hoff
  unfold State.commitCell
  rw [settledWrite_plain hp he]
  generalize s.localWrite l.line c .clear true none = w at *
  dsimp only
  rw [hr, if_neg Bool.false_ne_true, unlock_only hlocks hwaits]
  exact ⟨withLocks_cellLocks .., hmem, hreqs, hprev⟩

/-- What a posting's participant stages keeps every other field, and links its stream to the cell's new number. -/
theorem participant_field {α : Type} (f : State → α) (hf : ∀ s, f (State.offStage s) = f s) (hc : ∀ (s : State) (u ev n : Nat), f (s.count u ev n) = f s)
    (s : State) (n lead l : Nat) (c : List Byte) : f (s.participant n lead l c) = f s := by
  unfold State.participant State.stagePosting
  exact stage_field f hf hc ..

theorem participant_sprev (s : State) (n lead l : Nat) (c : List Byte) : (s.participant n lead l c).sprev n = cellLast c := by
  unfold State.participant State.stagePosting
  exact stage_sprev ..

/-- A commit of the peer that holds the only lock, with room to stage its record. -/
theorem peerCommit_only {s : State} {m : PeerMsg} {l own : Nat} (hc : s.cellLocks = [⟨l, .peer m.port m.txid own⟩])
    (hs : s.sealed.contains (s.cellTeller l) = false) (hn : s.noteOf m.port m.txid = none) (hr : s.stagingRoom (s.cellTeller l) 96 = true) :
    s.peerCommit m = some (((s.participant (s.cellTeller l) m.src l (padTo 64 m.data)).commitCell (s.cellTeller l) ⟨l, .peer m.port m.txid own⟩
      (padTo 64 m.data)).reply m 0x24 0 [] 0 false) := by
  unfold State.peerCommit
  rw [hc]
  simp only [List.find?_cons, beq_self_eq_true, Bool.and_self, hs, hn, hr, Bool.false_eq_true, if_false, Bool.not_true]

theorem homeServe_cmt (s : State) {m : PeerMsg} (h : m.op = 0x22) : s.homeServe m.req = s.peerCommit m := by
  cases m; cases h; rfl

/-- A commit under its lock writes the cell, frees the lock, stages its record and is answered. -/
theorem cmt_served {s : State} {p : PortId} {m : PeerMsg} {own : Nat} (h : Carries s p) (hp : m.port = p.val) (ho : m.op = 0x22) (hd : padTo 64 m.data = m.data)
    (hm : s.peerMsg m = some (s.withReqs (s.homeReqs ++ [m.req])).serveLines) (hq : s.homeReqs = []) (hlw : s.lockWaits = [])
    (hsn : ∀ x ∈ s.snoops, x.line ≠ m.line) (hc : s.cellLocks = [⟨m.line, .peer m.port m.txid own⟩]) (hpw : s.purseWrs = [])
    (hcl : s.clustersOf m.line = ⟨0, false⟩) (hpe : s.peersOf m.line = ⟨0, false⟩) (he : s.entriesIn m.line 64 = [])
    (hs : s.sealed.contains (s.cellTeller m.line) = false) (hn : s.noteOf m.port m.txid = none) (hr : s.stagingRoom (s.cellTeller m.line) 96 = true) :
    ∃ t, arrive m s = .next t ∧ t.cellLocks = [] ∧ (∀ j, j < 64 → t.memB (m.line + j) = m.data.getD j 0) ∧
      (∀ x, x < m.line ∨ m.line + 64 ≤ x → t.memB x = s.memB x) ∧ t.sprev (s.cellTeller m.line) = cellLast m.data ∧
      m.replyWith 0x24 0 [] 0 false ∈ t.peerOut := by
  have hserve := (homeServe_cmt (s.withReqs [m.req]) ho).trans (peerCommit_only hc hs hn hr)
  rw [show (s.withReqs [m.req]).cellTeller m.line = s.cellTeller m.line from rfl, hd] at hserve
  have hlen : m.data.length = 64 := by rw [← hd, padTo_length]
  have hfield {α : Type} (f : State → α) (hf : ∀ s, f (State.offStage s) = f s) (hh : ∀ s, f s.offHub = f s) :
      f ((s.withReqs [m.req]).participant (s.cellTeller m.line) m.src m.line m.data) = f (s.withReqs [m.req]) :=
    participant_field f hf (fun s u ev n => offHub_field f hh (count_offHub s u ev n)) ..
  have hreg := participant_field (fun s => s.reg (R.VLT_PTBASE 0x100)) (fun _ => rfl) (fun s u ev n => reg_count (by decide) s u ev n)
    (s.withReqs [m.req]) (s.cellTeller m.line) m.src m.line m.data
  have hlocks := (hfield State.cellLocks (fun _ => rfl) fun _ => rfl).trans hc
  have hwaits := (hfield State.lockWaits (fun _ => rfl) fun _ => rfl).trans hlw
  have hwrs := (hfield State.purseWrs (fun _ => rfl) fun _ => rfl).trans hpw
  have hreqs := hfield State.homeReqs (fun _ => rfl) fun _ => rfl
  have hmem := hfield State.mem (fun _ => rfl) fun _ => rfl
  have hprev := participant_sprev (s.withReqs [m.req]) (s.cellTeller m.line) m.src m.line m.data
  generalize (s.withReqs [m.req]).participant (s.cellTeller m.line) m.src m.line m.data = u at *
  obtain ⟨hcl', hmem', hreqs', hprev'⟩ := commitCell_only (n := s.cellTeller m.line) hlocks hwaits hwrs
    (c := m.data) (by rw [hlen, entriesIn_of_reg hreg]; exact he)
  generalize u.commitCell (s.cellTeller m.line) ⟨m.line, .peer m.port m.txid own⟩ m.data = w at *
  rw [hlen] at hmem'
  have hone := serveOne_served (s := s.withReqs [m.req]) (r := m.req) rfl
    (by rw [show (s.withReqs [m.req]).clustersOf m.req.line = ⟨0, false⟩ from hcl, conflicts_none])
    (by rw [show (s.withReqs [m.req]).peersOf m.req.line = ⟨0, false⟩ from hpe, conflicts_none]) hsn (.inr (.inl ho)) hpw (fun hc => by omega) hserve
  have hline := serveLines_single (s := s.withReqs [m.req]) rfl hlw hone (by
    rw [withReqs_homeReqs, reply_homeReqs, hreqs', hreqs]
    exact List.erase_cons_head ..)
  rw [hq, List.nil_append, hline] at hm
  refine ⟨_, h.takes hp hm, hcl', fun j hj => ?_, fun x hx => ?_, ?_, mem_reply ..⟩
  · exact (hmem' _).trans (by dsimp only; rw [if_pos (by omega), Nat.add_sub_cancel_left])
  · refine (hmem' _).trans ?_
    dsimp only
    rw [if_neg (by omega)]
    exact congrArg (fun m => SMap.get zeroByte m x) hmem
  · exact (congrArg (fun j => SMap.get noPrev j (s.cellTeller m.line)) hprev').trans hprev

end Sys2Proof.Machine

namespace Sys2Proof.Machine

/-! Replies reach the transactions and locks that wait for them -/

theorem txOf_eq {s : State} {p tx : Nat} {q : PeerTx} (h : s.txOf p tx = some q) : q.port = p ∧ q.txid = tx := by
  have := List.find?_some h
  simp only [Bool.and_eq_true, beq_iff_eq] at this
  exact this.1

theorem filterRoom_room {s : State} {p : Nat} (h : (s.rlines.filter (fun l => l.pa / 0x100000000000 == s.peerSock p + 1)).length < 1048576) :
    s.filterRoom p = s := by
  unfold State.filterRoom
  exact if_pos h

/-- The line that a data reply brings. -/
def PeerMsg.lineFor (m : PeerMsg) (q : PeerTx) : RLine := ⟨q.pa / 64 * 64, m.data, m.tags, m.poison, q.op == 0x02, false⟩

/-- Line `r` of another socket kept in place of what was kept of it, with no core's copy. -/
def State.lineKept (s : State) (r : RLine) : State :=
  { s.setL2s r.pa 0 with rlines := s.rlines.filter (fun x => x.pa != r.pa) ++ [r] }

/-- Data for a line that a read asked for is kept with the lines of other sockets. -/
theorem datArrive_line {s : State} {m : PeerMsg} {q : PeerTx} (hd : padTo 64 m.data = m.data) (h : s.txOf m.port m.txid = some q)
    (ho : q.op = 0x01 ∨ q.op = 0x02) (hr : (s.rlines.filter (fun l => l.pa / 0x100000000000 == s.peerSock m.port + 1)).length < 1048576) :
    (s.datArrive m).peerTx = s.peerTx.erase q ∧ m.lineFor q ∈ (s.datArrive m).rlines := by
  have hroom : (s.dropTx q).filterRoom m.port = s.dropTx q := filterRoom_room hr
  have heq : s.datArrive m = (s.dropTx q).lineKept (m.lineFor q) := by
    unfold State.datArrive State.lineKept PeerMsg.lineFor
    rw [h]
    rcases ho with ho | ho <;> simp only [ho, hroom, hd] <;> rfl
  rw [heq]
  exact ⟨rfl, List.mem_append_right _ (List.mem_singleton_self _)⟩

/-- Data that an uncached read, an atomic or a coin read asked for waits at its transaction. -/
theorem datArrive_reply {s : State} {m : PeerMsg} {q : PeerTx} (h : s.txOf m.port m.txid = some q) (ho : q.op = 0x03 ∨ q.op = 0x07 ∨ q.op = 0x08) :
    s.datArrive m = s.putReply q (.data m.data m.tags m.poison) := by
  unfold State.datArrive
  rw [h]
  rcases ho with ho | ho | ho <;> simp only [ho]

section
variable {s : State} {p tx : Nat} {q : PeerTx} (h : s.txOf p tx = some q)
include h

theorem cmpArrive_stored (hs : isStore q.op = true) : s.cmpArrive p tx 0 = (s.dropTx q).storeAnswered tx := by
  unfold State.cmpArrive
  rw [h]
  simp only [hs, if_true, (txOf_eq h).2]

theorem cmpArrive_refused {arg : Nat} (hs : isStore q.op = true) (ha : arg ≠ 0) : s.cmpArrive p tx arg = s.storeRefused q := by
  unfold State.cmpArrive
  rw [h]
  simp only [hs, if_true, if_neg ha]

/-- The answer to a write-back of an agent that is no core: kept, or its agent told of the refusal. -/
theorem cmpArrive_writeBack {arg : Nat} (ho : q.op = 0x06) (hu : 0x80 ≤ q.src) :
    s.cmpArrive p tx arg = if arg = 0 then s.dropTx q else (s.dropTx q).ringGuardOf q.src := by
  unfold State.cmpArrive
  rw [h]
  simp only [ho, hu, decide_true, Bool.and_self, if_true]
  exact if_neg (by decide)

theorem cmpArrive_post {arg : Nat} (ho : q.op = 0x25) : s.cmpArrive p tx arg = s.postRefused q := by
  unfold State.cmpArrive
  rw [h]
  simp only [ho]
  rfl

theorem cmpArrive_other {arg : Nat} (hs : isStore q.op = false) (hw : q.op ≠ 0x06 ∨ q.src < 0x80) (ho : q.op ≠ 0x25) :
    s.cmpArrive p tx arg = s.putReply q (.done arg) := by
  have hn : (q.op = 0x06 && q.src ≥ 0x80) = false := by
    rcases hw with hw | hw
    · simp [hw]
    · simp [Nat.not_le.mpr hw]
  unfold State.cmpArrive
  rw [h]
  simp only [hs, hn, Bool.false_eq_true, if_false, if_neg ho]

theorem prpArrive_post {arg : Nat} (ho : q.op = 0x25) : s.prpArrive p tx arg = s.postAnswered q (arg % 256) := by
  unfold State.prpArrive
  rw [h]
  simp only [ho, if_true]

end

theorem core_eachCore (s : State) (f : CoreId → CoreState → CoreState) (k : CoreId) : (s.eachCore f).core k = f k (s.core k) := by
  simp [State.eachCore, State.core]

@[simp] theorem storeAnswered_peerTx (s : State) (tx : Nat) : (s.storeAnswered tx).peerTx = s.peerTx := by
  unfold State.storeAnswered State.eachCore
  rfl
@[simp] theorem storeAnswered_mem (s : State) (tx : Nat) : (s.storeAnswered tx).mem = s.mem := by
  unfold State.storeAnswered State.eachCore
  rfl
@[simp] theorem dropTx_peerTx (s : State) (q : PeerTx) : (s.dropTx q).peerTx = s.peerTx.erase q := (rfl)
@[simp] theorem dropTx_mem (s : State) (q : PeerTx) : (s.dropTx q).mem = s.mem := (rfl)
@[simp] theorem dropTx_core (s : State) (q : PeerTx) (k : CoreId) : (s.dropTx q).core k = s.core k := (rfl)

theorem storeAnswered_refused (s : State) (tx : Nat) (k : CoreId) : ((s.storeAnswered tx).core k).refused = (s.core k).refused := by
  unfold State.storeAnswered
  rw [core_eachCore]

/-- A refused store of a core becomes a write notice there. -/
theorem storeRefused_core {s : State} {q : PeerTx} (h : q.src < 0x80) :
    (s.storeRefused q).peerTx = s.peerTx.erase q ∧ (s.storeRefused q).mem = s.mem ∧
      ((s.storeRefused q).core (coreOf q.src)).refused = (s.core (coreOf q.src)).refused ++ [⟨q.pa, pp q.port, false, false⟩] := by
  unfold State.storeRefused
  dsimp only
  rw [if_pos h]
  unfold State.refuse
  exact ⟨by simp, by simp, by simp [storeAnswered_refused]⟩

/-! Locks, snoops -/

theorem lgrArrive_granted {s : State} {m : PeerMsg} {x : Posting} {leg i : Nat} (h : s.legOfTx m.port m.txid = some (x, leg))
    (hi : x.phase = .lockReq i) (hp : m.poison = false) (hd : padTo 64 m.data = m.data) : s.lgrArrive m = s.haveLine x.id i leg m.data := by
  unfold State.lgrArrive
  rw [h]
  simp only [hi, hp, hd, Bool.false_eq_true, if_false]

theorem cakArrive_acks {s : State} {p tx : Nat} {x : Posting} {leg pa : Nat} (h : s.legOfTx p tx = some (x, leg))
    (ha : (x.legs[leg]?).bind (·.pa) = some pa) : s.cakArrive p tx = s.commitAck x.id (pa / 64 * 64) := by
  unfold State.cakArrive
  rw [h]
  simp only [ha]

theorem snoopedByPeer_none {s : State} {m : PeerMsg} (h : s.rlineAt (s.windowPa m.port m.line) = none) : s.snoopedByPeer m = s.reply m 0x12 0 [] 0 false := by
  unfold State.snoopedByPeer
  dsimp only
  rw [h]

/-- A snooped line is answered, with its bytes if they were modified. -/
theorem snoopedByPeer_some {s : State} {m : PeerMsg} {r : RLine} (h : s.rlineAt (s.windowPa m.port m.line) = some r) :
    ∃ u : State, u.mem = s.mem ∧
      s.snoopedByPeer m = u.reply m 0x12 0 (if r.dirty then r.data else []) (if r.dirty then r.tags else 0) (r.dirty && r.poison) := by
  refine ⟨if m.op = 0x10 then { s with rlines := s.rlines.filter (·.pa != r.pa) }
      else { s with rlines := s.rlines.map fun x => if x.pa = r.pa then { x with excl := false, dirty := false } else x }, by split <;> rfl, ?_⟩
  unfold State.snoopedByPeer
  dsimp only
  rw [h]
  dsimp only
  cases r.dirty <;> rfl

end Sys2Proof.Machine

namespace Sys2Proof.Machine

/-! Snoop answers, mirror acknowledgements, IPIs, markers and pieces -/

/-- The state with `xs` as the snoops that are out. -/
def State.withSnoops (s : State) (xs : List Snoop) : State := { s with snoops := xs }

/-- A snooped peer that had nothing modified leaves the line's holders; then the requests for the line go on. -/
theorem snoopDone_clean {s : State} {x : Snoop} (ha : ¬ x.agent < 0x130) (hi : x.inval = true) (tags : BitVec 4) (poison : Bool) :
    s.snoopDone x [] tags poison =
      ((s.withSnoops (s.snoops.erase x)).setPeers x.line ((s.peersOf x.line).drop (x.agent - 0x130))).serveLines := by
  unfold State.snoopDone
  simp only [if_true, ha, hi, if_false]
  rfl

/-- The answer of a snooped peer that had nothing modified removes it from the line's holders. -/
theorem srspArrive_clean {s : State} {m : PeerMsg} {x : Snoop} (h : s.snoops.find? (fun x => x.agent == pp m.port && x.txid == m.txid) = some x)
    (hd : m.data = []) (hi : x.inval = true) (hq : s.homeReqs = []) (hw : s.lockWaits = []) (hp : m.port < 16) :
    bitB ((s.srspArrive m).peersOf x.line).who m.port = false ∧ (s.srspArrive m).mem = s.mem := by
  have ha : x.agent = pp m.port := by
    have := List.find?_some h
    simp only [Bool.and_eq_true, beq_iff_eq] at this
    exact this.1
  have hsub : x.agent - 0x130 = m.port := by rw [ha]; unfold pp; omega
  have heq : s.srspArrive m = (s.withSnoops (s.snoops.erase x)).setPeers x.line ((s.peersOf x.line).drop m.port) := by
    unfold State.srspArrive
    rw [h]
    dsimp only
    rw [hd, snoopDone_clean (by rw [ha]; unfold pp; omega) hi, hsub]
    exact serveLines_nil hq hw
  rw [heq, peersOf_setPeers]
  exact ⟨bitB_drop _ hp, setPeers_mem ..⟩

/-! Mirror acknowledgements -/

theorem mirrorAnswer_none {s : State} (h : s.jMirPend = []) (tx : Nat) (ok : Bool) : s.mirrorAnswer tx ok = s := by
  unfold State.mirrorAnswer
  rw [h, List.find?_nil]

theorem durReached_none {s : State} (h : s.postings = []) : s.durReached = s := by
  unfold State.durReached
  rw [h, List.filter_nil, List.foldl_nil]

/-- The state with `rs` as the staged records. -/
def State.withStaging (s : State) (rs : List JRec) : State := { s with staging := rs }

section
variable (s : State) (rs : List JRec)

theorem withStaging_staging : (s.withStaging rs).staging = rs := rfl
theorem withStaging_reg (k : Nat) : (s.withStaging rs).reg k = s.reg k := rfl
theorem withStaging_mem : (s.withStaging rs).mem = s.mem := rfl
theorem withStaging_postings : (s.withStaging rs).postings = s.postings := rfl

end

/-- The acknowledgement of the only staged record: its teller's register takes its number, and it waits for no mirror. -/
theorem mirrorAck_only {s : State} {r : JRec} {tx : Nat} (hs : s.staging = [r]) (hm : r.mirrorOf = none) (hn : r.needMirror = true) (ht : r.txid = tx)
    (hseq : r.seq ≠ 0) :
    s.mirrorAck r.teller tx =
      (s.setReg (R.TLR_JLASTM (tu r.teller)) r.seq).withStaging ([{ r with needMirror := false }].filter fun r => !r.done) := by
  have hhit : (r.teller == r.teller && r.mirrorOf.isNone && r.needMirror && r.txid == tx) = true := by simp [hm, hn, ht]
  unfold State.mirrorAck State.purgeStaging
  simp only [hs, List.find?_cons, hhit, if_neg hseq, State.setReg_staging, List.map_cons, List.map_nil, if_true]
  rfl

/-- The mirror's acknowledgement of the only staged record. -/
theorem jakArrive_only {s : State} {r : JRec} {tx : Nat} (hj : s.jMirPend = []) (hp : s.postings = []) (hs : s.staging = [r]) (hm : r.mirrorOf = none)
    (hn : r.needMirror = true) (ht : r.txid = tx) (hseq : r.seq ≠ 0) :
    (s.jakArrive tx).reg (R.TLR_JLASTM (tu r.teller)) = r.seq ∧ (∀ q ∈ (s.jakArrive tx).staging, q.needMirror = false) ∧
      (s.jakArrive tx).mem = s.mem := by
  have hfind : s.staging.find? (fun r => r.mirrorOf.isNone && r.txid == tx) = some r := by
    rw [hs]
    simp [hm, ht]
  have heq : s.jakArrive tx = s.mirrorAck r.teller tx := by
    unfold State.jakArrive
    rw [mirrorAnswer_none hj]
    dsimp only
    rw [hfind]
    dsimp only
    rw [mirrorAck_only hs hm hn ht hseq]
    exact durReached_none ((withStaging_postings ..).trans ((State.setReg_postings ..).trans hp))
  rw [heq, mirrorAck_only hs hm hn ht hseq, withStaging_reg, withStaging_staging, withStaging_mem]
  refine ⟨State.reg_setReg_same .., fun q hq => ?_, State.setReg_mem ..⟩
  rw [List.mem_singleton.mp (List.mem_filter.mp hq).1]

/-! IPIs -/

/-- The state with `ws` as the IPIs that wait for their port's earlier writes. -/
def State.withRings (s : State) (ws : List RingWait) : State := { s with ringWaits := ws }

theorem withRings_self {s : State} {ws : List RingWait} (h : s.ringWaits = ws) : s.withRings ws = s := by
  cases s
  subst h
  rfl

/-- The IPI that message `m` asks for, which waits for the requests `rs`. -/
def PeerMsg.ring (m : PeerMsg) (rs : List HomeReq) : RingWait := ⟨m.port, m.arg % 128, 0x20 + m.arg / 128 % 8, rs⟩

/-- What a port has asked to write and its home slices have not done. -/
def State.writesOf (s : State) (port : Nat) : List HomeReq :=
  s.homeReqs.filter fun r => r.unit == pp port && (match r.msg with | some x => needsExcl x.op || x.op == 0x22 | none => false)

theorem ipiArrive_eq (s : State) (m : PeerMsg) : s.ipiArrive m = (s.withRings (s.ringWaits ++ [m.ring (s.writesOf m.port)])).fireRings := rfl

/-- One IPI's turn: it waits, or fires. -/
def State.ringTurn (s : State) (w : RingWait) : State :=
  if w.reqs.any s.homeReqs.contains || (s.ringWaits.find? (·.port == w.port)) != some w then s
  else (s.withRings (s.ringWaits.erase w)).firePriv w.core w.k

theorem fireRings_eq (s : State) : s.fireRings = s.ringWaits.foldl State.ringTurn s := rfl

/-- An IPI with nothing before it fires. -/
theorem ipiArrive_free {s : State} {m : PeerMsg} (hq : s.homeReqs = []) (hr : s.ringWaits = []) :
    s.ipiArrive m = s.firePriv (m.arg % 128) (0x20 + m.arg / 128 % 8) := by
  have hw : s.writesOf m.port = [] := by
    unfold State.writesOf
    rw [hq, List.filter_nil]
  have hturn : (s.withRings [m.ring []]).ringTurn (m.ring []) = ((s.withRings [m.ring []]).withRings []).firePriv (m.arg % 128) (0x20 + m.arg / 128 % 8) := by
    unfold State.ringTurn
    simp [State.withRings, PeerMsg.ring]
  rw [ipiArrive_eq, hr, hw, List.nil_append, fireRings_eq]
  refine hturn.trans ?_
  rw [show (s.withRings [m.ring []]).withRings [] = s.withRings [] from rfl, withRings_self hr]

/-- An IPI that waits for a request keeps waiting while others have their turns. -/
theorem ringTurn_keeps {s : State} {w x : RingWait} (hw : w.reqs.any s.homeReqs.contains = true) (hin : w ∈ s.ringWaits) :
    w ∈ (s.ringTurn x).ringWaits ∧ (s.ringTurn x).homeReqs = s.homeReqs ∧ (s.ringTurn x).mem = s.mem := by
  unfold State.ringTurn
  split
  next => exact ⟨hin, rfl, rfl⟩
  next hx =>
    have hne : w ≠ x := by
      rintro rfl
      exact hx (by rw [hw, Bool.true_or])
    have hoff := firePriv_offHub (s.withRings (s.ringWaits.erase x)) x.core x.k
    rw [offHub_field State.ringWaits (fun _ => rfl) hoff, offHub_field State.homeReqs (fun _ => rfl) hoff, offHub_field State.mem (fun _ => rfl) hoff]
    exact ⟨(List.mem_erase_of_ne hne).mpr hin, rfl, rfl⟩

/-- An IPI behind its port's earlier writes waits for them. -/
theorem ipiArrive_waits {s : State} {m : PeerMsg} (h : s.writesOf m.port ≠ []) :
    m.ring (s.writesOf m.port) ∈ (s.ipiArrive m).ringWaits ∧ (s.ipiArrive m).mem = s.mem := by
  have hany : (s.writesOf m.port).any s.homeReqs.contains = true := by
    obtain ⟨r, rs, hr⟩ := List.exists_cons_of_ne_nil h
    have hin : r ∈ s.writesOf m.port := by rw [hr]; exact List.mem_cons_self
    exact List.any_eq_true.mpr ⟨r, hin, List.contains_iff_mem.mpr (List.mem_filter.mp hin).1⟩
  obtain ⟨hin, -, hmem⟩ := foldl_invariant (fun t : State => m.ring (s.writesOf m.port) ∈ t.ringWaits ∧ t.homeReqs = s.homeReqs ∧ t.mem = s.mem) State.ringTurn
    (s.withRings (s.ringWaits ++ [m.ring (s.writesOf m.port)])).ringWaits (fun t ⟨hin, hreq, hmem⟩ x _ => by
      obtain ⟨h1, h2, h3⟩ := ringTurn_keeps (x := x) (by rw [hreq]; exact hany) hin
      exact ⟨h1, h2.trans hreq, h3.trans hmem⟩)
    (b := s.withRings (s.ringWaits ++ [m.ring (s.writesOf m.port)])) ⟨List.mem_append_right _ (List.mem_singleton_self _), rfl, rfl⟩
  rw [ipiArrive_eq, fireRings_eq]
  exact ⟨hin, hmem⟩

end Sys2Proof.Machine

namespace Sys2Proof.Machine

/-! Markers, and messages that come in pieces -/

/-- The state with `fs` as the fence markers that wait. -/
def State.withFncs (s : State) (fs : List FncWait) : State := { s with fncs := fs }

theorem withFncs_self {s : State} {fs : List FncWait} (h : s.fncs = fs) : s.withFncs fs = s := by
  cases s
  subst h
  rfl

/-- A port that no request of waits anywhere has nothing before a marker. -/
theorem peerLive_none {s : State} (hq : s.homeReqs = []) (hw : s.lockWaits = []) (hp : s.postings = []) (hpf : s.pfwParts = []) (hj : s.jParts = [])
    (hjw : s.jWait = []) (hpa : s.parts = []) (p : Nat) : s.peerLive p = [] := by
  simp [State.peerLive, hq, hw, hp, hpf, hj, hjw, hpa]

theorem fncArrive_eq (s : State) (m : PeerMsg) : s.fncArrive m =
    (s.withFncs (s.fncs ++ [⟨m.port, m.txid, s.peerLive m.port, s.ringWaits.filter (·.port == m.port)⟩])).answerFncs := rfl

/-- A marker with nothing before it is answered at once. -/
theorem fncArrive_free {s : State} {m : PeerMsg} (hl : s.peerLive m.port = []) (hr : s.ringWaits = []) (hf : s.fncs = []) :
    s.fncArrive m = s.send ⟨m.port, 0x32, [], false, 0, m.txid, pp m.port, 0, 0⟩ := by
  have hnil : (s.withFncs [⟨m.port, m.txid, [], []⟩]).answerFncs =
      ((s.withFncs [⟨m.port, m.txid, [], []⟩]).withFncs []).send ⟨m.port, 0x32, [], false, 0, m.txid, pp m.port, 0, 0⟩ := by
    unfold State.answerFncs
    simp [State.withFncs]
  rw [fncArrive_eq, hl, hr, hf, List.filter_nil, List.nil_append, hnil, show (s.withFncs [⟨m.port, m.txid, [], []⟩]).withFncs [] = s.withFncs [] from rfl, withFncs_self hf]

/-- The first piece of a mirror record, with more to come, is kept. -/
theorem jrcArrive_first {s : State} {m : PeerMsg} (h0 : m.arg % 16 = 0) (h1 : m.arg / 16 % 2 = 0)
    (hd : padTo 64 m.data = m.data) :
    s.jrcArrive m = { s with jParts := s.jParts.filter (fun x => !(x.1 == m.port && x.2.1 == m.txid)) ++ [(m.port, m.txid, m.data)] } := by
  unfold State.jrcArrive
  simp only [h0, h1, hd, if_true]

/-- The first piece of a sweep list, with more to come, is kept. -/
theorem swlArrive_first {s : State} {m : PeerMsg} (h0 : m.arg % 256 = 0) (h1 : m.arg / 256 % 2 = 0)
    (hd : padTo 64 m.data = m.data) :
    (s.swlArrive m).mem = s.mem ∧
      (m.port * 65536 + m.txid, (List.range 16).map fun i => fieldAt m.data (4 * i) 4) ∈ (s.swlArrive m).sweep.pieces := by
  unfold State.swlArrive
  simp only [h0, h1, hd, if_true]
  exact ⟨trivial, List.mem_append_right _ (List.mem_singleton_self _)⟩

/-- The last piece of a forwarded POST makes a posting at its home teller. -/
theorem pfwArrive_last {s : State} {m : PeerMsg} {y : PfwPart} {n : Nat} (h0 : m.arg % 16 ≠ 0) (h1 : m.arg / 16 % 2 = 1)
    (hd : padTo 64 m.data = m.data)
    (hy : s.pfwParts.find? (fun x => x.port == m.port && x.txid == m.txid) = some y) (hn : s.homeTeller y.addr = some n) :
    ∃ q, (s.pfwArrive m).postings = s.postings ++ [q] ∧ q.origin = .peer m.port m.txid ∧ q.intake = n ∧ q.phase = .sent ∧
      q.ring = getF m.value ⟨3, 2⟩ ∧ q.asid = getF m.value ⟨63, 48⟩ ∧ q.hdr = (y.bytes ++ m.data).take 64 ∧ (s.pfwArrive m).mem = s.mem := by
  have hn' (xs : List PfwPart) : ({ s with pfwParts := xs } : State).homeTeller y.addr = some n := hn
  unfold State.pfwArrive
  simp only [h0, h1, hd, if_false, hy, Option.map_some, ne_eq, not_false_eq_true, if_true, one_ne_zero, hn']
  exact ⟨_, rfl, rfl, rfl, rfl, rfl, rfl, rfl, rfl⟩

end Sys2Proof.Machine

namespace Sys2Proof.Machine

/-! Each message as its command delivers it -/

section
variable {s : State} {p : PortId} (h : Carries s p)
include h

/-- What comes with a commit is kept before the commit arrives. -/
theorem exec_cmt_note (tx src : Nat) (v : Word) (d : List Byte) (w : PostNote) :
    exec (.cmt p tx src v d (some w)) s = exec (.cmt p tx src v d none) { s with cmtNotes := s.cmtNotes ++ [(p.val, tx, w)] } := by
  rw [exec_cmt, exec_cmt]
  unfold execCmt
  dsimp only
  rw [if_neg (by simp [h.live, h.up, h.runs])]

theorem exec_wnt_store {tx : Nat} {q : PeerTx} (hq : s.txOf p.val tx = some q) (v : Word) : exec (.wnt p tx v) s = .next (s.storeRefused q) := by
  refine (exec_wnt ..).trans (h.takes rfl ?_)
  change some (match s.txOf p.val tx with | some t => s.storeRefused t | none => s) = _
  rw [hq]

/-- A store answered with a status is refused as by a write notice. -/
theorem exec_cmp_refused {tx arg : Nat} {q : PeerTx} (hq : s.txOf p.val tx = some q) (hs : isStore q.op = true) (ha : arg ≠ 0) (v : Word) :
    exec (.cmp p tx arg) s = exec (.wnt p tx v) s := by
  rw [exec_wnt_store h hq]
  exact (exec_cmp ..).trans (h.takes rfl (congrArg some (cmpArrive_refused hq hs ha)))

/-- The answer to a snoop of a line of another socket. -/
theorem snoop_answered {i : Instr} {m : PeerMsg} (hi : exec i s = arrive m s) (hp : m.port = p.val) (hm : s.peerMsg m = some (s.snoopedByPeer m)) :
    (s.rlineAt (s.windowPa m.port m.line) = none → exec i s = .next (s.reply m 0x12 0 [] 0 false)) ∧
    (∀ r, s.rlineAt (s.windowPa m.port m.line) = some r → ∃ t, exec i s = .next t ∧ t.mem = s.mem ∧
      m.replyWith 0x12 0 (if r.dirty then r.data else []) (if r.dirty then r.tags else 0) (r.dirty && r.poison) ∈ t.peerOut) := by
  refine ⟨fun hn => ?_, fun r hr => ?_⟩
  · rw [hi, h.takes hp hm, snoopedByPeer_none hn]
  · obtain ⟨u, hu, he⟩ := snoopedByPeer_some hr
    rw [he] at hm
    exact ⟨_, hi.trans (h.takes hp hm), hu, mem_reply ..⟩

end

theorem exec_wrp_served {s : State} {p : PortId} {tx src arg : Nat} {v : Word} {d : List Byte} (h : Carries s p)
    (ha : Admitted s ⟨p.val, 0x05, padTo 64 d, false, 0, tx, src, arg, v⟩ .write) {a o n : Nat} (hv : v.toNat % 2 ^ 48 = a) (ho : arg % 64 = o)
    (hn : min (min 64 (arg / 64 % 128)) (64 - o) = n) (he : s.entriesIn (a / 64 * 64 + o) n = []) :
    ∃ t, exec (.wrp p tx src arg v d false) s = .next t ∧ (∀ j, j < n → t.memB (a / 64 * 64 + o + j) = (padTo 64 d).getD j 0) ∧
      (∀ x, x < a / 64 * 64 + o ∨ a / 64 * 64 + o + n ≤ x → t.memB x = s.memB x) ∧ (⟨p.val, 0x19, [], false, 0, tx, pp p.val, 0, v⟩ : PeerMsg) ∈ t.peerOut := by
  subst hv
  exact exec_of_arrive (exec_wrp ..) (wrp_served h rfl rfl rfl rfl (padTo_padTo ..) ha ho hn he)

/-- The granule of an address lies in its line. -/
theorem granule_of_line (a : Nat) : a / 64 * 64 + a % 64 / 16 * 16 = a / 16 * 16 := by omega

theorem exec_rdc_served {s : State} {p : PortId} {tx src : Nat} {v : Word} (h : Carries s p)
    (ha : Admitted s ⟨p.val, 0x08, [], false, 0, tx, src, 0, v⟩ .coinLoad) {a : Nat} (hv : v.toNat % 2 ^ 48 = a) :
    ∃ t, exec (.rdc p tx src v) s = .next t ∧ t.mem = s.mem ∧
      (⟨p.val, 0x18, padTo 64 (s.readBytes (a / 16 * 16) 16), s.poisoned (a / 64 * 64), BitVec.ofNat 4 (b2n (s.tagAt (a / 16 * 16))), tx, pp p.val, 0, v⟩ :
        PeerMsg) ∈ t.peerOut := by
  subst hv
  exact exec_of_arrive (exec_rdc ..) (rdc_served h rfl rfl rfl ha (granule_of_line _))

theorem exec_wrc_served {s : State} {p : PortId} {tx src : Nat} {v : Word} {d : List Byte} {tags : BitVec 4} (h : Carries s p)
    (ha : Admitted s ⟨p.val, 0x09, padTo 64 d, false, tags, tx, src, 0, v⟩ .coinStore) {a : Nat} (hv : v.toNat % 2 ^ 48 = a)
    (he : s.entriesIn (a / 16 * 16) 16 = []) :
    ∃ t, exec (.wrc p tx src v d tags false) s = .next t ∧ (∀ j, j < 16 → t.memB (a / 16 * 16 + j) = (padTo 16 (padTo 64 d)).getD j 0) ∧
      t.tagAt (a / 16 * 16) = bitB tags 0 ∧ (⟨p.val, 0x19, [], false, 0, tx, pp p.val, 0, v⟩ : PeerMsg) ∈ t.peerOut := by
  subst hv
  exact exec_of_arrive (exec_wrc ..) (wrc_served h rfl rfl rfl rfl ha (granule_of_line _) he)

/-- Settles O60: every message is dispatched by its port and the mode; what it does then, message by message. -/
theorem peerMessageResult : Obligations.PeerMessageResult := by
  unfold Obligations.PeerMessageResult
  refine ⟨exec_message_next, fun p s hr => ⟨fun tx src arg a d tags po x hx => (delivers_messages p tx src arg a d tags po x hx).outcome hr,
    fun hu hmode hg tx src arg v d tags => ?_⟩⟩
  have h : Carries s p := ⟨hr, hu, hmode⟩
  have hpad := padTo_padTo 64 d
  intro a l free may ans shared alone
  have admits : free → a < 2 ^ 44 ∧ s.localOf a ≠ none ∧ LineFree s l := by
    rintro ⟨hq, hw, hsn, hcl, hcc, hpe, hloc, hlow, hpw, hv, he, -⟩
    exact ⟨hlow, hloc ▸ Option.some_ne_none _, hq, hw, hsn, hcl, hcc, hpe, hpw, hv, he⟩
  refine ⟨fun r hd => rds_denied h hg hd, fun r hd => wrl_denied h hg hd, ?reads, ?writes, ?atomics, ?coinLoads, ?coinStores, ?locks, ?commits,
    ?writeBacks, ?replies, ?legs, ?snoops, ?snoopAnswers, ?mirrored, ?recordPieces, ?freeIpi, ?waitingIpi, ?markers, ?marks, ?sweeps, ?sweepPieces,
    ?posts⟩
  case reads =>
    intro hmay hfree
    obtain ⟨hlow, ha, hf⟩ := admits hfree
    exact ⟨exec_of_arrive (exec_rds ..) (rds_served h rfl rfl rfl ⟨hg, hmay, hlow, ha, hf⟩),
      exec_of_arrive (exec_rdu ..) (rdu_served h rfl rfl rfl ⟨hg, hmay, hlow, ha, hf⟩)⟩
  case writes =>
    intro hmay hfree
    obtain ⟨hlow, ha, hf⟩ := admits hfree
    exact ⟨exec_of_arrive (exec_rdx ..) (rdx_served h rfl rfl rfl ⟨hg, hmay, hlow, ha, hf⟩),
      exec_of_arrive (exec_wrl ..) (wrl_served h rfl rfl rfl rfl hpad ⟨hg, hmay, hlow, ha, hf⟩),
      fun hen => exec_wrp_served (tx := tx) (src := src) (arg := arg) (v := v) (d := d) h ⟨hg, hmay, hlow, ha, hf⟩ rfl rfl rfl hen⟩
  case atomics =>
    intro hmay hfree hpo n b old hen
    obtain ⟨hlow, ha, hf⟩ := admits hfree
    exact exec_of_arrive (exec_atm ..) (atm_served h rfl rfl rfl ⟨hg, hmay, hlow, ha, hf⟩ hpo hen)
  case coinLoads =>
    intro hmay hfree
    obtain ⟨hlow, ha, hf⟩ := admits hfree
    exact exec_rdc_served h ⟨hg, hmay, hlow, ha, hf⟩ rfl
  case coinStores =>
    intro hmay hfree hen
    obtain ⟨hlow, ha, hf⟩ := admits hfree
    exact exec_wrc_served h ⟨hg, hmay, hlow, ha, hf⟩ rfl hen
  case locks =>
    intro hmay hfree hl
    obtain ⟨hlow, ha, hf⟩ := admits hfree
    exact exec_of_arrive (exec_lck ..) (lck_served h rfl rfl rfl ⟨hg, hmay, hlow, ha, hf⟩ hl)
  case commits =>
    intro own hq hw hsn hcl hpw hcc hpe he
    exact ⟨exec_of_arrive (exec_rel ..) (rel_served h rfl rfl hq hw hcl), exec_cmt_note h tx src v d, fun hroom hseal hnote =>
      exec_of_arrive (exec_cmt ..) (cmt_served h rfl rfl hpad rfl hq hw hsn hcl hpw hcc hpe he hseal hnote hroom)⟩
  case writeBacks =>
    intro hq hw hx hb hsn hcl hcc hcp he hpw
    exact exec_of_arrive (exec_wbk ..) (wbk_served h rfl rfl rfl hpad rfl hq hw hx hb hsn hcl hcc hcp he hpw)
  case replies =>
    exact fun q hq => ⟨fun ho hroom => exec_of_arrive (exec_dat ..) ⟨_, h.takes rfl rfl, datArrive_line hpad hq ho hroom⟩,
      fun ho => (exec_dat ..).trans (h.takes rfl (congrArg some (datArrive_reply hq ho))),
      fun hs => (exec_cmp ..).trans (h.takes rfl (congrArg some (cmpArrive_stored hq hs))),
      fun hs ha => exec_cmp_refused h hq hs ha v,
      fun ho hu => ⟨(exec_cmp ..).trans (h.takes rfl (congrArg some ((cmpArrive_writeBack hq ho hu).trans (if_pos rfl)))),
        fun ha => (exec_cmp ..).trans (h.takes rfl (congrArg some ((cmpArrive_writeBack hq ho hu).trans (if_neg ha))))⟩,
      fun ho => (exec_cmp ..).trans (h.takes rfl (congrArg some (cmpArrive_post hq ho))),
      fun hs hw ho => (exec_cmp ..).trans (h.takes rfl (congrArg some (cmpArrive_other hq hs hw ho))),
      fun hu => ⟨_, exec_wnt_store h hq v, (txOf_eq hq).1 ▸ storeRefused_core hu⟩,
      fun ho => (exec_prp ..).trans (h.takes rfl (congrArg some (prpArrive_post hq ho)))⟩
  case legs =>
    exact fun x leg i pa hx => ⟨fun hi => (exec_lgr ..).trans (h.takes rfl (congrArg some (lgrArrive_granted hx hi rfl hpad))),
      fun ha => (exec_cak ..).trans (h.takes rfl (congrArg some (cakArrive_acks hx ha)))⟩
  case snoops =>
    rw [List.forall_mem_cons, List.forall_mem_singleton]
    exact ⟨snoop_answered h (m := ⟨p.val, 0x10, [], false, 0, tx, 0, 0, v⟩) (exec_snpi ..) rfl rfl,
      snoop_answered h (m := ⟨p.val, 0x11, [], false, 0, tx, 0, 0, v⟩) (exec_snps ..) rfl rfl⟩
  case snoopAnswers =>
    exact fun x hx hi hq hw => exec_of_arrive (exec_srsp ..) ⟨_, h.takes rfl rfl, srspArrive_clean hx rfl hi hq hw (Nat.lt_of_lt_of_le p.isLt (by decide))⟩
  case mirrored =>
    exact fun r hj hpo hst hm hn ht hseq => exec_of_arrive (exec_jak ..) ⟨_, h.takes rfl rfl, jakArrive_only hj hpo hst hm hn ht hseq⟩
  case recordPieces =>
    exact fun h0 h1 => (exec_jrc ..).trans (h.takes rfl (congrArg some (jrcArrive_first h0 h1 hpad)))
  case freeIpi =>
    exact fun hq hw => (exec_ipi ..).trans (h.takes rfl (congrArg some (ipiArrive_free hq hw)))
  case waitingIpi =>
    exact fun hne => exec_of_arrive (exec_ipi ..) ⟨_, h.takes rfl rfl, ipiArrive_waits hne⟩
  case markers =>
    exact fun hq hw hpo hf hrw hjw hpf hjp hpa => (exec_fnc ..).trans
      (h.takes rfl (congrArg some (fncArrive_free (peerLive_none hq hw hpo hpf hjp hjw hpa _) hrw hf)))
  case marks => exact (exec_fak ..).trans (h.takes rfl (congrArg (fun q => some (s.portAnswered q false)) (Fin.ext (Nat.mod_eq_of_lt p.isLt))))
  case sweeps => exact (exec_swr ..).trans (h.takes rfl rfl)
  case sweepPieces =>
    exact fun h0 h1 => exec_of_arrive (exec_swl ..) ⟨_, h.takes rfl rfl, swlArrive_first h0 h1 hpad⟩
  case posts =>
    intro y n h0 h1 hy hn
    obtain ⟨q, hq⟩ := pfwArrive_last (m := ⟨p.val, 0x25, padTo 64 d, false, tags, tx, src, arg, v⟩) h0 h1 hpad hy hn
    exact ⟨_, q, (exec_pfw ..).trans (h.takes rfl rfl), hq⟩

end Sys2Proof.Machine

namespace Sys2Proof.Machine

/-! Malformed entries and the kinds of a purse type (R45, R49) -/

theorem Purse.malformed_iff (p : Purse) : p.malformed = true ↔ p.type = 7 ∨ getF p.w2 ⟨31, 29⟩ ≠ 0 ∨ getF p.w2 ⟨63, 51⟩ ≠ 0 ∨
    (p.tring ≠ 0 ∧ p.type ≠ 5) ∨ (p.rstk = true ∧ p.type ≠ 4) ∨ p.base + p.length > 2 ^ 64 := by
  simp only [Purse.malformed, Bool.or_eq_true, Bool.and_eq_true, beq_iff_eq, bne_iff_ne, decide_eq_true_eq, or_assoc]

section
variable {need : BitVec 12} {p : Purse} {c : Coin} {a : Int} {size kind ring asid : Nat} {v : Option Coin}

theorem checkEntryN_malformed (hi : c.issue = p.issue) (hm : p.malformed = true) :
    checkEntryN need p c a size kind v ring asid = some .malformed := by
  unfold checkEntryN
  rw [if_neg (not_not.mpr hi), if_pos hm]

theorem checkEntryN_permits (h : checkEntryN need p c a size kind v ring asid = none) : typePermits p.type p.rstk kind ring = true := by
  by_contra ht
  unfold checkEntryN at h
  simp only [ht, not_false_eq_true, if_true] at h
  split_ifs at h

/-- The steps of R50 before the type step pass. -/
theorem checkEntryN_type (hi : c.issue = p.issue) (hm : p.malformed = false) (hs : p.state = 1) (ho : p.owner = 0 ∨ p.owner = asid)
    (hb : 11 < kind ∨ (p.base ≤ a ∧ a + size ≤ p.base + p.length)) (hr : bitB c.rights 11 = false)
    (hl : bitB c.rights 6 = false ∨ kind = 12) (hn : need &&& ~~~c.rights = 0) (ht : typePermits p.type p.rstk kind ring = false) :
    checkEntryN need p c a size kind v ring asid = some .type := by
  have ho : ¬(p.owner ≠ 0 ∧ p.owner ≠ asid) := by omega
  have hb : ¬(kind ≤ 11 ∧ (a < p.base ∨ a + size > p.base + p.length)) := by omega
  have hl : ¬(bitB c.rights 6 = true ∧ kind ≠ 12) := by
    rintro ⟨h6, hk⟩
    rcases hl with h | h
    · rw [h] at h6; cases h6
    · exact hk h
  unfold checkEntryN
  rw [if_neg (not_not.mpr hi), if_neg (by simp [hm]), if_neg (not_not.mpr hs), if_neg ho, if_neg hb, if_neg (by simp [hr]),
    if_neg hl, if_neg (not_not.mpr hn), if_pos (by simp [ht])]

end

/-- Settles O6: the definition read as a proposition, and the check's second step. -/
theorem malformedEntryFails : Obligations.MalformedEntryFails :=
  ⟨Purse.malformed_iff, fun _ _ _ _ _ _ _ _ hm hi => ⟨checkEntryN_malformed hi hm, rfl⟩⟩

/-- Settles O7: the rows of R49 type by type, and the check's type step. -/
theorem purseTypePermitsKinds : Obligations.PurseTypePermitsKinds := by
  refine ⟨fun ty kind ring rstk hty _ => ?_, fun p c a size kind ring asid v ht => ⟨fun h => ?_, fun hi hm hs ho hb hr hl hn => ?_⟩⟩
  · match ty, hty with
    | 0, _ | 1, _ | 2, _ | 3, _ | 5, _ | 6, _ | 7, _ => simp [typePermits]
    | 4, _ => cases rstk <;> simp [typePermits]
  · rw [checkEntryN_permits h] at ht
    cases ht
  · exact checkEntryN_type hi hm hs ho hb hr hl hn ht

/-! Steps of an instruction's body -/

theorem getC_ok (k : CoreId) (s : State) : getC k s = .ok (s.core k) s := rfl

theorem bind_ok {α β : Type} {m : CM α} {g : α → CM β} {a : α} {s t : State} (h : m s = .ok a t) : (m >>= g) s = g a t := by
  simp only [bind, EStateM.bind, h]

/-- A step that is taken only where `p` holds. -/
theorem when_ok {p : Prop} [Decidable p] {α : Type} {m : CM Unit} {g : CM α} {s t : State} (h : if p then m s = .ok () t else t = s) :
    (if p then m >>= fun _ => g else g) s = g t := by
  by_cases hp : p
  · rw [if_pos hp] at h ⊢
    exact bind_ok h
  · rw [if_neg hp] at h ⊢
    rw [h]

theorem State.modCore_congr {k : CoreId} {s : State} {f g : CoreState → CoreState} (h : f (s.core k) = g (s.core k)) :
    s.modCore k f = s.modCore k g := by
  rw [State.modCore, h, State.modCore]

theorem needC_ok {n : BitVec 5} (h : n.toNat < 16) (s : State) : needC n s = .ok () s := by
  rw [needC, if_pos h]; rfl

/-! Coin register instructions (R60–R64) -/

section
variable {k : CoreId} {i : Insn} {len : Nat} {s s₁ : State}

theorem notSealed_ok {x : Coin} (h : x.tag = false ∨ bitB x.rights 6 = false) (a : BitVec 5) (s : State) : notSealed a x s = .ok () s := by
  rw [notSealed, if_neg (by rcases h with h | h <;> simp [h])]; rfl

/-- What a coin instruction with one coin operand leaves; a guarded one needs an operand that is no tagged sealed coin. -/
theorem coinUn_reaches (h : Reaches k i len s s₁) {d a : BitVec 5} (hd : d.toNat < 16) (ha : a.toNat < 16) (f : CoreState → Coin → Coin)
    {guarded : Bool} (hg : guarded = false ∨ ((s₁.core k).cR a.toNat).tag = false ∨ bitB ((s₁.core k).cR a.toNat).rights 6 = false) :
    coinUn guarded i k d a f s = Done k i len .seq (s₁.modCore k fun c => c.setC d.toNat (f c (c.cR a.toNat))) := by
  have hguard : if guarded = true then notSealed a ((s₁.core k).cR a.toNat) s₁ = .ok () s₁ else s₁ = s₁ := by
    split
    next ht => exact notSealed_ok (hg.resolve_left (by rw [ht]; decide)) a s₁
    next => rfl
  refine coreInstr_reaches h ?_ (by simp) (by simpa using h.unblocked)
  rw [bind_ok (needC_ok hd _), bind_ok (needC_ok ha _), bind_ok (getC_ok k s₁)]
  exact when_ok hguard

theorem coinField_of_le (x : Coin) {sel : Nat} (h : sel ≤ 5) : coinField x sel = some
    ([x.cursor, BitVec.ofNat 64 x.purse, BitVec.ofNat 64 x.issue, x.rights.zeroExtend 64, if x.tag then 1 else 0,
      x.bits.extractLsb' 64 64].getD sel 0) := by
  match sel, h with
  | 0, _ | 1, _ | 2, _ | 3, _ | 4, _ | 5, _ => rfl

theorem cget_reaches {d a sel : BitVec 5} (h : Reaches k (mkInsn (encRR 0x28 d.toNat a.toNat sel.toNat 0 0x04) [cN a] [gN d]) len s s₁)
    (ha : a.toNat < 16) {w : Word} (hw : coinField ((s₁.core k).cR a.toNat) sel.toNat = some w) :
    execCget k d a sel s = Done k (mkInsn (encRR 0x28 d.toNat a.toNat sel.toNat 0 0x04) [cN a] [gN d]) len .seq
      (s₁.modCore k fun c => c.setG d.toNat w) := by
  refine coreInstr_reaches h ?_ (by simp) (by simpa using h.unblocked)
  rw [bind_ok (needC_ok ha _), bind_ok (getC_ok k s₁), hw]
  rfl

theorem ceq_reaches {d a b : BitVec 5} (h : Reaches k (mkInsn (encRR 0x28 d.toNat a.toNat b.toNat 0 0x05) [cN a, cN b] [gN d]) len s s₁)
    (ha : a.toNat < 16) (hb : b.toNat < 16) :
    execCeq k d a b s = Done k (mkInsn (encRR 0x28 d.toNat a.toNat b.toNat 0 0x05) [cN a, cN b] [gN d]) len .seq
      (s₁.modCore k fun c => c.setG d.toNat (if c.cR a.toNat = c.cR b.toNat then 1 else 0)) := by
  have he (c : CoreState) : b2w (c.cR a.toNat == c.cR b.toNat) = if c.cR a.toNat = c.cR b.toNat then 1 else 0 := by
    simp only [b2w, beq_iff_eq]
  refine coreInstr_reaches h ?_ (by simp) (by simpa using h.unblocked)
  rw [bind_ok (needC_ok ha _), bind_ok (needC_ok hb _)]
  simp only [he]
  rfl

theorem cpack_reaches {d a b : BitVec 5} (h : Reaches k (mkInsn (encRR 0x28 d.toNat a.toNat b.toNat 0 0x08) [gN a, gN b] [cN d]) len s s₁)
    (hd : d.toNat < 16) :
    execCpack k d a b s = Done k (mkInsn (encRR 0x28 d.toNat a.toNat b.toNat 0 0x08) [gN a, gN b] [cN d]) len .seq
      (s₁.modCore k fun c => c.setC d.toNat ⟨c.gR b.toNat ++ c.gR a.toNat, false⟩) := by
  refine coreInstr_reaches h ?_ (by simp) (by simpa using h.unblocked)
  rw [bind_ok (needC_ok hd _)]
  rfl

theorem cprobe_reaches {d a b : BitVec 5} (h : Reaches k (mkInsn (encRR 0x28 d.toNat a.toNat b.toNat 0 0x06) [cN a, gN b] [gN d]) len s s₁)
    (ha : a.toNat < 16) (hk : ((s₁.core k).gR b.toNat).toNat % 16 ≤ 14) {code : Nat} {s₂ : State}
    (hp : probeCode k ((s₁.core k).cR a.toNat) (((s₁.core k).gR b.toNat).toNat % 16) s₁ = (code, s₂)) (hb : s₂.blocked = false) :
    execCprobe k d a b s = Done k (mkInsn (encRR 0x28 d.toNat a.toNat b.toNat 0 0x06) [cN a, gN b] [gN d]) len .seq
      (s₂.modCore k fun c => c.setG d.toNat (BitVec.ofNat 64 code)) := by
  refine coreInstr_reaches h ?_ (by simp) (by simpa using hb)
  have hcode : liftS (probeCode k ((s₁.core k).cR a.toNat) (((s₁.core k).gR b.toNat).toNat % 16)) s₁ = .ok code s₂ := by rw [liftS, hp]
  rw [bind_ok (needC_ok ha _), bind_ok (getC_ok k s₁), if_neg (Nat.not_lt.mpr hk), bind_ok hcode]
  rfl

end

/-- The displacement that a prefixed or plain 12-bit immediate stands for, as a word. -/
theorem ofInt_immOf (c : CoreState) (imm : BitVec 12) : ofInt 64 (immOf c imm) =
    match c.pfx with
    | some p => BitVec.ofInt 64 (p.toInt * 2 ^ 12 + (imm.toNat : Int))
    | none => imm.signExtend 64 := by
  unfold immOf
  cases c.pfx <;> rfl

/-- Settles O25: the instructions with one coin operand by `coinUn_reaches`, the others one by one. -/
theorem coinRegisterResult : Obligations.CoinRegisterResult := by
  unfold Obligations.CoinRegisterResult
  refine ⟨?moves, ?guarded, ?addImm, ?clipImm, ?fields, ?equal, ?pack, ?probe⟩
  case moves =>
    rw [List.forall_mem_cons, List.forall_mem_singleton]
    exact ⟨fun k d a len s s₁ h hd ha => coinUn_reaches h hd ha (fun _ x => x) (.inl rfl),
      fun k d a len s s₁ h hd ha => coinUn_reaches h hd ha (fun _ x => { x with tag := false }) (.inl rfl)⟩
  case guarded =>
    rw [List.forall_mem_cons, List.forall_mem_cons, List.forall_mem_singleton]
    exact ⟨fun k d a b len s s₁ h hd ha hs => coinUn_reaches h hd ha (fun c x => x.withRights (x.rights &&& rights12 (c.gR b.toNat))) (.inr hs),
      fun k d a b len s s₁ h hd ha hs => coinUn_reaches h hd ha (fun c x => x.withCursor (c.gR b.toNat)) (.inr hs),
      fun k d a b len s s₁ h hd ha hs => coinUn_reaches h hd ha (fun c x => x.withCursor (x.cursor + c.gR b.toNat)) (.inr hs)⟩
  case addImm =>
    intro k d a imm len s s₁ i x v h hd ha hs
    have hv : ofInt 64 (immOf (s₁.core k) imm) = v := ofInt_immOf _ imm
    refine (coinUn_reaches h hd ha (fun c x => x.withCursor (x.cursor + ofInt 64 (immOf c imm))) (.inr hs)).trans
      (congrArg (Done k i len .seq) (State.modCore_congr ?_))
    rw [hv]
  case clipImm =>
    intro k d a imm len s s₁ i x h hd ha hs
    exact (coinUn_reaches h hd ha (fun _ x => x.withRights (x.rights &&& imm)) (.inr hs)).trans
      (congrArg (Done k i len .seq) (State.modCore_congr rfl))
  case fields =>
    exact fun k d a sel len s s₁ h ha hsel => cget_reaches h ha (coinField_of_le _ hsel)
  case equal => exact fun k d a b len s s₁ h ha hb => ceq_reaches h ha hb
  case pack => exact fun k d a b len s s₁ h hd => cpack_reaches h hd
  case probe => exact fun k d a b len s s₁ h ha hk hb => cprobe_reaches h ha hk rfl hb

end Sys2Proof.Machine

namespace Sys2Proof.Machine

/-! Loads and stores (R60, R61, R111–R113, R115) -/

/-- The cursor of coin register `cb` moved from where `base` has it (R111). -/
def State.cursorMoved (s : State) (k : CoreId) (cb : Nat) (base : Coin) (upd : Int) : State :=
  if upd = 0 then s else s.modCore k fun d => d.setC cb (base.withCursor (base.cursor + BitVec.ofInt 64 upd))

theorem cursorMoved_blocked (s : State) (k : CoreId) (cb : Nat) (base : Coin) (upd : Int) :
    (s.cursorMoved k cb base upd).blocked = s.blocked := by
  unfold State.cursorMoved
  split <;> rfl

/-- The state in which a form moves its cursor, or does not. -/
theorem modC_cursorMoved (s : State) (k : CoreId) (cb : Nat) (base : Coin) (upd : Int) :
    if upd ≠ 0 then modC k (fun d => d.setC cb (base.withCursor (base.cursor + ofInt 64 upd))) s = .ok () (s.cursorMoved k cb base upd)
      else s.cursorMoved k cb base upd = s := by
  unfold State.cursorMoved
  by_cases hu : upd = 0
  · rw [if_neg (not_not.mpr hu), if_pos hu]
  · rw [if_pos hu, if_neg hu]
    rfl

theorem bufferStore_ok (k : CoreId) (hs : List Half) (sk : SbKind) (bs : List Byte) (release : Bool) (s : State) :
    ∃ t, bufferStore k hs sk bs release s = .ok () t ∧ t.blocked = s.blocked := ⟨_, rfl, rfl⟩

section
variable {k : CoreId} {ins : Instr} {i : Insn} {len : Nat} {file : MFile} {z r cb : Nat} {o : Int × Int} {ordered : Bool} {s s₁ s₂ s₃ s₄ : State}

/-- A load whose access has issued moves the cursor and opens the load shadow (R111, R115). -/
theorem loadForm_ok
    (hw : watch k ((s₁.core k).cR cb) o.1 (sizeBytes z) true false s₁ = .ok () s₁)
    (hv : if file = .f then vtouch k s₁ = .ok () s₂ else s₂ = s₁)
    (ha : if file = .c then needAligned ((s₂.core k).cR cb) o.1 16 s₂ = .ok () s₃ else s₃ = s₂)
    (hl : issueLoad k cb ((s₂.core k).cR cb) o.1 (sizeBytes z) (accKind file false) (loadKindOf file z) (loadDst (s₂.core k) file z r)
      ordered s₃ = .ok () s₄) :
    loadForm k file z r cb o.1 o.2 ordered s₁ = .ok .seq ((s₄.cursorMoved k cb ((s₂.core k).cR cb) o.2).modCore k fun c =>
      { c with shadow := if loadDst (s₂.core k) file z r = .none then none
                         else some ⟨(loadDst (s₂.core k) file z r).base, (s₂.core k).read (loadDst (s₂.core k) file z r).base⟩ }) := by
  unfold loadForm
  rw [bind_ok (getC_ok k s₁), bind_ok hw]
  refine (when_ok hv).trans ?_
  rw [bind_ok (getC_ok k s₂)]
  refine (when_ok ha).trans ?_
  rw [bind_ok hl]
  exact when_ok (modC_cursorMoved s₄ k cb _ o.2)

/-- What an instruction answers whose body is a load at offset `o.1` that moves the cursor by `o.2`, once the load has issued. -/
theorem load_result
    (he : ∀ t, loadForm k file z r cb o.1 o.2 ordered s₁ = .ok .seq t → t.blocked = false → exec ins s = Done k i len .seq t)
    (hw : watch k ((s₁.core k).cR cb) o.1 (sizeBytes z) true false s₁ = .ok () s₁)
    (hv : if file = .f then vtouch k s₁ = .ok () s₂ else s₂ = s₁)
    (ha : if file = .c then needAligned ((s₂.core k).cR cb) o.1 16 s₂ = .ok () s₃ else s₃ = s₂)
    (hl : issueLoad k cb ((s₂.core k).cR cb) o.1 (sizeBytes z) (if file = .c then 4 else 0) (loadKindOf file z) (loadDst (s₂.core k) file z r)
      ordered s₃ = .ok () s₄) (hb : s₄.blocked = false) :
    ∃ d, exec ins s = Done k i len .seq (s₄.setCore k d) ∧
      d = { (if o.2 = 0 then s₄.core k else (s₄.core k).setC cb (((s₂.core k).cR cb).withCursor (((s₂.core k).cR cb).cursor + BitVec.ofInt 64 o.2))) with
            shadow := if loadDst (s₂.core k) file z r = .none then none
              else some ⟨(loadDst (s₂.core k) file z r).base, (s₂.core k).read (loadDst (s₂.core k) file z r).base⟩ } := by
  have hkind : accKind file false = if file = .c then 4 else 0 := by cases file <;> rfl
  refine ⟨_, (he _ (loadForm_ok hw hv ha (hkind ▸ hl)) ?_).trans (congrArg _ ?_), rfl⟩
  · rw [State.modCore_blocked, cursorMoved_blocked, hb]
  · unfold State.cursorMoved
    split
    · rfl
    · rw [State.modCore_modCore]; rfl

/-- A store of a g or v register whose halves are translated enters the store buffer, then moves the cursor (R111, R113). -/
theorem storeForm_ok {hs : List Half} (hc : file ≠ .c)
    (hw : watch k ((s₁.core k).cR cb) o.1 (sizeBytes z) false true s₁ = .ok () s₁)
    (hv : if file = .f then vtouch k s₁ = .ok () s₂ else s₂ = s₁)
    (hh : storeHalves k cb ((s₂.core k).cR cb) o.1 (sizeBytes z) 1 none ordered s₂ = .ok hs s₃)
    (hs : bufferStore k hs .data (storeBytes (s₂.core k) file z r) ordered s₃ = .ok () s₄) :
    storeForm k file z r cb o.1 o.2 ordered s₁ = .ok .seq (s₄.cursorMoved k cb ((s₂.core k).cR cb) o.2) := by
  unfold storeForm
  rw [bind_ok (getC_ok k s₁), bind_ok hw]
  refine (when_ok hv).trans ?_
  rw [bind_ok (getC_ok k s₂)]
  split
  · exact absurd rfl hc
  · rw [bind_ok hh, bind_ok hs]
    exact when_ok (modC_cursorMoved s₄ k cb _ o.2)

/-- The same for a store of a coin register, its coin past the retirement test (R93). -/
theorem coinStoreForm_ok {hs : List Half} {x : Coin} {s₅ : State}
    (hw : watch k ((s₁.core k).cR cb) o.1 (sizeBytes z) false true s₁ = .ok () s₁)
    (ha : needAligned ((s₁.core k).cR cb) o.1 16 s₁ = .ok () s₂)
    (hh : storeHalves k cb ((s₁.core k).cR cb) o.1 16 5 (some ((s₁.core k).cR r)) ordered s₂ = .ok hs s₃)
    (hr : retireM k ((s₁.core k).cR r) s₃ = .ok x s₄)
    (hs : bufferStore k hs (.coin x.tag) (coinBytes x) ordered s₄ = .ok () s₅) :
    storeForm k .c z r cb o.1 o.2 ordered s₁ = .ok .seq (s₅.cursorMoved k cb ((s₁.core k).cR cb) o.2) := by
  unfold storeForm
  rw [bind_ok (getC_ok k s₁), bind_ok hw]
  refine (when_ok (p := MFile.c = .f) ((if_neg (by decide)).mpr rfl)).trans ?_
  rw [bind_ok (getC_ok k s₁)]
  refine (bind_ok ha).trans ?_
  rw [bind_ok hh, bind_ok hr, bind_ok hs]
  exact when_ok (modC_cursorMoved s₅ k cb _ o.2)

theorem store_result {hs : List Half} (hc : file ≠ .c)
    (he : ∀ t, storeForm k file z r cb o.1 o.2 ordered s₁ = .ok .seq t → t.blocked = false → exec ins s = Done k i len .seq t)
    (hw : watch k ((s₁.core k).cR cb) o.1 (sizeBytes z) false true s₁ = .ok () s₁)
    (hv : if file = .f then vtouch k s₁ = .ok () s₂ else s₂ = s₁)
    (hh : storeHalves k cb ((s₂.core k).cR cb) o.1 (sizeBytes z) 1 none ordered s₂ = .ok hs s₃) (hb : s₃.blocked = false) :
    ∃ t, bufferStore k hs .data (storeBytes (s₂.core k) file z r) ordered s₃ = .ok () t ∧
      exec ins s = Done k i len .seq (t.cursorMoved k cb ((s₂.core k).cR cb) o.2) := by
  obtain ⟨t, ht, htb⟩ := bufferStore_ok k hs .data (storeBytes (s₂.core k) file z r) ordered s₃
  exact ⟨t, ht, he _ (storeForm_ok hc hw hv hh ht) (by rw [cursorMoved_blocked, htb, hb])⟩

theorem coinStore_result {hs : List Half} {x : Coin} (hz : sizeBytes z = 16)
    (he : ∀ t, storeForm k .c z r cb o.1 o.2 ordered s₁ = .ok .seq t → t.blocked = false → exec ins s = Done k i len .seq t)
    (hw : watch k ((s₁.core k).cR cb) o.1 16 false true s₁ = .ok () s₁)
    (ha : needAligned ((s₁.core k).cR cb) o.1 16 s₁ = .ok () s₂)
    (hh : storeHalves k cb ((s₁.core k).cR cb) o.1 16 5 (some ((s₁.core k).cR r)) ordered s₂ = .ok hs s₃)
    (hr : retireM k ((s₁.core k).cR r) s₃ = .ok x s₄) (hb : s₄.blocked = false) :
    ∃ t, bufferStore k hs (.coin x.tag) (natBytes 16 x.bits.toNat) ordered s₄ = .ok () t ∧
      exec ins s = Done k i len .seq (t.cursorMoved k cb ((s₁.core k).cR cb) o.2) := by
  obtain ⟨t, ht, htb⟩ := bufferStore_ok k hs (.coin x.tag) (coinBytes x) ordered s₄
  exact ⟨t, ht, he _ (coinStoreForm_ok (hz ▸ hw) ha hh hr ht) (by rw [cursorMoved_blocked, htb, hb])⟩

end

section
variable {k : CoreId} {r cb gx : BitVec 5} {size mode : BitVec 3} {disp : BitVec 12} {d15 : BitVec 15} {order file : BitVec 2} {mf : MFile}
  {op len : Nat} {s s₁ t : State}

/-- The displacement forms, loading. -/
theorem loadMS_reaches (h : Reaches k { mkInsn (encMS op r.toNat cb.toNat size.toNat disp.toNat) [cN cb] [memReg mf r] with pfx := true, load := true } len s s₁)
    (hcb : cb.toNat < 16) (hz : sizeOk mf false size.toNat = true)
    (hl : loadForm k mf size.toNat r.toNat cb.toNat (immOf (s₁.core k) disp) 0 false s₁ = .ok .seq t) (hb : t.blocked = false) :
    loadMS op mf k r cb size disp s =
      Done k { mkInsn (encMS op r.toNat cb.toNat size.toNat disp.toNat) [cN cb] [memReg mf r] with pfx := true, load := true } len .seq t := by
  refine coreInstr_reaches h ?_ (by simp) (by simpa using hb)
  rw [bind_ok (needC_ok hcb _), hz]
  exact hl

/-- The displacement forms, storing. -/
theorem storeMS_reaches (h : Reaches k { mkInsn (encMS op r.toNat cb.toNat size.toNat disp.toNat) [cN cb, memReg mf r] [] with pfx := true } len s s₁)
    (hcb : cb.toNat < 16) (hz : sizeOk mf true size.toNat = true)
    (hl : storeForm k mf size.toNat r.toNat cb.toNat (immOf (s₁.core k) disp) 0 false s₁ = .ok .seq t) (hb : t.blocked = false) :
    storeMS op mf k r cb size disp s =
      Done k { mkInsn (encMS op r.toNat cb.toNat size.toNat disp.toNat) [cN cb, memReg mf r] [] with pfx := true } len .seq t := by
  refine coreInstr_reaches h ?_ (by simp) (by simpa using hb)
  rw [bind_ok (needC_ok hcb _), hz]
  exact hl

theorem ldc_reaches (h : Reaches k { mkInsn (encCM 0x07 r.toNat cb.toNat d15.toNat) [cN cb] [cN r] with load := true } len s s₁)
    (hcb : cb.toNat < 16) (hr : r.toNat < 16)
    (hl : loadForm k .c 7 r.toNat cb.toNat (d15.toInt * 16) 0 false s₁ = .ok .seq t) (hb : t.blocked = false) :
    exec (.ldc k r cb d15) s = Done k { mkInsn (encCM 0x07 r.toNat cb.toNat d15.toNat) [cN cb] [cN r] with load := true } len .seq t := by
  refine coreInstr_reaches h ?_ (by simp) (by simpa using hb)
  rw [bind_ok (needC_ok hr _), bind_ok (needC_ok hcb _)]
  exact hl

theorem stc_reaches (h : Reaches k (mkInsn (encCM 0x08 r.toNat cb.toNat d15.toNat) [cN cb, cN r] []) len s s₁)
    (hcb : cb.toNat < 16) (hr : r.toNat < 16)
    (hl : storeForm k .c 7 r.toNat cb.toNat (d15.toInt * 16) 0 false s₁ = .ok .seq t) (hb : t.blocked = false) :
    exec (.stc k r cb d15) s = Done k (mkInsn (encCM 0x08 r.toNat cb.toNat d15.toNat) [cN cb, cN r] []) len .seq t := by
  refine coreInstr_reaches h ?_ (by simp) (by simpa using hb)
  rw [bind_ok (needC_ok hr _), bind_ok (needC_ok hcb _)]
  exact hl

/-- A legal MX form names the file of its file code, at a size of that file. -/
theorem mxLegal_some {store : Bool} (h : mxLegal store r cb gx size mode file order = some mf) :
    fileOr file = mf ∧ sizeOk mf store size.toNat = true := by
  unfold mxLegal at h
  unfold fileOr
  split at h
  next => cases h
  next mf' hf' =>
    split at h
    next => cases h
    next hn =>
      cases h
      rw [hf']
      exact ⟨rfl, Bool.not_eq_false _ ▸ fun hs => hn (.inr (.inr (.inr (.inl hs))))⟩

theorem toNat_eq_one_iff (order : BitVec 2) : order.toNat = 1 ↔ order = 1 := BitVec.toNat_inj (y := 1)

/-- What the indexed and update forms do once their word is known to be legal (R111). -/
theorem mxBody_ok {n : Nat} {form : Int → Int → CM Next} (hr : mf = .c → r.toNat < 16)
    (hl : form (mxOffset (s₁.core k) gx mode.toNat n).1 (mxOffset (s₁.core k) gx mode.toNat n).2 s₁ = .ok .seq t) :
    (do if mf = .c then needC r
        let c ← getC k
        let (o, u) := mxOffset c gx mode.toNat n
        form o u : CM Next) s₁ = .ok .seq t := by
  have hreg : if mf = .c then needC r s₁ = .ok () s₁ else s₁ = s₁ := by
    split
    next hc => exact needC_ok (hr hc) s₁
    next => rfl
  rcases hm : mxOffset (s₁.core k) gx mode.toNat n with ⟨o, u⟩
  rw [hm] at hl
  refine (when_ok hreg).trans ?_
  rw [bind_ok (getC_ok k s₁), hm]
  exact hl

/-- The indexed and update forms, loading. -/
theorem lx_reaches (h : Reaches k { mkInsn (encMX 0x05 r.toNat cb.toNat gx.toNat size.toNat mode.toNat file.toNat order.toNat) [cN cb, gN gx]
      (memReg mf r :: if mode.toNat ≥ 5 then [cN cb] else []) with load := true } len s s₁)
    (hcb : cb.toNat < 16) (hf : mxLegal false r cb gx size mode file order = some mf) (hr : mf = .c → r.toNat < 16)
    (hl : loadForm k mf size.toNat r.toNat cb.toNat (mxOffset (s₁.core k) gx mode.toNat (sizeBytes size.toNat)).1
      (mxOffset (s₁.core k) gx mode.toNat (sizeBytes size.toNat)).2 (order = 1) s₁ = .ok .seq t) (hb : t.blocked = false) :
    exec (.lx k r cb gx size mode file order) s =
      Done k { mkInsn (encMX 0x05 r.toNat cb.toNat gx.toNat size.toNat mode.toNat file.toNat order.toNat) [cN cb, gN gx]
        (memReg mf r :: if mode.toNat ≥ 5 then [cN cb] else []) with load := true } len .seq t := by
  have ho : decide (order.toNat = 1) = decide (order = 1) := decide_eq_decide.mpr (toNat_eq_one_iff order)
  rw [exec_lx, execLx, (mxLegal_some hf).1, ho]
  refine coreInstr_reaches h ?_ (by simp) (by simpa using hb)
  rw [bind_ok (needC_ok hcb _), hf]
  exact mxBody_ok (form := fun o u => loadForm k mf size.toNat r.toNat cb.toNat o u (order = 1)) hr hl

/-- The indexed and update forms, storing. -/
theorem sx_reaches (h : Reaches k (mkInsn (encMX 0x06 r.toNat cb.toNat gx.toNat size.toNat mode.toNat file.toNat order.toNat)
      [memReg mf r, cN cb, gN gx] (if mode.toNat ≥ 5 then [cN cb] else [])) len s s₁)
    (hcb : cb.toNat < 16) (hf : mxLegal true r cb gx size mode file order = some mf) (hr : mf = .c → r.toNat < 16)
    (hl : storeForm k mf size.toNat r.toNat cb.toNat (mxOffset (s₁.core k) gx mode.toNat (sizeBytes size.toNat)).1
      (mxOffset (s₁.core k) gx mode.toNat (sizeBytes size.toNat)).2 (order = 1) s₁ = .ok .seq t) (hb : t.blocked = false) :
    exec (.sx k r cb gx size mode file order) s =
      Done k (mkInsn (encMX 0x06 r.toNat cb.toNat gx.toNat size.toNat mode.toNat file.toNat order.toNat)
        [memReg mf r, cN cb, gN gx] (if mode.toNat ≥ 5 then [cN cb] else [])) len .seq t := by
  have ho : decide (order.toNat = 1) = decide (order = 1) := decide_eq_decide.mpr (toNat_eq_one_iff order)
  rw [exec_sx, execSx, (mxLegal_some hf).1, ho]
  refine coreInstr_reaches h ?_ (by simp) (by simpa using hb)
  rw [bind_ok (needC_ok hcb _), hf]
  exact mxBody_ok (form := fun o u => storeForm k mf size.toNat r.toNat cb.toNat o u (order = 1)) hr hl

/-- The displacement of R111 as the statement writes it. -/
theorem immOf_eq (c : CoreState) (disp : BitVec 12) :
    (match c.pfx with | some x => x.toInt * 2 ^ 12 + (disp.toNat : Int) | none => disp.toInt) = immOf c disp := by
  unfold immOf
  cases c.pfx <;> rfl

end

/-- Settles O26: each form's body is `loadForm` or `storeForm` at the form's offset, and what those leave is `load_result`, `store_result`
and `coinStore_result`. -/
theorem loadStoreResult : Obligations.LoadStoreResult := by
  unfold Obligations.LoadStoreResult
  intro loads stores coinStores imm mx k r cb gx size mode disp d15 order file mf hcb
  have himm (c : CoreState) : imm disp c = (immOf c disp, 0) := Prod.ext (immOf_eq c disp) rfl
  have hcoin (h : sizeOk .c true size.toNat = true) : sizeBytes size.toNat = 16 := by rw [beq_iff_eq.mp h]; rfl
  refine ⟨fun hz => ?ld, fun hz => ?ldf, fun hr => ?ldc, fun hf hr => ?lx, fun hz => ?st, fun hz => ?stf, fun hf hc => ?sx,
    fun hf hr => ?sxCoin, fun hr => ?stc⟩
  case ld =>
    intro len s s₁ s₂ s₃ s₄ h hw hv c o dst ha hl hb
    exact load_result (o := imm disp (s₁.core k)) (fun t ht => loadMS_reaches (mf := .g) h hcb hz (by rwa [himm] at ht)) hw hv ha hl hb
  case ldf =>
    intro len s s₁ s₂ s₃ s₄ h hw hv c o dst ha hl hb
    exact load_result (o := imm disp (s₁.core k)) (fun t ht => loadMS_reaches (mf := .f) h hcb hz (by rwa [himm] at ht)) hw hv ha hl hb
  case ldc =>
    intro len s s₁ s₂ s₃ s₄ h hw hv c o dst ha hl hb
    exact load_result (o := (d15.toInt * 16, 0)) (fun t ht => ldc_reaches h hcb hr ht) hw hv ha hl hb
  case lx =>
    intro len s s₁ s₂ s₃ s₄ h hw hv c o dst ha hl hb
    exact load_result (o := mx gx mode (sizeBytes size.toNat) (s₁.core k)) (fun t ht => lx_reaches h hcb hf hr ht) hw hv ha hl hb
  case st =>
    intro len hs s s₁ s₂ s₃ hc h hw hv c o hh hb
    exact store_result (o := imm disp (s₁.core k)) hc (fun t ht => storeMS_reaches (mf := .g) h hcb hz (by rwa [himm] at ht)) hw hv hh hb
  case stf =>
    intro len hs s s₁ s₂ s₃ hc h hw hv c o hh hb
    exact store_result (o := imm disp (s₁.core k)) hc (fun t ht => storeMS_reaches (mf := .f) h hcb hz (by rwa [himm] at ht)) hw hv hh hb
  case sx =>
    intro len hs s s₁ s₂ s₃ _ h hw hv c o hh hb
    exact store_result (o := mx gx mode (sizeBytes size.toNat) (s₁.core k)) hc
      (fun t ht => sx_reaches h hcb hf (fun he => absurd he hc) ht) hw hv hh hb
  case sxCoin =>
    intro len hs x s s₁ s₂ s₃ s₄ h c o hw ha hh hx hb
    exact coinStore_result (hcoin (mxLegal_some hf).2) (o := mx gx mode (sizeBytes size.toNat) (s₁.core k))
      (fun t ht => sx_reaches (mf := .c) h hcb hf (fun _ => hr) ht) hw ha hh hx hb
  case stc =>
    intro len hs x s s₁ s₂ s₃ s₄ h c o hw ha hh hx hb
    exact coinStore_result (z := 7) rfl (o := (d15.toInt * 16, 0)) (fun t ht => stc_reaches h hcb hr ht) hw ha hh hx hb

end Sys2Proof.Machine

namespace Sys2Proof.Machine

/-! Purse writes and their invalidations (R47, R65–R67) -/

/-- Bit `n` of a set of clusters without cluster n. -/
theorem bitB_without (v : BitVec 16) {n : Nat} (hn : n < 16) : bitB (v &&& ~~~(BitVec.ofNat 16 (2 ^ n))) n = false := bitB_drop ⟨v, false⟩ hn

theorem State.dirOf_setDir (s : State) (j i : Nat) (v : BitVec 16) : (s.setDir j v).dirOf i = if i = j then v else s.dirOf i := SMap.get_set ..

theorem startPurseWr_mem (s : State) (is : List Nat) (core : Option Nat) : (s.startPurseWr is core).mem = s.mem := by
  unfold State.startPurseWr
  dsimp only
  split
  · rfl
  · exact count_mem ..

/-- A cached write of which R47 discards nothing leaves its bytes. -/
theorem localWrite_mem_of_kept {s : State} {a : Nat} {bs : List Byte} (h : ∀ i ∈ s.entriesIn a bs.length, s.discards i a bs = false)
    (tr : TagRule) (core : Option Nat) : (s.localWrite a bs tr true core).s.mem = (s.bytesPut a bs).mem := by
  have hbad : (s.entriesIn a bs.length).filter (fun i => s.discards i a bs) = [] := List.filter_eq_nil_iff.mpr (by simpa using h)
  unfold State.localWrite
  simp only [hbad, List.any_nil, Bool.false_eq_true, if_false, if_true]
  rw [startPurseWr_mem]
  refine (foldl_keeps State.mem _ (fun t l => ?_) _ _).trans ((foldl_keeps State.mem _ (fun t g => ?_) _ _).trans rfl)
  · simp only [Bool.not_true, Bool.and_false, Bool.false_eq_true, if_false, State.setDirty_mem, setClusters_mem, apply_ite State.mem,
      State.setPoison_mem, ite_self]
  · split <;> rfl

theorem purseWrite_none {s : State} {a : Nat} {bs : List Byte} (h : s.entriesIn a bs.length = []) : exec (.purseWrite a bs) s = .next s := by
  rw [exec_purseWrite, execPurseWrite, h]; rfl

theorem purseWrite_writes {s : State} {a l : Nat} {bs : List Byte} (he : s.entriesIn a bs.length ≠ []) (hl : s.localOf a = some l)
    (hline : a % 64 + bs.length ≤ 64) (hw : s.writeHeld a bs.length = false) (hd : ∀ i ∈ s.entriesIn a bs.length, s.discards i a bs = false) :
    ∃ t, exec (.purseWrite a bs) s = .next t ∧ ∀ x, t.memB x = if a ≤ x ∧ x < a + bs.length then bs.getD (x - a) 0 else s.memB x := by
  refine ⟨(s.localWrite a bs .clear true none).s, ?_, fun x => ?_⟩
  · rw [exec_purseWrite, execPurseWrite, hl, hw, if_neg]
    simp [he, hline]
  · rw [← memB_bytesPut]
    exact congrArg (fun m => SMap.get zeroByte m x) (localWrite_mem_of_kept hd _ _)

theorem core_setDir (s : State) (i : Nat) (v : BitVec 16) (k : CoreId) : (s.setDir i v).core k = s.core k := (rfl)
theorem setDir_mem (s : State) (i : Nat) (v : BitVec 16) : (s.setDir i v).mem = s.mem := (rfl)
theorem setDir_purseWrs (s : State) (i : Nat) (v : BitVec 16) : (s.setDir i v).purseWrs = s.purseWrs := (rfl)

theorem eachCore_mem (s : State) (f : CoreId → CoreState → CoreState) : (s.eachCore f).mem = s.mem := by
  unfold State.eachCore
  rfl
theorem eachCore_purseWrs (s : State) (f : CoreId → CoreState → CoreState) : (s.eachCore f).purseWrs = s.purseWrs := by
  unfold State.eachCore
  rfl

theorem core_purseDrop (s : State) (is : List Nat) (n : Nat) (k : CoreId) : (s.purseDrop is n).core k =
    if k.val / 8 = n then { s.core k with pcache := (s.core k).pcache.filter fun e => !is.contains e.1 } else s.core k := by
  unfold State.purseDrop
  dsimp only
  exact (foldl_keeps (fun t : State => t.core k) _ (fun t i => core_setDir t i _ k) is _).trans (core_eachCore s _ k)

theorem purseDrop_mem (s : State) (is : List Nat) (n : Nat) : (s.purseDrop is n).mem = s.mem := by
  unfold State.purseDrop
  dsimp only
  exact (foldl_keeps State.mem _ (fun t i => setDir_mem t i _) is _).trans (eachCore_mem s _)

theorem purseDrop_purseWrs (s : State) (is : List Nat) (n : Nat) : (s.purseDrop is n).purseWrs = s.purseWrs := by
  unfold State.purseDrop
  dsimp only
  exact (foldl_keeps State.purseWrs _ (fun t i => setDir_purseWrs t i _) is _).trans (eachCore_purseWrs s _)

/-- A cluster that leaves the records of some entries is in none of them. -/
theorem dirOf_foldl_without {n i : Nat} (hn : n < 16) {s : State} {is : List Nat} (h : bitB (s.dirOf i) n = false ∨ i ∈ is) :
    bitB ((is.foldl (fun s i => s.setDir i (s.dirOf i &&& ~~~(BitVec.ofNat 16 (2 ^ n)))) s).dirOf i) n = false := by
  induction is generalizing s with
  | nil => simpa using h
  | cons j is ih =>
    refine ih ?_
    by_cases hj : i = j
    · left
      rw [State.dirOf_setDir, if_pos hj]
      exact bitB_without _ hn
    · rw [State.dirOf_setDir, if_neg hj]
      exact h.imp_right fun hi => (List.mem_cons.mp hi).resolve_left hj

/-- What a cluster that drops entries holds of them: nothing in its purse caches, no directory record (R67). -/
theorem purseDrop_dropped (s : State) (is : List Nat) (n : Idx16) :
    (∀ k : CoreId, k.val / 8 = n.val → ∀ e ∈ ((s.purseDrop is n.val).core k).pcache, e.1 ∉ is) ∧
      ∀ i ∈ is, bitB ((s.purseDrop is n.val).dirOf i) n.val = false := by
  refine ⟨fun k hk e he => ?_, fun i hi => dirOf_foldl_without n.isLt (.inr hi)⟩
  rw [core_purseDrop, if_pos hk] at he
  simpa using (List.mem_filter.mp he).2

theorem purseDrop_core_other (s : State) (is : List Nat) {n : Nat} {k : CoreId} (h : k.val / 8 ≠ n) : (s.purseDrop is n).core k = s.core k := by
  rw [core_purseDrop, if_neg h]

theorem purseInval_none {s : State} {id : Nat} (h : s.purseWrs.find? (·.id == id) = none) (n : Nat) : s.purseInval id n = s.purseDrop [id] n := by
  rw [State.purseInval, h]

theorem purseInval_done {s : State} {id n : Nat} {w : PurseWr} (h : s.purseWrs.find? (·.id == id) = some w) (hn : bitB w.inval n = false) :
    s.purseInval id n = s := by
  simp only [State.purseInval, h, hn, Bool.false_eq_true, if_false]

/-- Purse write `id`, cluster n no longer among those to invalidate. -/
def PurseWr.invalidated (id n : Nat) (w : PurseWr) : PurseWr :=
  if w.id = id then { w with inval := w.inval &&& ~~~(BitVec.ofNat 16 (2 ^ n)) } else w

theorem purseInval_sent {s : State} {id n : Nat} {w : PurseWr} (h : s.purseWrs.find? (·.id == id) = some w) (hn : bitB w.inval n = true) :
    s.purseInval id n = { s.purseDrop w.idxs n with purseWrs := (s.purseDrop w.idxs n).purseWrs.map (PurseWr.invalidated id n) } := by
  simp only [State.purseInval, h, hn, if_true]
  rfl

theorem bitB_invalidated {id n : Nat} (hn : n < 16) {w : PurseWr} (h : (w.invalidated id n).id = id) : bitB (w.invalidated id n).inval n = false := by
  unfold PurseWr.invalidated at h ⊢
  split at h
  next hw =>
    rw [if_pos hw]
    exact bitB_without _ hn
  next hw => exact absurd h hw

section
variable {id : Nat} {n : Idx16} {s : State} (hr : s.inReset = false)
include hr

theorem exec_purseInvalidate_first (h : s.wrFirst id (fun x => bitB x.inval n.val) = true) :
    exec (.purseInvalidate id n) s = .next (s.purseInval id n.val) := by
  rw [exec_purseInvalidate, execPurseInvalidate, alive_of_live hr, if_pos h]

theorem exec_purseInvalidate_nothing {w : PurseWr} (hw : s.purseWrs.find? (·.id == id) = some w)
    (h : bitB w.inval n.val = false ∨ s.wrFirst id (fun x => bitB x.inval n.val) = false) : exec (.purseInvalidate id n) s = .next s := by
  rw [exec_purseInvalidate, execPurseInvalidate, alive_of_live hr]
  split
  next hf => rw [purseInval_done hw (h.resolve_right (by simp [hf]))]
  next => rfl

end

/-! Acknowledgements (R66, R67) -/

theorem signal_core (s : State) (a : PurseSignal) (k : CoreId) : (s.signal a).core k = s.core k := by cases a <;> rfl
theorem signal_mem (s : State) (a : PurseSignal) : (s.signal a).mem = s.mem := by cases a <;> rfl
theorem signal_purseWrs (s : State) (a : PurseSignal) : (s.signal a).purseWrs = s.purseWrs := by cases a <;> rfl

theorem core_purseCompleted (s : State) (id : Nat) (k : CoreId) :
    (s.purseCompleted id).core k = { s.core k with sb := sbDrop (·.wait == .purse id) false (s.core k).sb } := by
  refine Eq.trans ?_ (core_eachCore s (fun _ c => { c with sb := sbDrop (·.wait == .purse id) false c.sb }) k)
  unfold State.purseCompleted
  generalize (s.eachCore fun _ c => { c with sb := sbDrop (·.wait == .purse id) false c.sb }) = t
  exact (foldl_keeps (fun t : State => t.core k) _ (fun t d => signal_core t (PurseDone.act d) k) _ _).trans rfl

theorem purseCompleted_mem (s : State) (id : Nat) : (s.purseCompleted id).mem = s.mem := by
  refine Eq.trans ?_ (eachCore_mem s fun _ c => { c with sb := sbDrop (·.wait == .purse id) false c.sb })
  unfold State.purseCompleted
  generalize (s.eachCore fun _ c => { c with sb := sbDrop (·.wait == .purse id) false c.sb }) = t
  exact (foldl_keeps State.mem _ (fun t d => signal_mem t (PurseDone.act d)) _ _).trans rfl

theorem purseCompleted_purseWrs (s : State) (id : Nat) : (s.purseCompleted id).purseWrs = s.purseWrs.filter (·.id != id) := by
  rw [← eachCore_purseWrs s fun _ c => { c with sb := sbDrop (·.wait == .purse id) false c.sb }]
  unfold State.purseCompleted
  generalize (s.eachCore fun _ c => { c with sb := sbDrop (·.wait == .purse id) false c.sb }) = t
  exact (foldl_keeps State.purseWrs _ (fun t d => signal_purseWrs t (PurseDone.act d)) _ _).trans rfl

theorem purseAck_mem (s : State) (id n : Nat) : (s.purseAck id n).mem = s.mem := by
  unfold State.purseAck
  dsimp only
  split
  · exact purseCompleted_mem ..
  · rfl

/-- An acknowledgement changes at most the store buffers. -/
theorem core_purseAck (s : State) (id n : Nat) (k : CoreId) : ∃ b, (s.purseAck id n).core k = { s.core k with sb := b } := by
  unfold State.purseAck
  dsimp only
  split
  · exact ⟨_, core_purseCompleted _ id k⟩
  · exact ⟨(s.core k).sb, rfl⟩

/-- The last acknowledgement of the only purse write. -/
theorem purseAck_last {s : State} {w : PurseWr} {n : Idx16} (hw : s.purseWrs = [w]) (hi : w.inval = 0) (ha : w.acks = BitVec.ofNat 16 (2 ^ n.val)) :
    s.purseAck w.id n.val = { s with purseWrs := [{ w with acks := 0 }] }.purseCompleted w.id := by
  have hb : bitB w.inval n.val = false := by rw [hi]; exact BitVec.getLsbD_zero
  have hm : s.purseWrs.map (fun e => if (e.id = w.id && !bitB e.inval n.val) = true then { e with acks := e.acks &&& ~~~(BitVec.ofNat 16 (2 ^ n.val)) } else e) =
      [{ w with acks := 0 }] := by
    simp [hw, hb, ha]
  unfold State.purseAck
  simp only [hm]
  simp [hi]

/-- No purse write comes before the only one. -/
theorem wrFirst_only {s : State} {w : PurseWr} (hw : s.purseWrs = [w]) (sent : PurseWr → Bool) : s.wrFirst w.id sent = true := by
  simp [State.wrFirst, hw]

theorem exec_purseInvalAck_live {id : Nat} {n : Idx16} {s : State} (hr : s.inReset = false) : exec (.purseInvalAck id n) s =
    .next (if s.wrFirst id (fun x => bitB x.acks n.val && !bitB x.inval n.val) then s.purseAck id n.val else s) := by
  rw [exec_purseInvalAck, execPurseInvalAck, alive_of_live hr]

theorem purseInvalAck_spec (id : Nat) (n : Idx16) {s : State} (hr : s.inReset = false) :
    ∃ t, exec (.purseInvalAck id n) s = .next t ∧ t.mem = s.mem ∧ (∀ k : CoreId, ∃ b, t.core k = { s.core k with sb := b }) ∧
      (s.wrFirst id (fun x => bitB x.acks n.val && !bitB x.inval n.val) = false → t = s) ∧
      ∀ w, s.purseWrs = [w] → w.id = id → w.inval = 0 → w.acks = BitVec.ofNat 16 (2 ^ n.val) → t.purseWrs = [] ∧
        ∀ k : CoreId, t.core k = { s.core k with sb := sbDrop (·.wait == .purse id) false (s.core k).sb } := by
  refine ⟨_, exec_purseInvalAck_live hr, ?_, fun k => ?_, fun hf => if_neg (by simp [hf]), ?_⟩
  · split
    · exact purseAck_mem ..
    · rfl
  · split
    · exact core_purseAck ..
    · exact ⟨(s.core k).sb, rfl⟩
  · rintro w hw rfl hi ha
    rw [if_pos (wrFirst_only hw _), purseAck_last hw hi ha]
    refine ⟨?_, fun k => core_purseCompleted _ _ k⟩
    rw [purseCompleted_purseWrs]
    simp

/-! Free lists (R76, R77, R79) -/

theorem orWait_of_ready (s : State) {t : State} (h : t.blocked = false) : s.orWait t = t := by rw [State.orWait, h]; rfl
theorem orWait_of_blocked (s : State) {t : State} (h : t.blocked = true) : s.orWait t = s := by rw [State.orWait, h]; rfl

/-- A refill step is due on core k (R79). -/
def State.refillDue (s : State) (k : CoreId) : Bool :=
  (s.core k).refill && s.freeEn k && decide ((s.core k).reserve.length < 2) && s.coreServes k.val

section
variable {k : CoreId} {s t : State}

theorem freeListPop_idle (h : s.refillDue k = false) : exec (.freeListPop k) s = .next s :=
  if_neg (Bool.eq_false_iff.mp h)

theorem freeListPop_entry {i : Nat} (h : s.refillDue k = true) (hp : s.pop (s.freeHead k) none = (.entry i, t)) :
    exec (.freeListPop k) s = .next (s.orWait (t.modCore k fun c =>
      { c with reserve := c.reserve ++ [⟨i, s.freeHead k⟩], refill := decide ((c.reserve ++ [Reserve.mk i (s.freeHead k)]).length < 2) })) := by
  refine (if_pos h).trans ?_
  rw [hp]

theorem freeListPop_failed {r : PopRes} (h : s.refillDue k = true) (hp : s.pop (s.freeHead k) none = (r, t)) (hr : r = .empty ∨ r = .badlist) :
    exec (.freeListPop k) s = .next (s.orWait (t.modCore k fun c => { c with refill := false })) := by
  refine (if_pos h).trans ?_
  rw [hp]
  rcases hr with rfl | rfl <;> rfl

theorem freeListPop_blocked {r : PopRes} (h : s.refillDue k = true) (hp : s.pop (s.freeHead k) none = (r, t)) (hb : t.blocked = true) :
    exec (.freeListPop k) s = .next s := by
  cases r with
  | entry i => rw [freeListPop_entry h hp, orWait_of_blocked s (by simpa using hb)]
  | empty => rw [freeListPop_failed h hp (.inl rfl), orWait_of_blocked s (by simpa using hb)]
  | badlist => rw [freeListPop_failed h hp (.inr rfl), orWait_of_blocked s (by simpa using hb)]

end

theorem freeListPush_spec (h i : Nat) (s : State) :
    (s.push h i none = none → exec (.freeListPush h i) s = .next s) ∧
      ∀ t, s.push h i none = some t → exec (.freeListPush h i) s = .next (if t.blocked then s else t) := by
  refine ⟨fun hn => ?_, fun t ht => ?_⟩
  · rw [exec_freeListPush, execFreeListPush, hn, Option.getD_none, State.orWait, ite_self]
  · rw [exec_freeListPush, execFreeListPush, ht, Option.getD_some, State.orWait]

/-! Recalls reach their home slice (R87, R88) -/

theorem newFence_blocked (s : State) (kind : FenceKind) (after purses : List Nat) : (s.newFence kind after purses).blocked = s.blocked := (rfl)

section
variable {k : CoreId} {s t : State} {w : RecallWait} {e : RecallEnd}

theorem recallArrive_nothing (h : (s.core k).recallW = none ∨ ∃ w, (s.core k).recallW = some w ∧ w.arrived ≠ none) :
    exec (.recallArrive k) s = .next s := by
  rw [exec_recallArrive, execRecallArrive]
  rcases h with h | ⟨w, h, ha⟩
  · rw [h]
  · simp only [h, Option.isSome_iff_ne_none.mpr ha, if_true]

variable (hw : (s.core k).recallW = some w) (ha : w.arrived = none)
  (hc : ((s.finishCorePurseWrs k.val).takeEntry w.idx).recallChange k w = (e, t))
include hw ha hc

/-- An unsealed entry's recall starts its fence. -/
theorem recallArrive_fence (he : e ≠ .status 4) : exec (.recallArrive k) s = .next (s.orWait
    ((t.newFence (.recallOf k.val) ((t.purseWrs.filter fun x => x.idxs.contains w.idx).map (·.id)) [w.idx]).modCore k fun c =>
      { c with recallW := some { w with arrived := some e, fence := t.nextId } })) := by
  rw [exec_recallArrive, execRecallArrive]
  simp only [hw, ha, Option.isSome_none, Bool.false_eq_true, if_false, hc]

/-- A sealed entry's recall ends. -/
theorem recallArrive_sealed (he : e = .status 4) : exec (.recallArrive k) s = .next (s.orWait
    ((t.modCore k fun c => { c with recallW := some { w with arrived := some e } }).recallEnd k)) := by
  subst he
  rw [exec_recallArrive, execRecallArrive]
  simp only [hw, ha, Option.isSome_none, Bool.false_eq_true, if_false, hc]

end

/-! Fence markers and their acknowledgements (R88, R90, R91) -/

theorem marked_blocked (s : State) (id : Nat) (a : Agent) (ids : List Nat) : (s.marked id a ids).blocked = s.blocked := (rfl)

/-- The fence, `agent` no longer among those to acknowledge. -/
def Fence.acked (agent : FenceAgent) (f : Fence) : Fence := { f with acks := f.acks.filter (· != agent) }

theorem fenceOf_id {s : State} {id : Nat} {f : Fence} (h : s.fenceOf id = some f) : f.id = id := by
  simpa using List.find?_some h

theorem fenceOf_modFence {s : State} {id : Nat} {f : Fence} (h : s.fenceOf id = some f) (g : Fence → Fence) (hg : ∀ x, (g x).id = x.id) :
    (s.modFence id g).fenceOf id = some (g f) := by
  have hid (x : Fence) : (if x.id = id then g x else x).id = x.id := by split <;> simp [hg]
  have hp : (fun x : Fence => x.id == id) ∘ (fun x => if x.id = id then g x else x) = fun x => x.id == id := by
    funext x
    simp only [Function.comp, hid]
  unfold State.fenceOf at h ⊢
  rw [State.modFence, List.find?_map, hp, h, Option.map_some, if_pos (fenceOf_id h)]

section
variable {id : Nat} {agent : FenceAgent} {f : Fence} {s : State} (hf : s.fenceOf id = some f)
include hf

/-- A marker that has not been sent, or follows another of its stop, does not arrive. -/
theorem fenceMarker_early
    (h : s.markersOut f = false ∨ s.fenceFirst f (fun g => s.markersOut g && g.markers.contains agent) = false) :
    exec (.fenceMarker id agent) s = .next s := by
  rw [exec_fenceMarker, execFenceMarker]
  simp only [hf]
  have hearly : (!s.markersOut f || !f.markers.contains agent ||
      !s.fenceFirst f (fun g => s.markersOut g && g.markers.contains agent)) = true := by
    rcases h with h | h
    · rw [h]; rfl
    · rw [h, Bool.not_false, Bool.or_true]
  rw [if_pos hearly]

/-- What the marker does at each agent, once it arrives. -/
theorem fenceMarker_arrives (hm : agent ∈ f.markers) (ho : s.markersOut f = true)
    (h1 : s.fenceFirst f (fun g => s.markersOut g && g.markers.contains agent) = true) :
    (agent = .guards → exec (.fenceMarker id agent) s = .next ((s.guardsMarker f.purses).marked id agent s.admitted)) ∧
    (∀ n : Idx16, agent = .teller n →
      exec (.fenceMarker id agent) s = .next ((s.tellerMarker n.val).2.marked id agent (s.tellerMarker n.val).1)) ∧
    (∀ n : Idx16, agent = .cluster n → (∃ k, f.kind = .recallOf k) → exec (.fenceMarker id agent) s =
      .next (if (s.clusterPerform n.val).blocked then s else (s.clusterPerform n.val).marked id agent [])) ∧
    ∀ p : PortId, agent = .peer p →
      (s.portLinked p.val = false → exec (.fenceMarker id agent) s = .next (s.marked id agent [])) ∧
      (s.portLinked p.val = true → ∀ k i, f.kind = .recallOf k → f.purses = [i] → exec (.fenceMarker id agent) s =
        .next ((s.send ⟨p.val, 0x31, [], false, 0, id % 65536, 0x130 + p.val, 0, BitVec.ofNat 64 i⟩).marked id agent [0])) := by
  have hdue : ¬(!s.markersOut f || !f.markers.contains agent ||
      !s.fenceFirst f (fun g => s.markersOut g && g.markers.contains agent)) = true := by
    rw [ho, List.contains_iff_mem.mpr hm, h1]
    decide
  rw [exec_fenceMarker, execFenceMarker]
  simp only [hf]
  rw [if_neg hdue]
  refine ⟨?guards, ?teller, ?cluster, ?peer⟩
  case guards => rintro rfl; rfl
  case teller => rintro n rfl; rfl
  case cluster =>
    rintro n rfl ⟨k, hk⟩
    simp only [hk, State.orWait, marked_blocked]
  case peer =>
    rintro p rfl
    refine ⟨fun hl => if_neg (by simp [hl]), fun hl k i hk hp => ?_⟩
    simp only [hl, hk, hp, if_true]

/-- An acknowledgement that is not due yet, or follows another of its stop, does not arrive. -/
theorem fenceAck_early (h : agent ∈ f.markers ∨ agent ∉ f.acks ∨ s.agentWaits f agent = true ∨
    s.fenceFirst f (fun g => !g.markers.contains agent && g.acks.contains agent && !s.agentWaits g agent) = false) :
    exec (.fenceAck id agent) s = .next s := by
  rw [exec_fenceAck, execFenceAck]
  simp only [hf]
  have hearly : (f.markers.contains agent || !f.acks.contains agent || s.agentWaits f agent ||
      !s.fenceFirst f (fun g => !g.markers.contains agent && g.acks.contains agent && !s.agentWaits g agent)) = true := by
    rcases h with h | h | h | h
    · rw [List.contains_iff_mem.mpr h]; rfl
    · rw [Bool.eq_false_iff.mpr (mt List.contains_iff_mem.mp h), Bool.not_false, Bool.or_true]; rfl
    · rw [h, Bool.or_true]; rfl
    · rw [h, Bool.not_false, Bool.or_true]
  rw [if_pos hearly]

theorem fenceAck_arrives (hm : agent ∉ f.markers) (hk : agent ∈ f.acks) (hw : s.agentWaits f agent = false)
    (h1 : s.fenceFirst f (fun g => !g.markers.contains agent && g.acks.contains agent && !s.agentWaits g agent) = true) :
    exec (.fenceAck id agent) s = .next (if (f.acked agent).acks = [] then (s.modFence id (Fence.acked agent)).fenceDone (f.acked agent)
      else s.modFence id (Fence.acked agent)) := by
  have hg : (s.modFence id fun f => { f with acks := f.acks.filter (· != agent) }).fenceOf id = some (f.acked agent) :=
    fenceOf_modFence hf (Fence.acked agent) fun _ => rfl
  rw [exec_fenceAck, execFenceAck]
  simp only [hf]
  rw [if_neg (by simp only [Bool.eq_false_iff.mpr (mt List.contains_iff_mem.mp hm), List.contains_iff_mem.mpr hk, hw, h1, Bool.not_true,
    Bool.or_self, Bool.false_eq_true, not_false_eq_true])]
  simp only [hg]
  rfl

end

/-- Settles O52: purse writes by the bytes they leave, invalidations by `purseDrop_dropped`, acknowledgements by `purseInvalAck_spec`,
free lists, recalls and fences by what each command answers. -/
theorem purseAndFenceResult : Obligations.PurseAndFenceResult := by
  unfold Obligations.PurseAndFenceResult
  refine ⟨?writes, ?invalidations, fun id n s hr => purseInvalAck_spec id n hr, ?pops, freeListPush_spec, ?recalls, ?markers, ?acks⟩
  case writes =>
    intro a l bs s es
    refine ⟨purseWrite_none, fun he hl hline hw hd => ?_⟩
    obtain ⟨t, ht, hmem⟩ := purseWrite_writes he hl hline hw hd
    refine ⟨t, ht, fun j hj => ?_, fun x hx => ?_⟩
    · rw [hmem, if_pos (by omega), Nat.add_sub_cancel_left]
    · rw [hmem, if_neg (by omega)]
  case invalidations =>
    intro id n s hr dropped
    refine ⟨fun hnone => ?_, fun w hw h => exec_purseInvalidate_nothing hr hw h, fun w hw hsent hfirst => ?_⟩
    · have hfirst : s.wrFirst id (fun x => bitB x.inval n.val) = true := by rw [State.wrFirst, hnone]
      rw [exec_purseInvalidate_first hr hfirst, purseInval_none hnone]
      exact ⟨_, rfl, purseDrop_dropped s [id] n, fun k hk => purseDrop_core_other s _ hk, purseDrop_purseWrs .., purseDrop_mem ..⟩
    · rw [exec_purseInvalidate_first hr hfirst, purseInval_sent hw hsent]
      refine ⟨_, rfl, purseDrop_dropped s w.idxs n, fun k hk => purseDrop_core_other s _ hk, fun e he hid => ?_, purseDrop_mem ..⟩
      obtain ⟨x, -, rfl⟩ := List.mem_map.mp he
      exact bitB_invalidated n.isLt hid
  case pops =>
    intro k s c may
    refine ⟨freeListPop_idle, fun i t hmay hp hb => ⟨_, (freeListPop_entry hmay hp).trans (congrArg _ (orWait_of_ready s ?_)), ?_, rfl⟩,
      fun t hmay hp hb => ?_, fun r t hmay hp hb => freeListPop_blocked hmay hp hb⟩
    · simpa using hb
    · rw [State.core_modCore_same]
    · have hfail : exec (.freeListPop k) s = .next (s.orWait (t.modCore k fun c => { c with refill := false })) := by
        rcases hp with hp | hp
        · exact freeListPop_failed hmay hp (.inl rfl)
        · exact freeListPop_failed hmay hp (.inr rfl)
      rw [hfail, orWait_of_ready s (by simpa using hb)]
      rfl
  case recalls =>
    intro k s
    refine ⟨recallArrive_nothing, fun w e t hw ha hc hb he => ?_, fun w e t hw ha hc =>
      ⟨fun hb he => ?_, fun he => recallArrive_sealed hw ha hc he⟩⟩
    · rw [recallArrive_fence hw ha hc he, orWait_of_ready s (by rwa [State.modCore_blocked, newFence_blocked])]
      exact ⟨_, rfl, List.length_append, by rw [State.core_modCore_same], rfl, _, List.mem_append_right _ (List.mem_singleton.mpr rfl), rfl, rfl, rfl, rfl⟩
    · rw [recallArrive_fence hw ha hc he, orWait_of_blocked s (by rwa [State.modCore_blocked, newFence_blocked])]
  case markers =>
    intro id agent f s hf hm first
    exact ⟨fenceMarker_early hf, fenceMarker_arrives hf hm⟩
  case acks =>
    intro id agent f s hf first
    refine ⟨fenceAck_early hf, fun hm hk hw h1 => ⟨f.acked agent, fenceOf_modFence hf (Fence.acked agent) fun _ => rfl, rfl,
      fun hne => ?_, fun hnil => ?_⟩⟩
    · rw [fenceAck_arrives hf hm hk hw h1, if_neg hne]
      rfl
    · rw [fenceAck_arrives hf hm hk hw h1, if_pos hnil]
      rfl

end Sys2Proof.Machine

namespace Sys2Proof.Machine

theorem getS_ok (s : State) : getS s = .ok s s := rfl

/-! Minting purses (R79–R83) -/

/-- The new entry i written for a MINT of core k, which keeps it in its purse cache (R65, R83). -/
def State.mintPut (s : State) (k : CoreId) (i : Nat) (new : Purse) : State :=
  let s := s.writeMinted i new k
  let s := s.modCore k fun c => { c with pcache := capTo 512 s.free ((i, new) :: c.pcache.filter fun q => q.1 != i) }
  s.setDir i (s.dirOf i ||| BitVec.ofNat 16 (2 ^ (k.val / 8)))

/-- What MINT does with the outcome of its free list: `x` is the coin it mints from, `n` and `ctl` its operands (R81, R83). -/
def mintOutcome (k : CoreId) (d b : BitVec 5) (x : Coin) (asid n : Nat) (ctl : Word) : PopRes → CM Next
  | .entry i => do
    let s ← getS
    let e := match s.purseRead i with | .ok e => e | _ => ⟨0, 0, 0, 0⟩
    modS fun s => s.mintPut k i (mintEntry e x.purse asid x.cursor.toNat n ctl)
    onCore k fun c => (c.setC d.toNat (Coin.make x.cursor i e.issue (mtRights ctl) true)).setG b.toNat 0
  | .empty => onCore k fun c => (c.setC d.toNat Coin.zero).setG b.toNat 1
  | .badlist => onCore k fun c => (c.setC d.toNat Coin.zero).setG b.toNat 2

theorem mintOutcome_entry {k : CoreId} {d b : BitVec 5} {x : Coin} {asid n i : Nat} {ctl : Word} {s : State} {e : Purse} (he : s.purseRead i = .ok e) :
    mintOutcome k d b x asid n ctl (.entry i) s = .ok .seq ((s.mintPut k i (mintEntry e x.purse asid x.cursor.toNat n ctl)).modCore k fun c =>
      (c.setC d.toNat (Coin.make x.cursor i e.issue (mtRights ctl) true)).setG b.toNat 0) := by
  rw [mintOutcome, bind_ok (getS_ok s), he]
  rfl

/-- The state in which MINT knows what its free list gave (R79, R81). -/
def State.mintTaken (s : State) (k : CoreId) : State :=
  ((s.finishCorePurseWrs k.val).mintTake k).2.modCore k fun c => { c with refill := c.csF R.CS_FREEHEAD F.CS_FREEHEAD_EN == 1 }

/-- A MINT whose coin passes its checks does what the outcome of its free list asks for. -/
theorem mint_reaches {k : CoreId} {d a b : BitVec 5} {len va : Nat} {p : Purse} {s s₁ s₂ t : State}
    (h : Reaches k (mkInsn (encRR 0x28 d.toNat a.toNat b.toNat 0 0x10) [cN a, gN b, fun c => c.gDst (b.toNat + 1)] [cN d, gN b]) len s s₁)
    (hd : d.toNat < 16) (ha : a.toNat < 16) (heven : b.toNat % 2 = 0) (hb : b ≠ 0)
    (hc : coinCheckP k a.toNat ((s₁.core k).cR a.toNat) 0 0 13 none 0
      (fun p => mintFault p ((s₁.core k).cR a.toNat) ((s₁.core k).gR b.toNat).toNat ((s₁.core k).gR (b.toNat + 1)) (s₁.core k).ring) s₁ = .ok (va, p) s₂)
    (ho : mintOutcome k d b ((s₁.core k).cR a.toNat) (s₁.core k).asid ((s₁.core k).gR b.toNat).toNat ((s₁.core k).gR (b.toNat + 1))
      ((s₂.finishCorePurseWrs k.val).mintTake k).1 (s₂.mintTaken k) = .ok .seq t) (ht : t.blocked = false) :
    exec (.mint k d a b) s = Done k (mkInsn (encRR 0x28 d.toNat a.toNat b.toNat 0 0x10) [cN a, gN b, fun c => c.gDst (b.toNat + 1)] [cN d, gN b])
      len .seq t := by
  have hlegal : ¬(b.toNat % 2 = 1 ∨ b = 0) := by
    rintro (h1 | h0)
    · omega
    · exact hb h0
  refine coreInstr_reaches h ?_ (by simp) (by simpa using ht)
  rw [bind_ok (needC_ok hd _), bind_ok (needC_ok ha _), if_neg hlegal, bind_ok (getC_ok k s₁), bind_ok hc, ← ho]
  rfl

/-- Settles O29: the three outcomes of the free list, each by `mint_reaches`. -/
theorem mintResult : Obligations.MintResult := by
  unfold Obligations.MintResult
  intro k d a b len va p s s₁ s₂ i c x n ctl r s₃ h hd ha heven hb hc
  have hr (q : PopRes) (hq : r.1 = q) (t : State) (ho : mintOutcome k d b x c.asid n ctl q s₃ = .ok .seq t) (ht : t.blocked = false) :
      exec (.mint k d a b) s = Done k i len .seq t :=
    mint_reaches h hd ha heven hb hc (hq ▸ ho) ht
  exact ⟨fun j e hj he hs => hr _ hj _ (mintOutcome_entry he) (by simpa using hs), fun hempty hs => hr _ hempty _ rfl (by simpa using hs),
    fun hbad hs => hr _ hbad _ rfl (by simpa using hs)⟩

end Sys2Proof.Machine

namespace Sys2Proof.Machine

/-! Recalls (R85–R87) -/

section
variable {k : CoreId} {d a b : BitVec 5} {f7 len va : Nat} {freeing : Bool} {p : Purse} {s s₁ s₂ : State}

theorem ring0_ok (h : (s.core k).ring = 0) : ring0 k s = .ok () s := by
  rw [ring0, bind_ok (getC_ok k s), if_neg (not_not.mpr h)]
  rfl

/-- The core that waits on recall `w`. -/
def State.recalling (s : State) (k : CoreId) (w : RecallWait) : State := s.modCore k fun c => { c with recallW := some w }

theorem sendRecall_ok (w : RecallWait) : sendRecall k w s = .ok .pend (s.recalling k w) := rfl

/-- An instruction whose body sends a recall leaves its core waiting on it. -/
theorem sendRecall_reaches {i : Insn} {body : CM Next} {w : RecallWait} (h : Reaches k i len s s₁) (hb : body s₁ = sendRecall k w s₂)
    (hs : s₂.blocked = false) : coreInstr k i body s = .next (s₂.recalling k w) := by
  rw [coreInstr_reaches h (hb.trans (sendRecall_ok w)) (by simp) (by simpa [State.recalling] using hs), Done, complete_pend]

/-- A recall by coin: RECALL, or with `freeing` RECALLF in ring 0. -/
theorem recallCoin_reaches
    (h : Reaches k (mkInsn (encRR 0x28 d.toNat a.toNat b.toNat 0 f7) [cN a] (if freeing then [gN b] else [cN d, gN b])) len s s₁)
    (ha : a.toNat < 16) (hd : if freeing then d = 0 ∧ (s₁.core k).ring = 0 else d.toNat < 16)
    (hc : coinCheckP k a.toNat ((s₁.core k).cR a.toNat) 0 0 14 none 0 (fun p => if p.sealld then some .rights else none) s₁ = .ok (va, p) s₂)
    (hs : s₂.blocked = false) :
    recallCoin f7 freeing k d a b s = .next (s₂.recalling k ⟨((s₁.core k).cR a.toNat).purse, ((s₁.core k).cR a.toNat).issue, freeing,
      if freeing then none else some (d.toNat, (s₁.core k).cR a.toNat), b.toNat, some ((s₁.core k).cR a.toNat).cursor, none, 0⟩) := by
  refine sendRecall_reaches h ?_ hs
  rw [bind_ok (needC_ok ha _)]
  cases freeing with
  | false =>
    exact (bind_ok (needC_ok hd _)).trans ((bind_ok (getC_ok k s₁)).trans (bind_ok hc))
  | true =>
    obtain ⟨rfl, hring⟩ := hd
    exact (bind_ok (ring0_ok hring)).trans ((bind_ok (getC_ok k s₁)).trans (bind_ok hc))

/-- A recall by index beyond the table completes with BADINDEX. -/
theorem recallIndex_badIndex (h : Reaches k (mkInsn (encRR 0x28 d.toNat a.toNat 0 0 f7) [gN a] [gN d]) len s s₁)
    (hr : (s₁.core k).ring = 0) (hn : s₁.ptbCount ≤ ((s₁.core k).gR a.toNat).toNat % 2 ^ 32) :
    recallIndex f7 freeing k d a s =
      Done k (mkInsn (encRR 0x28 d.toNat a.toNat 0 0 f7) [gN a] [gN d]) len .seq (s₁.modCore k fun c => c.setG d.toNat 5) := by
  refine coreInstr_reaches h ?_ (by simp) (by simpa using h.unblocked)
  rw [bind_ok (ring0_ok hr), bind_ok (getC_ok k s₁), bind_ok (getS_ok s₁), if_pos hn]
  rfl

/-- The issue that a recall by index compares: that of the entry read, 0 where it cannot be read (log entry 133). -/
def PurseRead.issueOr0 : PurseRead → Nat
  | .ok p => p.issue
  | _ => 0

/-- A recall by index compares the issue of the entry as read now. -/
theorem recallIndex_reaches (h : Reaches k (mkInsn (encRR 0x28 d.toNat a.toNat 0 0 f7) [gN a] [gN d]) len s s₁)
    (hr : (s₁.core k).ring = 0) {n : Nat} (hn : ((s₁.core k).gR a.toNat).toNat % 2 ^ 32 = n) (hlt : n < s₁.ptbCount)
    {q : PurseRead} (hq : s₁.purseCached k n = (q, s₂)) (hs : s₂.blocked = false) :
    recallIndex f7 freeing k d a s = .next (s₂.recalling k
      ⟨n, q.issueOr0, freeing, none, d.toNat, none, none, 0⟩) := by
  subst hn
  have hread : liftS (fun s => s.purseCached k (((s₁.core k).gR a.toNat).toNat % 2 ^ 32)) s₁ = .ok q s₂ := by rw [liftS, hq]
  refine sendRecall_reaches h ?_ hs
  rw [bind_ok (ring0_ok hr), bind_ok (getC_ok k s₁), bind_ok (getS_ok s₁), if_neg (Nat.not_le.mpr hlt), bind_ok hread]
  rfl

end

/-- Both recalls by index, the instruction `ins` being `recallIndex f7 freeing`. -/
theorem recallIndex_result {ins : CoreId → BitVec 5 → BitVec 5 → Instr} {f7 : Nat} {freeing : Bool}
    (he : ∀ k d a s, exec (ins k d a) s = recallIndex f7 freeing k d a s) (k : CoreId) (d a : BitVec 5) (len : Nat) (s s₁ : State)
    (h : Reaches k (mkInsn (encRR 0x28 d.toNat a.toNat 0 0 f7) [gN a] [gN d]) len s s₁) (hring : (s₁.core k).ring = 0) :
    let n := ((s₁.core k).gR a.toNat).toNat % 2 ^ 32
    let r := s₁.purseCached k n
    (s₁.ptbCount ≤ n → exec (ins k d a) s =
      Done k (mkInsn (encRR 0x28 d.toNat a.toNat 0 0 f7) [gN a] [gN d]) len .seq (s₁.modCore k fun c => c.setG d.toNat 5)) ∧
    (n < s₁.ptbCount → r.2.blocked = false → ∃ issue, (∀ p, r.1 = .ok p → issue = p.issue) ∧
      exec (ins k d a) s = .next (r.2.recalling k ⟨n, issue, freeing, none, d.toNat, none, none, 0⟩)) := by
  intro n r
  refine ⟨fun hn => (he ..).trans (recallIndex_badIndex h hring hn), fun hn hs =>
    ⟨r.1.issueOr0, fun p hp => by rw [hp]; rfl, (he ..).trans (recallIndex_reaches h hring rfl hn rfl hs)⟩⟩

/-- A recall that has its status writes it and completes its instruction. -/
theorem recallEnd_status {k : CoreId} {w : RecallWait} {code : Nat} {s : State} (hw : (s.core k).recallW = some w)
    (ha : w.arrived = some (.status code)) : s.recallEnd k = s.recallStatus k w code := by
  rw [State.recallEnd, hw]
  simp only [ha]

/-- Settles O30: recalls by coin are `recallCoin_reaches`, by index `recallIndex_result`, and their end `recallEnd_status`. -/
theorem recallSendsAndCompletes : Obligations.RecallSendsAndCompletes := by
  unfold Obligations.RecallSendsAndCompletes
  refine ⟨?coin, ?freeing, ?index, fun k w code s hw ha => recallEnd_status hw ha⟩
  case coin =>
    intro k d a b len va p s s₁ s₂ i x h ha hd hc hs
    exact recallCoin_reaches (freeing := false) h ha hd hc hs
  case freeing =>
    intro k a b len va p s s₁ s₂ i x h ha hring hc hs
    exact recallCoin_reaches (d := 0) (freeing := true) h ha ⟨rfl, hring⟩ hc hs
  case index =>
    rw [List.forall_mem_cons, List.forall_mem_singleton]
    exact ⟨recallIndex_result (fun _ _ _ _ => rfl), recallIndex_result (fun _ _ _ _ => rfl)⟩

end Sys2Proof.Machine

namespace Sys2Proof.Machine

/-! Tag engines and sweep jobs (R94, R96) -/

/-- Two sweep jobs of one number in SCAN: the first has engines 0x110 and 0x111 to wait for, the second engine 0x112. -/
def twinJobs : State :=
  { State.reset with
    inReset := false
    sweep := { State.reset.sweep with jobs := [⟨1, none, [], .scan, [], [], [0x110, 0x111]⟩, ⟨1, none, [], .scan, [], [], [0x112]⟩] } }

/-- The engines that the jobs of the answered state wait for. -/
def enginesLeft : Res → List (List Nat)
  | .next t => t.sweep.jobs.map (·.engines)
  | _ => []

/-- Engine 0x110 ends its scan: each job goes on without it, the second with the engine that it had. -/
theorem enginesLeft_scanDone_twinJobs : enginesLeft (exec (.tagEngineScanDone 0x110) twinJobs) = [[0x111], [0x112]] := by
  rw [exec_tagEngineScanDone]
  decide

/-- Refutes O53: where a job goes on after an engine's scan, the statement has every job of that number wait for the engines that the first
such job still waits for, but `State.engineDone` takes the engine out of each job's own list (R94). In `twinJobs` two jobs have one number and
wait for different engines. Jobs take fresh numbers from `State.nextId`, so the clause lacks a hypothesis: that no other job has the number of
`j`. -/
theorem not_sweepResult : ¬ Obligations.SweepResult := by
  unfold Obligations.SweepResult
  intro h
  obtain ⟨-, -, -, -, hengine⟩ := h twinJobs rfl
  obtain ⟨-, -, hscan⟩ := hengine 0x110
  obtain ⟨-, -, -, -, -, hgoesOn, -⟩ := hscan ⟨1, none, [], .scan, [], [], [0x110, 0x111]⟩ (by decide) (by decide) (by decide)
  obtain ⟨hexec, -⟩ := hgoesOn (.inl (by decide))
  have hleft := enginesLeft_scanDone_twinJobs
  rw [hexec] at hleft
  exact absurd hleft (by decide)

end Sys2Proof.Machine
